-- ==== Sys2Proof/Word.lean ====
section
/-! DEFINITION. The word and byte types and their plainest arithmetic (R9, R17). -/

namespace Sys2Proof

/-- A register or bus word (R9: each register is 32 bits wide). -/
abbrev Word := BitVec 32

/-- A byte of a memory or of a frame. -/
abbrev Byte := BitVec 8

/-- A stored SRAM codeword: 32 data bits and 7 check bits (R186). -/
abbrev Codeword := BitVec 39

end Sys2Proof
end

