-- ==== Sys2Proof/Names.lean ====
section
/-! DEFINITION. The closed sets of names the manual uses: requesters, power domains, register pages, page owners and
access sizes. -/

namespace Sys2Proof.Machine

/-- Who issues a request (R20, R24).  `bootRom` is the LC while it runs the boot ROM (R409). -/
inductive Requester where
  | lc | lcDbg | ac | acDbg | hspi | i2ct | uart | hostDma | bootRom
deriving DecidableEq, Repr

/-- R20: the legal side; every other requester is on the application side.  Debug access to the LC is there only as far as
the lifecycle allows it (`Dev.present`). -/
def Requester.legal : Requester → Bool
  | .lc | .lcDbg | .bootRom => true
  | _ => false

/-- The host ports of R24 (HSPI and I2CT). -/
def Requester.host : Requester → Bool
  | .hspi | .i2ct => true
  | _ => false

/-- The three sets of capture registers of R16, R55, R108, R161 and R252: the LC, the AC and the host port. -/
def Requester.capture : Requester → Fin 3
  | .lc | .lcDbg | .bootRom => 0
  | .ac | .acDbg => 1
  | _ => 2

/-- The ten power domains, in the order of their numbers (R345). -/
inductive Dom where
  | aon | sys | lgl | app | sha | shb | met | ufa | ufd | per
deriving DecidableEq, Repr

def Dom.num : Dom → Nat
  | .aon => 0 | .sys => 1 | .lgl => 2 | .app => 3 | .sha => 4 | .shb => 5 | .met => 6 | .ufa => 7 | .ufd => 8 | .per => 9

def Dom.all : List Dom := [.aon, .sys, .lgl, .app, .sha, .shb, .met, .ufa, .ufd, .per]

/-- The sides a register page may belong to (R26). -/
inductive Owner where
  | legal | app | shared
deriving DecidableEq, Repr

/-- PG_OWNER.OWNER (R31). -/
def Owner.code : Owner → Nat
  | .legal => 0 | .app => 1 | .shared => 2

/-- The register pages, in the order of their numbers (R28). -/
inductive Page where
  | sysctl | pwr | clk | rooster | gander | rtc | mae | herd | mule | memctl | evtmx | fwall | metFe | metCal | metQty | energy | pulse | ufeDrv | ufeRx | ufeTof | flow | rtd | therm | tariff | bill | prepay | crypto | lcd | keypad | lamp | hspi | i2ct | mspi | uart | lglmbx | dpm | fuse | debug | watch
deriving DecidableEq, Repr

def Page.num : Page → Nat
  | .sysctl => 0 | .pwr => 1 | .clk => 2 | .rooster => 3 | .gander => 4 | .rtc => 5 | .mae => 6 | .herd => 7
  | .mule => 8 | .memctl => 9 | .evtmx => 10 | .fwall => 11 | .metFe => 12 | .metCal => 13 | .metQty => 14 | .energy => 15
  | .pulse => 16 | .ufeDrv => 17 | .ufeRx => 18 | .ufeTof => 19 | .flow => 20 | .rtd => 21 | .therm => 22 | .tariff => 23
  | .bill => 24 | .prepay => 25 | .crypto => 26 | .lcd => 27 | .keypad => 28 | .lamp => 29 | .hspi => 30 | .i2ct => 31
  | .mspi => 32 | .uart => 33 | .lglmbx => 34 | .dpm => 35 | .fuse => 36 | .debug => 37 | .watch => 38

def Page.all : List Page :=
  [.sysctl, .pwr, .clk, .rooster, .gander, .rtc, .mae, .herd, .mule, .memctl, .evtmx, .fwall, .metFe, .metCal, .metQty, .energy, .pulse, .ufeDrv, .ufeRx, .ufeTof, .flow, .rtd, .therm, .tariff, .bill, .prepay, .crypto, .lcd, .keypad, .lamp, .hspi, .i2ct, .mspi, .uart, .lglmbx, .dpm, .fuse, .debug, .watch]

/-- The page with number `n`, if there is one. -/
def Page.ofNum (n : Nat) : Option Page := Page.all[n]?

/-- R28: the domain a page stands in. -/
def Page.dom : Page → Dom
  | .pwr | .rooster | .gander | .rtc | .watch => .aon
  | .sysctl | .clk | .herd | .mule | .memctl | .evtmx | .fuse | .debug => .sys
  | .fwall | .tariff | .bill | .prepay | .crypto | .lglmbx => .lgl
  | .mae | .metFe | .metCal | .metQty | .energy | .pulse => .met
  | .ufeDrv | .ufeRx | .rtd => .ufa
  | .ufeTof | .flow | .therm => .ufd
  | .lcd | .keypad | .lamp | .hspi | .i2ct | .mspi | .uart | .dpm => .per

/-- R28: the owner a page reports in PG_OWNER. -/
def Page.owner : Page → Owner
  | .gander | .rtc | .mae | .mule | .fwall | .metFe | .metCal | .metQty | .energy | .pulse | .tariff | .bill | .prepay | .crypto | .lcd | .keypad | .mspi | .fuse => .legal
  | .clk | .rooster | .ufeDrv | .ufeRx | .ufeTof | .therm | .lamp | .hspi | .i2ct | .uart | .dpm | .watch => .app
  | .sysctl | .pwr | .herd | .memctl | .evtmx | .flow | .rtd | .lglmbx | .debug => .shared

/-- R29: the first device event number of a page and how many events it has (none: EVTMX, FUSE, DEBUG). -/
def Page.events : Page → Option (Nat × Nat)
  | .sysctl => some (0, 8) | .pwr => some (8, 12) | .clk => some (20, 6) | .rooster => some (26, 6)
  | .gander => some (32, 16) | .rtc => some (48, 8) | .mae => some (56, 16) | .herd => some (72, 32)
  | .mule => some (104, 16) | .memctl => some (120, 24) | .metFe => some (144, 16) | .metCal => some (160, 4)
  | .metQty => some (164, 12) | .energy => some (176, 8) | .pulse => some (184, 8) | .ufeDrv => some (192, 8)
  | .ufeRx => some (200, 12) | .ufeTof => some (212, 12) | .flow => some (224, 16) | .rtd => some (240, 8)
  | .therm => some (248, 8) | .tariff => some (256, 3) | .bill => some (259, 5) | .prepay => some (264, 6)
  | .crypto => some (270, 4) | .lglmbx => some (274, 4) | .fwall => some (278, 2) | .lcd => some (280, 4)
  | .keypad => some (284, 4) | .lamp => some (288, 8) | .hspi => some (296, 4) | .i2ct => some (300, 3)
  | .mspi => some (303, 5) | .uart => some (308, 4) | .dpm => some (312, 4) | .watch => some (316, 4)
  | .evtmx | .fuse | .debug => none

/-- The size of an access a core can issue (R10). -/
inductive Size where
  | byte | half | word
deriving DecidableEq, Repr

def Size.bytes : Size → Nat
  | .byte => 1 | .half => 2 | .word => 4

/-- The six power states and their codes (R351). -/
inductive PState where
  | runNormal | runHigh | idle | sleep | deep | off | watch
deriving DecidableEq, Repr

/-- The lifecycle states of R423. -/
inductive Lifecycle where
  | blank | provisioned | sealed | unsealed | retired
deriving DecidableEq, Repr

/-- FUSE.LIFECYCLE.STATE codes. -/
def Lifecycle.code : Lifecycle → Nat
  | .blank => 0 | .provisioned => 1 | .sealed => 2 | .unsealed => 3 | .retired => 4

/-- The two cores. -/
inductive CoreId where
  | lc | ac
deriving DecidableEq, Repr

/-- How the DPM ports meet on a word (R199): the access on the other port, and whether this port is the later one. -/
structure PortClash where
  word : Nat
  otherWrites : Bool
  selfLater : Bool
deriving DecidableEq, Repr

/-- R199, R200: how port B meets a port A access of the HSPI DMA: whether a retry or wait is served in time, and whether in
the clock in which RETRY_MAX expires. -/
structure DmaClash where
  clash : PortClash
  served : Bool
  atLimit : Bool
deriving DecidableEq, Repr

/-- The time before a command: modulator clocks that pass, and the die temperature that the metrology front end measures at
an angle 0x0000 among them, in 0.1 °C (R153). -/
structure Elapse where
  clks : Nat
  dieT : Int
deriving DecidableEq, Repr

/-- What a metrology channel takes in between two ticks whose words are emitted (R139, R142, R145): the decimated values of
its differential input, in nV, oldest first; `fir`: by how much the interpolation by the response that FILT selects differs
from a straight line between two values of the stream, in LSB (the manual states no coefficients). -/
structure AdcIn where
  x : List Int
  fir : Int
deriving DecidableEq, Repr

/-- A word that a requester writes (to a register the command names). -/
structure WordWrite where
  req : Requester
  data : Word
deriving DecidableEq, Repr

/-- Why a reference is lost (R42): its span has run out, or its RMS is too low at the end of a cycle. -/
inductive LossCause where
  | span | rms
deriving DecidableEq, Repr

/-- What an RTD conversion measures (R125, R127): the wires that were open (bit 0 X, 1 S, 2 C), and the loop and lead
resistances in mΩ. -/
structure RtdMeas where
  openWires : BitVec 3
  rLoop : Nat
  rLead : Nat
deriving DecidableEq, Repr

/-- What a lamp's on-pulse shows (R329). -/
structure LampMeas where
  reached : Bool
  volt : Nat
deriving DecidableEq, Repr

/-- The registers that TARIFF_CTRL_WRITE writes (R274). -/
inductive TariffReg where
  | ctrl | ovr
deriving DecidableEq, Repr

/-- A vote written by a requester (R348). -/
structure VoteWrite where
  req : Requester
  dom : Dom
  slots : BitVec 16
deriving DecidableEq, Repr

/-- What arrives in the SYS clock in which a drop is decided (R356): a vote, wake sources (bit c − 1: code c), a request for
a RUN point or another state, or the vote that hardware casts for work of MULE or of a port that begins then (slots 3, 4). -/
inductive Arrival where
  | vote (v : VoteWrite)
  | wake (srcs : BitVec 8)
  | request (r : Requester) (state : PState)
  | mule | port
deriving DecidableEq, Repr

/-- The items of a power-up (R361); the release of SYS samples the BOOT_HOST and LGL_UNSEAL balls (R423), the start of MET
measures its die temperature, in 0.1 °C (R153). -/
inductive PowerItem where
  | buck | hfxo | pllS | pllM
  | sys (bootHost lglUnseal : Bool)
  | met (dieT : Int)
  | dom (d : Dom)
deriving DecidableEq, Repr

/-- Which part of a transaction a command carries: whether it starts there, whether it ends there (R384); other commands
may come between its parts. -/
structure TxPart where
  start : Bool
  last : Bool
deriving DecidableEq, Repr

/-- What an HSPI frame carries beside its data (R382–R388). -/
structure HspiFrame where
  addr : Nat
  mode : Fin 4
  clash : Option PortClash
  part : TxPart
deriving DecidableEq, Repr

end Sys2Proof.Machine
end

