-- ==== Sys2Proof/Syntax.lean ====
section
/-! DEFINITION. The commands of the block: one constructor for each row of the opcode table, with its operands.
A requester operand says for whom a bus access is made; the other operands carry what reaches the device from outside
(sensor values, times, what meets in one clock). -/

namespace Sys2Proof

open Machine

/-- The commands, in the order of the opcode table. -/
inductive Instr where
  /-- R12. A write to a register that has no row of its own is performed or refused according to its field types, the page owner, the lifecycle and any lock; `r` writes `data` at bus address `addr` with an access of `size`; `hw`: the W1C bits of the register that hardware sets in the same clock (R13). -/
  | registerWrite (r : Requester) (addr : Nat) (data : Word) (size : Size) (hw : Word)
  /-- R16. A read of the low word of a 64-bit pair captures the high word into the reading requester's capture register; `r` reads the low word at `addr`. -/
  | read64Low (r : Requester) (addr : Nat)
  /-- R31. A write of 1 to PG_LOCK.LOCK makes every RW block field of the page read-only until the next reset of its domain. -/
  | pgLockSet (r : Requester) (page : Page)
  /-- R30. A write to EVT_EN takes effect, and forwards at once any event that is already pending and newly enabled. -/
  | evtEnWrite (r : Requester) (page : Page) (en : Word)
  /-- R433. A write of FLOG_CLR.CLR clears every fault-log entry, FLOG_WR and FLOG_CNT. -/
  | flogClr (r : Requester)
  /-- R232. The legal core executes one instruction, including its loads, stores and exceptions; `clash`: what port B does to the DPM word the instruction accesses. -/
  | lcInstruction (clash : Option PortClash)
  /-- R418. The application core executes one instruction, including PMP checks, atomics and exceptions. -/
  | acInstruction (clash : Option PortClash)
  /-- R34. The MAE angle reaches k × 256, and sample tick k of the cycle is emitted. -/
  | sampleTick (k : Fin 256)
  /-- R32. A carry out of the angle increments the cycle count, and the actions due at angle 0x0000 are taken; `dieT`: the die temperature measured, in 0.1 °C. -/
  | cycleStart (dieT : Int)
  /-- R37. A detector reports a positive-going crossing of a reference; the crossing is accepted or refused, and FREQ, validity and phase are updated; it is reported at the end of `t` and lay `late` clocks before. -/
  | zeroCrossing (ref : Fin 3) (t : Elapse) (late : Fin 5)
  /-- R42. The span for a crossing expires, or the reference RMS falls too low, and the reference is lost. -/
  | refLost (ref : Fin 3) (t : Elapse) (why : LossCause)
  /-- R43. COAST_LEFT reaches 0, and the MAE enters SYNTH and raises SYNTH. -/
  | coastExpired (dieT : Int)
  /-- R56. A write of 1 to CAP_ANG_n.FULL re-arms the capture unit; `edgeNow`: the selected event rises in the same clock. -/
  | capRearm (r : Requester) (n : Fin 4) (edgeNow : Bool)
  /-- R55. A read of MAE.NOW returns the angle and the low cycle bits, and captures the full cycle count for the reading requester. -/
  | nowRead (r : Requester) (t : Elapse)
  /-- R62. A write to the HERD task RAM changes a descriptor and may arm, refuse or disarm the task; `off`: byte offset in the task RAM. -/
  | taskDescriptorWrite (r : Requester) (off : Nat) (data : Word) (size : Size)
  /-- R69. After each sample tick HERD gathers, ranks and offers waiting tasks and dispatches up to four. -/
  | herdEvaluation
  /-- R70. A task still waiting when waited equals DEFER_MAX is reported MISSED with cause DEFER. -/
  | deferMaxExpiry (task : Fin 1024)
  /-- R79. After a splice HERD holds an extra evaluation in which tasks jumped over fall due flagged LATE. -/
  | spliceEvaluation
  /-- R80. Clearing HERD CTRL.EN stops evaluations and reports every waiting task MISSED with cause HALT. -/
  | herdDisable (r : Requester)
  /-- R80. Setting HERD CTRL.EN restarts evaluations and advances overdue tasks, counting SKIP_CNT. -/
  | herdEnable (r : Requester)
  /-- R67. A write of PART.LGL_BLOCKS disarms every task whose partition changes and raises DESC_ERR once. -/
  | partWrite (r : Requester) (blocks : BitVec 6)
  /-- R74. A write of CNT_CLR.CLR clears the HERD counters. -/
  | herdCntClr (r : Requester)
  /-- R453. A write to USR_RAISE raises the named USR events for one SYS clock. -/
  | usrRaise (r : Requester) (mask : BitVec 16)
  /-- R86. A shot's fire edge arrives, and the burst is driven with drive-current monitoring; `t`: the time before; `ipk`: the peak driver current of the burst, in mA; `past`: the coarse clock of the burst in which it passes SHORT_THR, where it does. -/
  | shotFire (t : Elapse) (ipk : Byte) (past : Nat)
  /-- R95. The first valid hit within the window stops the TDC and fixes the shot's time of flight; the PGA output passes `mv` mV `t` TDC ticks after the fire edge. -/
  | firstHit (t : Nat) (mv : Int)
  /-- R86. A shot reaches SHOT_END, and its capture and code are fixed and the reset switch closes; the ADC samples from CAP_START on. -/
  | shotEnd (samples : List (BitVec 12))
  /-- R107. After correlation the pair's result block is written, PAIR_DONE is raised and FLOW receives the result; `wrote`: a write of the path's PATH_GAIN in the clock of the gain's step (R94). -/
  | pairResult (t : Elapse) (wrote : Option WordWrite)
  /-- R109. A write of MAN_FIRE.GO starts a manual pair, or is discarded with MAN_REJ; `herdNow`: HERD offers a pair in the same clock. -/
  | manFire (r : Requester) (path : Fin 4) (set : Fin 16) (herdNow : Bool)
  /-- R108. A read of RES_STAT_n copies that path's result block into the requester's shadow. -/
  | resStatRead (r : Requester) (path : Fin 4)
  /-- R120. STALE_TICKS elapse without an OK result, and the path becomes FLOW_UNKNOWN with cause STALE. -/
  | flowStale (path : Fin 4)
  /-- R122. A leak window ends at angle 0x0000 and compares the supply and return volumes, or is void. -/
  | leakWindowEnd (outlet : Fin 4)
  /-- R124. A write of MAN_CONV.GO starts a conversion, or is discarded with MAN_REJ. -/
  | manConv (r : Requester) (ch : Fin 8) (fast : Bool)
  /-- R127. A discarded conversion ends, and either the real conversion starts or a fault result is written. -/
  | rtdDiscardDone (m : RtdMeas)
  /-- R127. A conversion completes and writes its temperature and code. -/
  | rtdConvDone (m : RtdMeas)
  /-- R124. A write to a channel's configuration stops its conversion in progress with code ABORT. -/
  | rtdCfgWrite (r : Requester) (ch : Fin 8) (data : Word)
  /-- R129. A change in the validity of an input triggers a fault evaluation within 2 µs. -/
  | thermFaultEval (outlet : Fin 4)
  /-- R146. 531.25 µs after a tick, the corrected sample words of all enabled channels are emitted; what the sixteen channels have taken in since the words before, and the overload flags of their modulators. -/
  | sampleWordsEmit (v : Vector AdcIn 16) (ovl : BitVec 16)
  /-- R143. RUP_CYC qualifying low-range cycles end, and the channel returns to the high range. -/
  | rangeUp (ch : Fin 16)
  /-- R150. A write to CH_CFG_n is performed or refused with CFG_ERR and takes effect at the next tick. -/
  | chCfgWrite (r : Requester) (ch : Fin 16) (data : Word)
  /-- R157. A pulse input changes level, and its debounce starts. -/
  | cntInChange (n : Fin 4) (level : Bool)
  /-- R157. A debounced level change matching EDGE increments CNT_n and records its time; `wrote`: a write of CNT_n in the same clock. -/
  | cntCount (n : Fin 4) (wrote : Option WordWrite)
  /-- R160. A cycle closes, and its quantities and energy updates are published together. -/
  | cyclePublish
  /-- R161. A read of MET_QTY.QSTAT copies the per-cycle registers into the requester's shadow. -/
  | qstatRead (r : Requester)
  /-- R175. A pulse's active time w ends, and its gap begins. -/
  | pulseActiveEnd (m : Fin 2)
  /-- R175. A pulse gap ends, and a queued request starts the next pulse. -/
  | pulseGapEnd (m : Fin 2)
  /-- R180. A write to BANK_OWN_n hands the bank to a group or is refused with OWN_REFUSED. -/
  | bankHandover (r : Requester) (bank : Fin 20) (owner : Fin 8)
  /-- R181. The old owner's granted accesses have drained, IN_TRANSIT clears and HANDOVER_DONE is raised. -/
  | handoverDone (bank : Fin 16)
  /-- R188. A granted read of an SRAM word is checked by ECC and returns data, a correction or a bus error; the array returns the word at `row`, in which `flips` have turned over. -/
  | memoryRead (r : Requester) (bank : Fin 23) (word : Nat) (row : Nat) (flips : Codeword)
  /-- R186. A granted full-word write stores a new codeword. -/
  | memoryWrite (r : Requester) (bank : Fin 23) (word : Nat) (data : Word)
  /-- R191. A byte or halfword write is performed as a read-modify-write, or fails with RMW_FAIL; a halfword or a byte from byte `lane` of the word on. -/
  | memoryPartialWrite (r : Requester) (bank : Fin 23) (word : Nat) (lane : Fin 4) (half : Bool) (data : Word)
  /-- R195. A write of MEMCTL.CLEAR.GO starts the clear of banks 0 to 21. -/
  | memoryClearStart (r : Requester)
  /-- R195. The 512 µs clear ends, and CLEAR.DONE is set. -/
  | clearDone
  /-- R192. A write of MEMCTL CNT_CLR.CLR clears the ECC counters and re-arms CE_THR. -/
  | memctlCntClr (r : Requester)
  /-- R200. A collided port A access is retried or released after the port B access ends, or ends in a bus error at RETRY_MAX. -/
  | dpmPortARetry (served : Bool) (atLimit : Bool)
  /-- R199. A write of DPM COLL_CLR.CLR clears COLL_CNT. -/
  | collClr (r : Requester)
  /-- R206. A page-in completes with the context in its frame, or ends with an error cause; `dur`: how long the page-in took, `stall`: how long the LC stalled, in 0.1 µs. -/
  | pageInDone (framOk : Bool) (dur : Nat) (stall : Nat) (atLimit : Bool)
  /-- R209. A page-in not completed within 400 µs ends with cause TIMEOUT; `stall`: how long the LC stalled, in 0.1 µs. -/
  | pageInTimeout (stall : Nat)
  /-- R210. An LC stall reaching 200 µs ends in a bus error and raises STALL_TO. -/
  | stallTo
  /-- R214. A PIN command with OP = PIN pages the account in and pins its frame, or is refused. -/
  | mulePin (r : Requester) (acct : Fin 1024)
  /-- R214. A PIN command with OP = UNPIN clears the frame's PIN. -/
  | muleUnpin (r : Requester) (acct : Fin 1024)
  /-- R219. CMD OP = SAVE_FULL starts an epoch in which every resident frame counts as dirty. -/
  | saveFull (r : Requester)
  /-- R227. CMD OP = FORMAT writes a blank FRAM image and commits epoch 0 where the lifecycle allows it. -/
  | format (r : Requester)
  /-- R213. CMD OP = ADOPT pages in the other trusted copy of an account and marks it dirty. -/
  | adopt (r : Requester) (acct : Fin 1024)
  /-- R219. SAVE_PERIOD cycles pass since the last snapshot, and an epoch starts with BACKSTOP raised. -/
  | backstop
  /-- R220. The save phase finishes, the slot is committed, the next epoch is opened and EPOCH_DONE is raised. -/
  | epochDone (framOk : Bool)
  /-- R411. Setting MULE.CTRL.EN lets MULE serve requests and starts its restore after a power-up. -/
  | muleEnable (r : Requester)
  /-- R225. The restore ends, loading the committed images and the forced set and raising RESTORED, or failing with RESTORE_FAIL. -/
  | restoreDone (framOk : Bool)
  /-- R227. The format completes, and FORMAT_DONE is raised. -/
  | formatDone (framOk : Bool)
  /-- R211. A write of MULE CNT_CLR.CLR clears the MULE counters. -/
  | muleCntClr (r : Requester)
  /-- R234. LFL_CMD OP = PROG copies 256 bytes from L0 to L2 into an LFL page, or is refused. -/
  | lflProg (r : Requester) (page : Fin 1024)
  /-- R234. LFL_CMD OP = ERASE_SECTOR erases one sector, or is refused. -/
  | lflEraseSector (r : Requester) (page : Fin 1024)
  /-- R234. LFL_CMD OP = ERASE_ALL erases every LFL sector, or is refused. -/
  | lflEraseAll (r : Requester)
  /-- R234. An LFL command completes and sets LFL_STAT.RESULT. -/
  | lflDone (ok : Bool)
  /-- R235. A write of DGST_CMD.GO burns the lowest unused digest slot, or is refused. -/
  | digestBurn (r : Requester)
  /-- R239. A write to FWALL.ENA_CTRL drives the outlet enables, subject to the cut and domain conditions. -/
  | enaCtrlWrite (r : Requester) (en : BitVec 4)
  /-- R240. A write of LWDG_KICK.KICK restarts the legal watchdog count. -/
  | lwdgKick (r : Requester) (expiryTick : Bool)
  /-- R240. A write to LWDG_CFG sets TMO, but a 0 is refused once a non-zero value has been written. -/
  | lwdgCfgWrite (r : Requester) (tmo : BitVec 10)
  /-- R240. The legal watchdog expires, clears ENA_CTRL and resets LGL. -/
  | lwdg
  /-- R241. CRYPTO OP 1 starts AES-128 ECB encryption. -/
  | aesEnc (r : Requester) (key : Fin 8)
  /-- R241. CRYPTO OP 2 starts AES-128 ECB decryption. -/
  | aesDec (r : Requester) (key : Fin 8)
  /-- R241. CRYPTO OP 3 starts an AES-CMAC tag computation. -/
  | cmac (r : Requester) (key : Fin 8)
  /-- R241. CRYPTO OP 4 resets the SHA-256 state. -/
  | shaInit (r : Requester)
  /-- R241. CRYPTO OP 5 advances the SHA-256 state. -/
  | shaUpdate (r : Requester)
  /-- R241. CRYPTO OP 6 finishes a SHA-256 digest. -/
  | shaFinal (r : Requester)
  /-- R241. CRYPTO OP 7 starts an ECDSA P-256 signature. -/
  | sign (r : Requester) (key : Fin 8)
  /-- R241. CRYPTO OP 8 starts an ECDSA P-256 verification. -/
  | verify (r : Requester) (key : Fin 8)
  /-- R241. CRYPTO OP 9 advances CRC_ACC over the input bytes. -/
  | crc32 (r : Requester)
  /-- R241. CRYPTO OP 10 unwraps a key into a key slot under the KWK. -/
  | unwrap (r : Requester) (key : Fin 8)
  /-- R241. CRYPTO OP 11 wraps a plaintext key where the lifecycle allows it. -/
  | wrap (r : Requester) (key : Fin 8)
  /-- R241. CRYPTO OP 12 loads the key-wrapping key into AON where allowed. -/
  | kwkLoad (r : Requester)
  /-- R241. CRYPTO OP 13 empties a key slot. -/
  | keyClr (r : Requester) (key : Fin 8)
  /-- R241. CRYPTO OP 0, 14 or 15 ends with RESULT = REFUSED after its fixed time; `op`: 0, 1, 2 stand for OP 0, 14, 15. -/
  | cryptoInvalidOp (r : Requester) (op : Fin 3) (key : Fin 8)
  /-- R242. An operation reaches its fixed time, and DOUT, RESULT and BUSY update in one SYS clock. -/
  | cryptoDone
  /-- R245. A write of REQ_HDR_c.GO sends a mailbox request, which hardware may answer by class and version. -/
  | reqGo (r : Requester) (c : Fin 2) (hdr : Word)
  /-- R245. The LC's write of RSP_HDR_c.RELEASE completes a request, or is held or discarded; `limit`: it falls in the 1 ms tick in which the request's time expires. -/
  | rspRelease (r : Requester) (c : Fin 2) (hdr : Word) (limit : Bool)
  /-- R247. A KEY request is released to its requester at the first 1 ms tick at or after GO + 1,500 ms. -/
  | keyReleaseTick (c : Fin 2)
  /-- R248. A pending request reaches RSP_TMO and ends with STATUS = TIMEOUT. -/
  | timeout (c : Fin 2)
  /-- R249. A write of IFVER_c sets IF_STATE_c and raises IF_CHG on change. -/
  | ifverWrite (r : Requester) (c : Fin 2) (ver : BitVec 16)
  /-- R252. A read of RTC TIME_LO captures TIME_HI and SUBSEC for the requester. -/
  | timeLoRead (r : Requester) (subsec : Nat)
  /-- R253. At an RTC second boundary the calendar advances, commands apply, the alarm is compared and the next second's length is fixed. -/
  | sec (aonT : Int) (vbat : Nat)
  /-- R258. CMD OP = SET schedules a replacement of the calendar at the next boundary, or is refused. -/
  | rtcSet (r : Requester)
  /-- R259. CMD OP = ADJ schedules a slew or a step by ADJ_OFS, or is refused. -/
  | rtcAdj (r : Requester)
  /-- R261. CMD OP = CANCEL ends a slew at the next boundary, or is refused. -/
  | rtcCancel (r : Requester)
  /-- R262. CMD OP = DST_ADD moves the calendar forward one hour at the next boundary. -/
  | dstAdd (r : Requester)
  /-- R262. CMD OP = DST_SUB moves the calendar back one hour at the next boundary. -/
  | dstSub (r : Requester)
  /-- R263. CMD OP = SHIFT_ADV shortens the next second by SHIFT_N periods. -/
  | shiftAdv (r : Requester)
  /-- R263. CMD OP = SHIFT_RET lengthens the next second by SHIFT_N periods. -/
  | shiftRet (r : Requester)
  /-- R265. A write of 1 to STATUS.VBATLOW clears it only if the last measurement was clearly above the threshold. -/
  | vbatlowClear (r : Requester)
  /-- R266. No LFXO edge for 4 ms switches the RTC to the RC oscillator and sets LFXO_FAIL and TIME_LOST. -/
  | lfxoFail (rcPeriods : Nat)
  /-- R266. After the LFXO has run for 1 s, the RTC returns to it at the next boundary. -/
  | lfxoReturn
  /-- R275. A write of TBL_CMD.COMMIT validates the pending tables, or refuses them with TBL_ERR. -/
  | tblCmdCommit (r : Requester)
  /-- R274. A write to TARIFF CTRL or OVR re-evaluates the tariffs within 2 SYS clocks. -/
  | tariffCtrlWrite (r : Requester) (reg : TariffReg) (data : Word)
  /-- R277. SESS_CMD OP = OPEN allocates a session, captures the start values and queues START, or is refused. -/
  | sessOpen (r : Requester) (k : Fin 4) (acct : Fin 1024) (tenant : Bool) (host : Bool)
  /-- R277. SESS_CMD OP = CLOSE adds the session energy to the context and queues END, or is refused. -/
  | sessClose (r : Requester) (k : Fin 4)
  /-- R277. SESS_CMD OP = SETTLE adds an interrupted session's energy to the context. -/
  | sessSettle (r : Requester) (k : Fin 4)
  /-- R284. A write of REC_CMD.COMMIT passes the signed head record to MULE for the ring. -/
  | recCommit (r : Requester)
  /-- R284. The ring write of a record succeeds or fails; on success REC_WR advances and the session state moves. -/
  | recDone (framOk : Bool)
  /-- R286. A write of REC_RD_GO starts reading a record from the ring. -/
  | recRdGo (r : Requester)
  /-- R286. A ring read completes with the record or a NOT_HELD, CRC or FRAM result. -/
  | recRdDone (framOk : Bool)
  /-- R297. The legal firmware writes VERDICT for a held entry. -/
  | verdict (r : Requester) (v : Word) (tickNow : Bool)
  /-- R297. 1.5 s after the final key, PREPAY decides the entry, applies it and shows the result. -/
  | entryRelease
  /-- R295. An entry with no key for 30 s is abandoned without a result. -/
  | entryAbandon
  /-- R311. The 900 s keypad lock expires. -/
  | keypadLockEnd
  /-- R310. A write of LOGIN_SET.SET creates a HOST login. -/
  | loginSet (r : Requester) (acct : Fin 1024)
  /-- R310. A write of LOGIN_SET.CLR ends any login. -/
  | loginClr (r : Requester)
  /-- R309. A login reaches LOGIN_TMO and stops being valid. -/
  | loginTimeout
  /-- R324. A debounced key press is accepted and routed to PREPAY, the scroll and the key FIFO. -/
  | keyAccepted (code : Fin 16) (multi : Bool)
  /-- R326. A key held for 30 s raises STUCK and is ignored until released. -/
  | stuck (code : Fin 16)
  /-- R327. A legal-side read of KEY_FIFO pops the entry returned. -/
  | keyFifoRead (r : Requester)
  /-- R319. The dwell of a display item expires, and the next item of the re-evaluated sequence is shown. -/
  | scrollStep
  /-- R321. Once a second the shown item's value is read again. -/
  | itemRefresh
  /-- R323. RES_DWELL expires, and the scroll resumes. -/
  | resultShownEnd
  /-- R329. A lamp's next on-pulse is judged, and its run and latched state are updated; `since`: ms since this lamp's last stretched pulse. -/
  | lampDiagResult (n : Fin 6) (m : LampMeas) (since : Nat)
  /-- R330. A write of LMP_STAT_n.CLR clears the lamp's latch and run. -/
  | lampClr (r : Requester) (n : Fin 6)
  /-- R336. A tamper source enters its active state, and is recorded and acts by its class; the sources that enter their active states in one LFXO period. -/
  | ganderOccurrence (srcs : BitVec 14) (high : BitVec 7)
  /-- R332. A tamper source leaves its active state. -/
  | sourceRelease (src : Fin 14) (high : Bool)
  /-- R333. GANDER reads the AON temperature sensor and updates its runs; in 0.1 °C. -/
  | dieTempReading (t : Int)
  /-- R332. Each millisecond GANDER compares MESH_RX with the bit driven on MESH_TX. -/
  | meshCheck (matched : Bool)
  /-- R339. A write of CLR.GO clears the tamper records, in BLANK or PROVISIONED only. -/
  | ganderClr (r : Requester)
  /-- R348. A write to VOTE_SET_d sets the permitted vote slots, which may power a domain or abort a drop. -/
  | voteSet (r : Requester) (d : Dom) (slots : BitVec 16)
  /-- R348. A write to VOTE_CLR_d clears the permitted vote slots, which may start a drop. -/
  | voteClr (r : Requester) (d : Dom) (slots : BitVec 16)
  /-- R352. PWR CMD requests RUN_NORMAL. -/
  | cmdRunNormal (r : Requester)
  /-- R352. PWR CMD requests RUN_HIGH. -/
  | cmdRunHigh (r : Requester)
  /-- R352. PWR CMD requests IDLE. -/
  | cmdIdle (r : Requester)
  /-- R352. PWR CMD requests SLEEP, or the request is refused with CMD_REJ. -/
  | cmdSleep (r : Requester)
  /-- R352. PWR CMD requests DEEP, or the request is refused with CMD_REJ. -/
  | cmdDeep (r : Requester)
  /-- R352. PWR CMD requests OFF. -/
  | cmdOff (r : Requester)
  /-- R375. PWR CMD requests WATCH, which is entered as DEEP. -/
  | cmdWatch (r : Requester)
  /-- R356. The sequencer begins dropping an unneeded domain with its quiesce. -/
  | domainDropStart
  /-- R356. The save ends, and the sequencer decides whether isolation begins or the drop is aborted; `arrival`: a vote written in the decision clock. -/
  | dropDecision (arrival : Option Arrival)
  /-- R356. A drop completes its switch-off, raises DOM_DOWN and may rewake the domain at once. -/
  | domainOff
  /-- R361. A fixed power-up delay elapses, and the next item or domain release follows, with save-set restore. -/
  | powerUpItemDone (item : PowerItem)
  /-- R363. A RUN_NORMAL and RUN_HIGH change of body bias completes, and CLK_SW is raised. -/
  | biasChangeDone
  /-- R364. VDD_SENSE below 1.200 V for 2 µs sets PFW and clamps the outlet-facing balls. -/
  | pfw
  /-- R364. VDD_SENSE at or above 1.230 V for 1 ms clears PFW. -/
  | pfwClr
  /-- R364. A legal-side write of 1 to PFW_LATCH releases the clamps once PFW is 0. -/
  | pfwLatchClear (r : Requester)
  /-- R365. VDD below 2.80 V for 10 µs isolates and switches off every domain except AON. -/
  | brownOut
  /-- R365. VDD falls below 2.70 V, and AON moves to VBAT; the battery voltage in mV. -/
  | vbatSwitch (vbat : Nat)
  /-- R365. VDD stays at or above 2.90 V for 1 ms, and AON returns to VDD with a possible SUPPLY wake. -/
  | vddReturn
  /-- R369. A debounced level change on the WAKE ball starts or ends its wake request. -/
  | wakePinAccept (level : Bool)
  /-- R371. While PER is off the AON comparator matches the I2CT address and ACKs with a stretch, or NACKs, and requests a wake. -/
  | i2cAddressMatch (addr : BitVec 7)
  /-- R374. A wake stretch reaches 2.0 ms without I2CT running, and SCL is released; `running`: I2CT reports itself running in the period of expiry. -/
  | i2cTo (running : Bool) (periods : Nat)
  /-- R375. A WATCH period elapses, and a check starts or is skipped. -/
  | watchCheckStart
  /-- R379. With the pair and any conversion done, WATCH judges the check and drops back or escalates. -/
  | watchJudge
  /-- R376. A write of WATCH CTRL.CAPTURE captures the check image when UFA and UFD are on. -/
  | watchCapture (r : Requester)
  /-- R386. An HSPI frame with command 0x02 writes words from the host at successive addresses. -/
  | hspiWrite (f : HspiFrame) (words : List Word) (tailBits : Fin 32)
  /-- R386. An HSPI frame with command 0x03 reads words to the host, each against its deadline; `n` words are clocked out, and `tailBits` of one more; `late`: the word that missed its deadline; `limit`: a word arrived in its deadline clock. -/
  | hspiRead (f : HspiFrame) (n : Nat) (late : Option Nat) (limit : Bool) (tailBits : Fin 32)
  /-- R386. An HSPI frame with an unlisted command byte performs nothing and ends BADCMD. -/
  | hspiBadcmd (cmd : Byte) (mode : Fin 4)
  /-- R394. An I2C transaction sets the host pointer from three address bytes. -/
  | i2cSetPointer (addr : Nat) (part : TxPart)
  /-- R394. An I2C transaction writes words at the pointer, stretching on each word; `tail`: bytes of a word cut short by the STOP. -/
  | i2cWrite (addr : Nat) (words : List Word) (tail : Fin 4) (clash : Option PortClash) (part : TxPart)
  /-- R394. An I2C transaction reads words from the pointer, stretching before each word; `n` words, and `tail` bytes of one more; `limit`: a word was ready in the clock of expiry. -/
  | i2cRead (n : Nat) (tail : Fin 4) (clash : Option PortClash) (limit : Bool) (part : TxPart)
  /-- R395. A read stretch reaches STRETCH_MAX, and the word is NOTREADY. -/
  | i2cReadStretchTimeout
  /-- R392. A write of DMA_CTRL.GO starts the HSPI DMA copy between the DPM and an S bank. -/
  | hspiDmaGo (r : Requester) (toBank : Bool)
  /-- R392. The HSPI DMA completes or stops on a refused access; `clash`: what port B does to a DPM word that it copies (R199). -/
  | hspiDmaDone (clash : Option DmaClash)
  /-- R399. An MSPI transfer with its status check completes, or fails with SR. -/
  | mspiTransferDone (status : Byte) (atLimit : Bool)
  /-- R400. A transfer not complete after XFER_TMO ends with RESULT = TIMEOUT. -/
  | mspiTimeout
  /-- R401. A write of DIR_CTRL.GO starts a direct single-line transfer, or is refused while MULE runs. -/
  | mspiDirectGo (r : Requester) (ctrl : Word)
  /-- R401. A direct transfer completes and raises DIR_DONE. -/
  | dirDone (rx : List Byte)
  /-- R398. A change of the MSPI settings or state recomputes T_X and TX_OK and may raise TX_SLOW. -/
  | mspiCfgWrite (r : Requester) (data : Word)
  /-- R402. A byte is received, checked and placed in the RX FIFO or DMA ring. -/
  | uartRxByte (b : Byte) (fe : Bool) (pe : Bool)
  /-- R402. The UART finishes sending a byte and takes the next from the FIFO or DMA. -/
  | uartTxByteDone
  /-- R402. A write of UART DATA pushes a byte into the TX FIFO. -/
  | uartDataWrite (r : Requester) (b : Byte)
  /-- R402. A read of UART DATA pops a byte from the RX FIFO. -/
  | uartDataRead (r : Requester)
  /-- R403. Enabling a UART DMA engine starts its ring reception or its transmission of LEN bytes. -/
  | uartDmaStart (r : Requester) (x : Fin 2) (cfg : Word)
  /-- R406. A JTAG instruction is loaded and selects its register or BYPASS by the lifecycle. -/
  | jtagInstruction (ir : BitVec 5)
  /-- R405. A Debug Module halts its core. -/
  | debugHalt (core : CoreId)
  /-- R405. A Debug Module resumes its core. -/
  | debugResume (core : CoreId)
  /-- R405. A Debug Module single-steps its core by dcsr.step. -/
  | debugStep (core : CoreId)
  /-- R405. The Access Register abstract command reads or writes a GPR or CSR of a halted core. -/
  | accessRegister (core : CoreId) (regno : BitVec 16) (write : Option Word)
  /-- R405. The program buffer executes on the halted core under its requester rules. -/
  | progbufExec (core : CoreId) (w0 : Word) (w1 : Word)
  /-- R405. ndmreset resets APP for the AC or LGL for the LC. -/
  | ndmreset (core : CoreId)
  /-- R406. An AC write of DBG_STAT.AC_LOCK disables AC debug until SYS resets. -/
  | acLock (r : Requester)
  /-- R407. VDD returns after VDD and VBAT were both absent, an AON reset that resets everything. -/
  | por
  /-- R407. RST_N held low for 1 µs or more resets all but AON for a cold start. -/
  | rstN
  /-- R407. A legal-side write of SWRST.GO with the key resets all but AON for a cold start. -/
  | swrst (r : Requester) (key : BitVec 16)
  /-- R408. VDD is qualified for 1 ms, and a cold start begins with PWR raising SYS, MET, LGL and PER. -/
  | coldStart
  /-- R417. The APP_BOOT service optionally runs the loader, checks the application image and starts the AC. -/
  | appBoot
  /-- R414. The SEAL_STORE service writes the RWU fields in force as a new seal block; `ok`: it reads back as written. -/
  | sealStore (ok : Bool)
  /-- R421. The LOADER service serves host loader commands through the DPM; `badOp`: the SEQ of a command with an unlisted OP that the running service meets; none: the service is called. -/
  | loader (badOp : Option Byte)
  /-- R421. Loader OP PROG erases and programs a 4 KiB block of AFL or LFL; `clash`: what port B does to a word that it reads (R199). -/
  | loaderProg (sector : BitVec 9) (lfl : Bool) (seq : Byte) (ok : Bool) (atLimit : Bool) (clash : Option PortClash)
  /-- R421. Loader OP CHECK computes SHA-256 and CHK over LFL. -/
  | loaderCheck (seq : Byte) (atLimit : Bool)
  /-- R421. Loader OP BURN burns the next digest slot. -/
  | loaderBurn (seq : Byte) (ok : Bool) (atLimit : Bool)
  /-- R421. Loader OP DONE ends the loader, resetting LGL if LFL was programmed. -/
  | loaderDone (seq : Byte) (atLimit : Bool)
  /-- R422. No loader command within 10 s or 60 s ends the loader as if DONE. -/
  | loaderTimeout
  /-- R419. A legal-side write of AC_CTRL.HOLD holds the AC in reset and clears RUN. -/
  | acHold (r : Requester)
  /-- R419. An AC write of AC_CTRL.RESTART raises RESTART_REQ. -/
  | acRestart (r : Requester)
  /-- R420. AFL_CMD OP PROG programs 256 bytes of AFL from the DPM; `clash`: what port B does to a word that it reads (R199). -/
  | aflProg (r : Requester) (page : BitVec 13) (clash : Option PortClash)
  /-- R420. AFL_CMD OP ERASE_SECTOR erases a 4 KiB AFL sector. -/
  | aflEraseSector (r : Requester) (page : BitVec 13)
  /-- R420. An AFL command completes and raises AFL_DONE. -/
  | aflDone (ok : Bool)
  /-- R424. PROG_CMD target DEV_ID burns the device identity where allowed. -/
  | progDevId (r : Requester)
  /-- R424. PROG_CMD target CUST_KEY_HASH burns the customer key hash where allowed. -/
  | progCustKeyHash (r : Requester)
  /-- R424. PROG_CMD target PROVISION moves BLANK to PROVISIONED at the next reset. -/
  | provision (r : Requester)
  /-- R424. PROG_CMD target SEAL moves the device to SEALED at the next reset where allowed. -/
  | sealDevice (r : Requester)
  /-- R425. PROG_CMD target RETIRE retires the device, destroying the keys and clearing ENA_CTRL. -/
  | retire (r : Requester)
  /-- R347. WAKE_HOLD ms after RUN is reached following a wake, ROOSTER's vote slot 5 is cleared on the wake domains, which may start their drop. -/
  | wakeHoldEnd
  /-- R362. The frequency monitor finds a locked PLL more than 1 % from its nominal frequency and raises CLK UNLOCK; `medium`: PLL_M, else PLL_S. -/
  | unlock (medium : Bool)
  /-- R324. A key release is accepted after DEB identical scans, updating KEY_STAT and ending MULTI blocking or a STUCK key's exclusion. -/
  | keyReleased (code : Fin 16)
  /-- R235. The OTP burn of a digest slot completes, clearing DGST_STAT.BUSY and setting USED, ACTIVE and RESULT. -/
  | digestBurnDone
  /-- R424. A FUSE PROG_CMD burn completes at 2 ms per word, clearing PROG_STAT.BUSY, setting RESULT or PROG_FAIL and PENDING. -/
  | otpProgDone (ok : Bool)
  /-- R220. The indivisible epoch snapshot of up to 53 µs completes, held LC window accesses proceed and the save phase begins; `stall`: how long the LC stalled, in 0.1 µs. -/
  | snapshotDone (stall : Nat)
  /-- R98. With EXT_START, the first rising edge on UFE_XSTART after the fire edge starts the TDC and is timed against the coarse counter; `t` TDC ticks after the fire edge. -/
  | ufeXstartEdge (t : Nat)
deriving DecidableEq, Repr

end Sys2Proof
end

