-- ==== Sys2Proof/Decode.lean ====
section
/-! DEFINITION. The opcode table gives none of its rows a bit pattern (a command is an event, not a word), so no word
spells a command. -/

namespace Sys2Proof

/-- The command a table word spells: none, for the table numbers no bits. -/
def decodeTableWord (_nbits _w : Nat) : Option Instr := none

end Sys2Proof
end

