-- ==== Sys2Proof/Config.lean ====
section
/-! DEFINITION. What an implementation fixes and the manual leaves open: opaque constants without a body, so that nothing
can be proved of a value of theirs. -/

namespace Sys2Proof

/-- A value the manual leaves undefined; the argument is the state's own counter of such values. -/
opaque Config.free : Nat → Word

/-- What loss number `gen` left in word `word` of SRAM bank `bank` (R194, R359). -/
opaque Config.sramLost (gen bank word : Nat) : Codeword

/-- The words of the boot ROM, by word index (R23); the manual gives none of its code. -/
opaque Config.bootRom (word : Nat) : Word

end Sys2Proof
end

