-- ==== Sys2Proof/Machine/SMap.lean ====
section
/-! DEFINITION. Sparse maps: a list of key and value pairs in one canonical form, keys strictly rising and no entry
equal to what an unlisted key reads as.  Every memory and the register file are held so. -/

namespace Sys2Proof

/-- A sparse map from addresses to values. -/
abbrev SMap (α : Type) := List (Nat × α)

/-- The value at `k`; `dflt k` where nothing is listed. -/
def SMap.get {α : Type} (dflt : Nat → α) (m : SMap α) (k : Nat) : α :=
  match m with
  | [] => dflt k
  | (a, v) :: t => if a = k then v else SMap.get dflt t k

/-- `m` without the entry for `k`. -/
def SMap.erase {α : Type} (m : SMap α) (k : Nat) : SMap α := m.filter fun p => p.1 != k

/-- `m` with the pair `(k, v)` put before the first greater key. -/
def SMap.insert {α : Type} (m : SMap α) (k : Nat) (v : α) : SMap α :=
  match m with
  | [] => [(k, v)]
  | (a, w) :: t => if k < a then (k, v) :: (a, w) :: t else (a, w) :: SMap.insert t k v

/-- `m` with `v` at `k`; writing what an unlisted key reads as removes the entry. -/
def SMap.set {α : Type} [DecidableEq α] (dflt : Nat → α) (m : SMap α) (k : Nat) (v : α) : SMap α :=
  if v = dflt k then m.erase k else (m.erase k).insert k v

/-- `m` with every key from `lo` to `hi` (not included) back at what an unlisted key reads as. -/
def SMap.clear {α : Type} (m : SMap α) (lo hi : Nat) : SMap α := m.filter fun p => p.1 < lo || hi ≤ p.1

/-- Every listed value changed by `f`, entries that come to the unlisted value removed. -/
def SMap.update {α : Type} [DecidableEq α] (dflt : Nat → α) (f : Nat → α → α) (m : SMap α) : SMap α :=
  m.filterMap fun p => if f p.1 p.2 = dflt p.1 then none else some (p.1, f p.1 p.2)

/-- `m` with the list of values `vs` stored at `k`, `k + 1`, …. -/
def SMap.setMany {α : Type} [DecidableEq α] (dflt : Nat → α) (m : SMap α) (k : Nat) : List α → SMap α
  | [] => m
  | v :: vs => SMap.setMany dflt (m.set dflt k v) (k + 1) vs

/-- The `n` values at `k`, `k + 1`, …. -/
def SMap.getMany {α : Type} (dflt : Nat → α) (m : SMap α) (k : Nat) : Nat → List α
  | 0 => []
  | n + 1 => m.get dflt k :: SMap.getMany dflt m (k + 1) n

/-- Keys strictly rising from `lo` on, and no entry equal to the unlisted value. -/
def SMap.wfFrom {α : Type} [DecidableEq α] (dflt : Nat → α) (lo : Nat) : SMap α → Bool
  | [] => true
  | (a, v) :: t => lo ≤ a && v != dflt a && SMap.wfFrom dflt (a + 1) t

/-- The canonical form of a sparse map. -/
def SMap.wf {α : Type} [DecidableEq α] (dflt : Nat → α) (m : SMap α) : Bool := SMap.wfFrom dflt 0 m

end Sys2Proof
end

