-- ==== Sys2Proof/Machine/Bits.lean ====
section
/-! DEFINITION. Bit fields, sign, byte order, rounding (R452), roots, BCD and saturation: the plain arithmetic that the
rules use. -/

namespace Sys2Proof.Machine

/-- Bits `lo + w - 1 : lo` of `x` as a number. -/
def bits (x lo w : Nat) : Nat := x / 2 ^ lo % 2 ^ w

/-- Bit `k` of `x`. -/
def bit (x k : Nat) : Bool := x / 2 ^ k % 2 == 1

/-- `x` with bits `lo + w - 1 : lo` replaced by the low `w` bits of `v`. -/
def setBits (x lo w v : Nat) : Nat := x - bits x lo w * 2 ^ lo + v % 2 ^ w * 2 ^ lo

def b2n (b : Bool) : Nat := if b then 1 else 0

/-- The number with exactly the bits of `ks` set. -/
def maskOf (ks : List Nat) : Nat := ks.foldl (fun m k => m ||| 2 ^ k) 0

/-- The two's complement number that the low `w` bits of `x` stand for. -/
def sgn (w x : Nat) : Int := if 2 * (x % 2 ^ w) < 2 ^ w then (x % 2 ^ w : Int) else (x % 2 ^ w : Int) - 2 ^ w

/-- The `w`-bit two's complement pattern of `i` (wrapping). -/
def unsgn (w : Nat) (i : Int) : Nat := (i % (2 ^ w : Int)).toNat

/-- `i` held within `lo` and `hi`. -/
def clamp (lo hi i : Int) : Int := if i < lo then lo else if hi < i then hi else i

/-- `i` saturated to a signed field of `w` bits, as its pattern. -/
def satS (w : Nat) (i : Int) : Nat := unsgn w (clamp (-(2 ^ (w - 1))) (2 ^ (w - 1) - 1) i)

/-- `i` saturated to an unsigned field of `w` bits. -/
def satU (w : Nat) (i : Int) : Nat := (clamp 0 (2 ^ w - 1) i).toNat

/-- A counter of `w` bits that saturates (adds one). -/
def satInc (w n : Nat) : Nat := if n + 1 < 2 ^ w then n + 1 else 2 ^ w - 1

/-- R452: `a / b` to the nearest integer, halves away from zero (`b > 0`). -/
def roundDiv (a b : Int) : Int := if a < 0 then -((2 * (-a) + b) / (2 * b)) else (2 * a + b) / (2 * b)

/-- R452 for numbers that are not negative. -/
def roundDivN (a b : Nat) : Nat := (2 * a + b) / (2 * b)

/-- `a / b` truncated towards zero. -/
def truncDiv (a b : Int) : Int := a.tdiv b

/-- `a / b` rounded up. -/
def ceilDiv (a b : Nat) : Nat := (a + b - 1) / b

/-- Binary digits of the root, `fuel` of them, from the top down. -/
def isqrtGo (n : Nat) : Nat → Nat → Nat
  | 0, r => r
  | f + 1, r => let c := r + 2 ^ f; isqrtGo n f (if c * c ≤ n then c else r)

/-- The greatest `r < 2^128` with `r * r ≤ n`. -/
def isqrt (n : Nat) : Nat := isqrtGo n 128 0

/-- The root of `p / q` rounded to the nearest integer. -/
def roundSqrt (p q : Nat) : Nat := (isqrt (4 * p / q) + 1) / 2

/-- R17: the number that little-endian bytes spell. -/
def leNat : List Byte → Nat
  | [] => 0
  | b :: bs => b.toNat + 256 * leNat bs

/-- The number that big-endian bytes spell. -/
def beNat (bs : List Byte) : Nat := bs.foldl (fun n b => 256 * n + b.toNat) 0

/-- R17: the `n` low bytes of `x`, least significant first. -/
def leBytes : Nat → Nat → List Byte
  | 0, _ => []
  | n + 1, x => BitVec.ofNat 8 x :: leBytes n (x / 256)

/-- The `n` low bytes of `x`, most significant first. -/
def beBytes (n x : Nat) : List Byte := (leBytes n x).reverse

/-- Little-endian 32-bit words of a byte list (a short last word is filled with zeros). -/
def wordsOf : List Byte → List Word
  | b0 :: b1 :: b2 :: b3 :: t => BitVec.ofNat 32 (leNat [b0, b1, b2, b3]) :: wordsOf t
  | [] => []
  | l => [BitVec.ofNat 32 (leNat l)]

/-- The bytes of little-endian words. -/
def bytesOf (ws : List Word) : List Byte := ws.flatMap fun w => leBytes 4 w.toNat

/-- Two BCD digits of a number below 100. -/
def bcd (n : Nat) : Nat := n / 10 % 10 * 16 + n % 10

/-- The number two BCD digits spell; none where a digit is above 9. -/
def unbcd (b : Nat) : Option Nat :=
  if b / 16 % 16 ≤ 9 && b % 16 ≤ 9 then some (b / 16 % 16 * 10 + b % 16) else none

/-- The sum of a list of integers. -/
def sumI (l : List Int) : Int := l.foldl (· + ·) 0

/-- The sum of a list of naturals. -/
def sumN (l : List Nat) : Nat := l.foldl (· + ·) 0

/-- `f` applied for `0`, …, `n - 1` in turn. -/
def forUpto {α : Type} (n : Nat) (f : Nat → α → α) (a : α) : α := (List.range n).foldl (fun x i => f i x) a

/-- Writes `v` into place `i` of a list (nothing past its end). -/
def setAt {α : Type} (l : List α) (i : Nat) (v : α) : List α := l.set i v

/-- Place `n` of a vector; `a` past its end. -/
def vGet {α : Type} {k : Nat} (v : Vector α k) (n : Nat) (a : α) : α := v[n]?.getD a

/-- Writes `a` into place `n` of a vector (nothing past its end). -/
def vSet {α : Type} {k : Nat} (v : Vector α k) (n : Nat) (a : α) : Vector α k := v.setIfInBounds n a

end Sys2Proof.Machine
end

