-- ==== Sys2Proof/Machine/Regs.lean ====
section
/-! DEFINITION. The addresses of the registers (R9, R11, R31 and each page's register table), the places of their fields
and the device event numbers (R29).  An array register takes its index, counted as the manual counts it. -/

namespace Sys2Proof.Machine

/-- A field: the register's address, its lowest bit, its width. -/
structure Field where
  reg : Nat
  lo : Nat
  width : Nat
deriving DecidableEq, Repr

/-- R9: the first address of a page. -/
def pageBase (p : Page) : Nat := 0x40000000 + p.num * 0x1000

def Reg.PG_ID (p : Page) : Nat := pageBase p
def Reg.PG_VER (p : Page) : Nat := pageBase p + 0x4
def Reg.PG_OWNER (p : Page) : Nat := pageBase p + 0x8
def Reg.PG_LOCK (p : Page) : Nat := pageBase p + 0xC
def Reg.EVT_RAW (p : Page) : Nat := pageBase p + 0x10
def Reg.EVT_EN (p : Page) : Nat := pageBase p + 0x14
def Reg.EVT_PEND (p : Page) : Nat := pageBase p + 0x18
def Reg.EVT_ROUTE (p : Page) : Nat := pageBase p + 0x1C

def Reg.MAE_CTRL : Nat := 0x40006040
def Fld.MAE_CTRL_REF_SEL : Field := ⟨Reg.MAE_CTRL, 0, 2⟩
def Fld.MAE_CTRL_SYNTH_FREQ : Field := ⟨Reg.MAE_CTRL, 2, 2⟩
def Fld.MAE_CTRL_FREQ_AVG : Field := ⟨Reg.MAE_CTRL, 4, 2⟩
def Fld.MAE_CTRL_QW_IN_SYNTH : Field := ⟨Reg.MAE_CTRL, 6, 1⟩
def Reg.MAE_STATUS : Nat := 0x40006044
def Fld.MAE_STATUS_STATE : Field := ⟨Reg.MAE_STATUS, 0, 3⟩
def Fld.MAE_STATUS_REF_ACT : Field := ⟨Reg.MAE_STATUS, 3, 2⟩
def Fld.MAE_STATUS_SLEWING : Field := ⟨Reg.MAE_STATUS, 5, 1⟩
def Fld.MAE_STATUS_START_CAUSE : Field := ⟨Reg.MAE_STATUS, 6, 1⟩
def Fld.MAE_STATUS_AT_LIMIT : Field := ⟨Reg.MAE_STATUS, 7, 1⟩
def Fld.MAE_STATUS_COAST_LEFT : Field := ⟨Reg.MAE_STATUS, 8, 8⟩
def Reg.MAE_NOW : Nat := 0x40006048
def Reg.MAE_NOW_CYC : Nat := 0x4000604c
def Reg.MAE_CYC_HI : Nat := 0x40006050
def Reg.MAE_FREQ : Nat := 0x40006054
def Reg.MAE_INC : Nat := 0x40006058
def Reg.MAE_PHASE_ERR : Nat := 0x4000605c
def Reg.MAE_LAST_CYC_CLK : Nat := 0x40006060
def Reg.MAE_COAST_MAX : Nat := 0x40006064
def Fld.MAE_COAST_MAX_COAST_MAX : Field := ⟨Reg.MAE_COAST_MAX, 0, 8⟩
def Reg.MAE_SLEW_LIMIT : Nat := 0x40006068
def Fld.MAE_SLEW_LIMIT_SLEW_LIMIT : Field := ⟨Reg.MAE_SLEW_LIMIT, 0, 16⟩
def Reg.MAE_LOCK_CFG : Nat := 0x4000606c
def Fld.MAE_LOCK_CFG_LOCK_TOL : Field := ⟨Reg.MAE_LOCK_CFG, 0, 16⟩
def Fld.MAE_LOCK_CFG_LOCK_CYCLES : Field := ⟨Reg.MAE_LOCK_CFG, 16, 8⟩
def Fld.MAE_LOCK_CFG_SPLICE_CONFIRM : Field := ⟨Reg.MAE_LOCK_CFG, 24, 4⟩
def Reg.MAE_VREF : Nat := 0x40006070
def Fld.MAE_VREF_MIN : Field := ⟨Reg.MAE_VREF, 0, 16⟩
def Fld.MAE_VREF_HYST : Field := ⟨Reg.MAE_VREF, 16, 16⟩
def Reg.MAE_ZC_CFG : Nat := 0x40006074
def Fld.MAE_ZC_CFG_ZC_OFFSET : Field := ⟨Reg.MAE_ZC_CFG, 0, 16⟩
def Fld.MAE_ZC_CFG_CROSS_WIN : Field := ⟨Reg.MAE_ZC_CFG, 16, 16⟩
def Reg.MAE_REF_OFS (n : Nat) : Nat := 0x40006078 + n * 4
def Fld.MAE_REF_OFS_OFS (n : Nat) : Field := ⟨Reg.MAE_REF_OFS n, 0, 16⟩
def Reg.MAE_SPL_CNT : Nat := 0x40006084
def Fld.MAE_SPL_CNT_CNT : Field := ⟨Reg.MAE_SPL_CNT, 0, 32⟩
def Reg.MAE_SPL_CYC : Nat := 0x40006088
def Fld.MAE_SPL_CYC_CYC : Field := ⟨Reg.MAE_SPL_CYC, 0, 32⟩
def Reg.MAE_SPL_ANG : Nat := 0x4000608c
def Fld.MAE_SPL_ANG_FROM : Field := ⟨Reg.MAE_SPL_ANG, 0, 16⟩
def Fld.MAE_SPL_ANG_TO : Field := ⟨Reg.MAE_SPL_ANG, 16, 16⟩
def Reg.MAE_SPL_INFO : Nat := 0x40006090
def Fld.MAE_SPL_INFO_BACKWARD : Field := ⟨Reg.MAE_SPL_INFO, 0, 1⟩
def Fld.MAE_SPL_INFO_ERR : Field := ⟨Reg.MAE_SPL_INFO, 16, 16⟩
def Reg.MAE_COAST_CNT : Nat := 0x40006094
def Fld.MAE_COAST_CNT_CNT : Field := ⟨Reg.MAE_COAST_CNT, 0, 32⟩
def Reg.MAE_SYNTH_CYC : Nat := 0x40006098
def Fld.MAE_SYNTH_CYC_CNT : Field := ⟨Reg.MAE_SYNTH_CYC, 0, 32⟩
def Reg.MAE_QWM_LO (m : Nat) : Nat := 0x400060a0 + m * 8
def Reg.MAE_QWM_HI (m : Nat) : Nat := 0x400060a4 + m * 8
def Reg.MAE_CAP_SEL (n : Nat) : Nat := 0x400060c0 + n * 0x10
def Fld.MAE_CAP_SEL_EVT (n : Nat) : Field := ⟨Reg.MAE_CAP_SEL n, 0, 9⟩
def Fld.MAE_CAP_SEL_EN (n : Nat) : Field := ⟨Reg.MAE_CAP_SEL n, 15, 1⟩
def Reg.MAE_CAP_CYC (n : Nat) : Nat := 0x400060c4 + n * 0x10
def Fld.MAE_CAP_CYC_CYC (n : Nat) : Field := ⟨Reg.MAE_CAP_CYC n, 0, 32⟩
def Reg.MAE_CAP_ANG (n : Nat) : Nat := 0x400060c8 + n * 0x10
def Fld.MAE_CAP_ANG_ANG (n : Nat) : Field := ⟨Reg.MAE_CAP_ANG n, 0, 16⟩
def Fld.MAE_CAP_ANG_FULL (n : Nat) : Field := ⟨Reg.MAE_CAP_ANG n, 16, 1⟩
def Fld.MAE_CAP_ANG_OVR (n : Nat) : Field := ⟨Reg.MAE_CAP_ANG n, 17, 1⟩
def Fld.MAE_CAP_ANG_STATE (n : Nat) : Field := ⟨Reg.MAE_CAP_ANG n, 18, 3⟩
def Reg.HERD_CTRL : Nat := 0x40007040
def Fld.HERD_CTRL_EN : Field := ⟨Reg.HERD_CTRL, 0, 1⟩
def Fld.HERD_CTRL_DEFER_MAX : Field := ⟨Reg.HERD_CTRL, 8, 8⟩
def Fld.HERD_CTRL_PREFETCH_TICKS : Field := ⟨Reg.HERD_CTRL, 16, 6⟩
def Reg.HERD_PART : Nat := 0x40007044
def Fld.HERD_PART_LGL_BLOCKS : Field := ⟨Reg.HERD_PART, 0, 6⟩
def Reg.HERD_STATUS : Nat := 0x40007048
def Fld.HERD_STATUS_ARMED : Field := ⟨Reg.HERD_STATUS, 0, 11⟩
def Fld.HERD_STATUS_WAITING : Field := ⟨Reg.HERD_STATUS, 11, 11⟩
def Fld.HERD_STATUS_HOLDS : Field := ⟨Reg.HERD_STATUS, 22, 4⟩
def Fld.HERD_STATUS_RUNNING : Field := ⟨Reg.HERD_STATUS, 26, 1⟩
def Reg.HERD_UNIT_BUSY : Nat := 0x4000704c
def Fld.HERD_UNIT_BUSY_BUSY : Field := ⟨Reg.HERD_UNIT_BUSY, 1, 7⟩
def Reg.HERD_ROT (p : Nat) : Nat := 0x40007050 + p * 4
def Fld.HERD_ROT_PTR (p : Nat) : Field := ⟨Reg.HERD_ROT p, 0, 10⟩
def Reg.HERD_DISP_CNT : Nat := 0x40007060
def Reg.HERD_LATE_CNT : Nat := 0x40007064
def Reg.HERD_DEFER_CNT : Nat := 0x40007068
def Reg.HERD_MISS_CNT : Nat := 0x4000706c
def Reg.HERD_SKIP_CNT : Nat := 0x40007070
def Reg.HERD_DESC_ERR_CNT : Nat := 0x40007074
def Reg.HERD_CTX_WAIT_CNT : Nat := 0x40007078
def Reg.HERD_CNT_CLR : Nat := 0x4000707c
def Fld.HERD_CNT_CLR_CLR : Field := ⟨Reg.HERD_CNT_CLR, 0, 1⟩
def Reg.HERD_USR_RAISE : Nat := 0x40007080
def Fld.HERD_USR_RAISE_USR : Field := ⟨Reg.HERD_USR_RAISE, 0, 16⟩
def Reg.HERD_PEEK_SEL : Nat := 0x40007084
def Fld.HERD_PEEK_SEL_TASK : Field := ⟨Reg.HERD_PEEK_SEL, 0, 10⟩
def Reg.HERD_PEEK_DUE : Nat := 0x40007088
def Fld.HERD_PEEK_DUE_CYC : Field := ⟨Reg.HERD_PEEK_DUE, 0, 32⟩
def Reg.HERD_PEEK_STATE : Nat := 0x4000708c
def Fld.HERD_PEEK_STATE_ARMED : Field := ⟨Reg.HERD_PEEK_STATE, 0, 1⟩
def Fld.HERD_PEEK_STATE_WAITING : Field := ⟨Reg.HERD_PEEK_STATE, 1, 1⟩
def Fld.HERD_PEEK_STATE_WAITED : Field := ⟨Reg.HERD_PEEK_STATE, 8, 8⟩
def Fld.HERD_PEEK_STATE_LAST_CAUSE : Field := ⟨Reg.HERD_PEEK_STATE, 16, 4⟩
def Fld.HERD_PEEK_STATE_LATE : Field := ⟨Reg.HERD_PEEK_STATE, 20, 1⟩
def Fld.HERD_PEEK_STATE_DEFERRED : Field := ⟨Reg.HERD_PEEK_STATE, 21, 1⟩
def Fld.HERD_PEEK_STATE_AT_LIMIT : Field := ⟨Reg.HERD_PEEK_STATE, 22, 1⟩
def Fld.HERD_PEEK_STATE_HELD : Field := ⟨Reg.HERD_PEEK_STATE, 23, 1⟩
def Fld.HERD_PEEK_STATE_TICK : Field := ⟨Reg.HERD_PEEK_STATE, 24, 8⟩
def Reg.HERD_MISS_WR : Nat := 0x400070c0
def Fld.HERD_MISS_WR_IDX : Field := ⟨Reg.HERD_MISS_WR, 0, 4⟩
def Reg.HERD_MISS_CYC (n : Nat) : Nat := 0x40007100 + n * 8
def Fld.HERD_MISS_CYC_CYC (n : Nat) : Field := ⟨Reg.HERD_MISS_CYC n, 0, 32⟩
def Reg.HERD_MISS_INFO (n : Nat) : Nat := 0x40007104 + n * 8
def Fld.HERD_MISS_INFO_TASK (n : Nat) : Field := ⟨Reg.HERD_MISS_INFO n, 0, 10⟩
def Fld.HERD_MISS_INFO_CAUSE (n : Nat) : Field := ⟨Reg.HERD_MISS_INFO n, 10, 4⟩
def Fld.HERD_MISS_INFO_TICK (n : Nat) : Field := ⟨Reg.HERD_MISS_INFO n, 14, 8⟩
def Fld.HERD_MISS_INFO_VALID (n : Nat) : Field := ⟨Reg.HERD_MISS_INFO n, 22, 1⟩
def Fld.HERD_MISS_INFO_NOTIME (n : Nat) : Field := ⟨Reg.HERD_MISS_INFO n, 23, 1⟩
def Reg.UFE_DRV_PATH_CFG (n : Nat) : Nat := 0x40011040 + n * 4
def Fld.UFE_DRV_PATH_CFG_EN (n : Nat) : Field := ⟨Reg.UFE_DRV_PATH_CFG n, 0, 1⟩
def Fld.UFE_DRV_PATH_CFG_SWAP (n : Nat) : Field := ⟨Reg.UFE_DRV_PATH_CFG n, 1, 1⟩
def Reg.UFE_DRV_PATH_STAT (n : Nat) : Nat := 0x40011050 + n * 4
def Fld.UFE_DRV_PATH_STAT_STATE (n : Nat) : Field := ⟨Reg.UFE_DRV_PATH_STAT n, 0, 2⟩
def Fld.UFE_DRV_PATH_STAT_RUN_A (n : Nat) : Field := ⟨Reg.UFE_DRV_PATH_STAT n, 2, 2⟩
def Fld.UFE_DRV_PATH_STAT_RUN_B (n : Nat) : Field := ⟨Reg.UFE_DRV_PATH_STAT n, 4, 2⟩
def Fld.UFE_DRV_PATH_STAT_GOOD_RUN (n : Nat) : Field := ⟨Reg.UFE_DRV_PATH_STAT n, 6, 2⟩
def Fld.UFE_DRV_PATH_STAT_FAULT_CNT (n : Nat) : Field := ⟨Reg.UFE_DRV_PATH_STAT n, 16, 16⟩
def Reg.UFE_DRV_DRV_THR : Nat := 0x40011060
def Fld.UFE_DRV_DRV_THR_OPEN_THR : Field := ⟨Reg.UFE_DRV_DRV_THR, 0, 8⟩
def Fld.UFE_DRV_DRV_THR_SHORT_THR : Field := ⟨Reg.UFE_DRV_DRV_THR, 8, 8⟩
def Reg.UFE_DRV_IPK (n : Nat) : Nat := 0x40011068 + n * 4
def Fld.UFE_DRV_IPK_IPK_A (n : Nat) : Field := ⟨Reg.UFE_DRV_IPK n, 0, 8⟩
def Fld.UFE_DRV_IPK_IPK_B (n : Nat) : Field := ⟨Reg.UFE_DRV_IPK n, 8, 8⟩
def Reg.UFE_DRV_SET_DRV (s : Nat) : Nat := 0x40011080 + s * 4
def Fld.UFE_DRV_SET_DRV_HALF_PER (s : Nat) : Field := ⟨Reg.UFE_DRV_SET_DRV s, 0, 8⟩
def Fld.UFE_DRV_SET_DRV_NPER (s : Nat) : Field := ⟨Reg.UFE_DRV_SET_DRV s, 8, 5⟩
def Fld.UFE_DRV_SET_DRV_EXT_DRV (s : Nat) : Field := ⟨Reg.UFE_DRV_SET_DRV s, 13, 1⟩
def Fld.UFE_DRV_SET_DRV_EXT_START (s : Nat) : Field := ⟨Reg.UFE_DRV_SET_DRV s, 14, 1⟩
def Reg.UFE_DRV_MAN_FIRE : Nat := 0x400110c0
def Fld.UFE_DRV_MAN_FIRE_PATH : Field := ⟨Reg.UFE_DRV_MAN_FIRE, 0, 2⟩
def Fld.UFE_DRV_MAN_FIRE_SET : Field := ⟨Reg.UFE_DRV_MAN_FIRE, 8, 4⟩
def Fld.UFE_DRV_MAN_FIRE_GO : Field := ⟨Reg.UFE_DRV_MAN_FIRE, 31, 1⟩
def Reg.UFE_RX_PATH_GAIN (n : Nat) : Nat := 0x40012040 + n * 4
def Fld.UFE_RX_PATH_GAIN_GAIN (n : Nat) : Field := ⟨Reg.UFE_RX_PATH_GAIN n, 0, 6⟩
def Fld.UFE_RX_PATH_GAIN_AGC_EN (n : Nat) : Field := ⟨Reg.UFE_RX_PATH_GAIN n, 8, 1⟩
def Reg.UFE_RX_AGC_CFG : Nat := 0x40012050
def Fld.UFE_RX_AGC_CFG_AMP_LO : Field := ⟨Reg.UFE_RX_AGC_CFG, 0, 12⟩
def Fld.UFE_RX_AGC_CFG_AMP_HI : Field := ⟨Reg.UFE_RX_AGC_CFG, 16, 12⟩
def Reg.UFE_RX_SET_RX (s : Nat) : Nat := 0x40012080 + s * 4
def Fld.UFE_RX_SET_RX_CF (s : Nat) : Field := ⟨Reg.UFE_RX_SET_RX s, 0, 2⟩
def Fld.UFE_RX_SET_RX_FT_ATT (s : Nat) : Field := ⟨Reg.UFE_RX_SET_RX s, 2, 6⟩
def Fld.UFE_RX_SET_RX_RST_REL (s : Nat) : Field := ⟨Reg.UFE_RX_SET_RX s, 8, 12⟩
def Fld.UFE_RX_SET_RX_GSW (s : Nat) : Field := ⟨Reg.UFE_RX_SET_RX s, 20, 12⟩
def Reg.UFE_RX_SET_HIT (s : Nat) : Nat := 0x400120c0 + s * 4
def Fld.UFE_RX_SET_HIT_HIT_THR (s : Nat) : Field := ⟨Reg.UFE_RX_SET_HIT s, 0, 8⟩
def Fld.UFE_RX_SET_HIT_POL (s : Nat) : Field := ⟨Reg.UFE_RX_SET_HIT s, 8, 1⟩
def Reg.UFE_TOF_SET_WIN (s : Nat) : Nat := 0x40013040 + s * 8
def Fld.UFE_TOF_SET_WIN_MIN_TOF (s : Nat) : Field := ⟨Reg.UFE_TOF_SET_WIN s, 0, 12⟩
def Fld.UFE_TOF_SET_WIN_WIN_END (s : Nat) : Field := ⟨Reg.UFE_TOF_SET_WIN s, 12, 12⟩
def Reg.UFE_TOF_SET_CAP (s : Nat) : Nat := 0x40013044 + s * 8
def Fld.UFE_TOF_SET_CAP_CAP_START (s : Nat) : Field := ⟨Reg.UFE_TOF_SET_CAP s, 0, 12⟩
def Fld.UFE_TOF_SET_CAP_CAP_LEN (s : Nat) : Field := ⟨Reg.UFE_TOF_SET_CAP s, 12, 4⟩
def Fld.UFE_TOF_SET_CAP_LAG_MAX (s : Nat) : Field := ⟨Reg.UFE_TOF_SET_CAP s, 16, 5⟩
def Reg.UFE_TOF_SET_GAP (s : Nat) : Nat := 0x400130c0 + s * 4
def Fld.UFE_TOF_SET_GAP_SHOT_GAP (s : Nat) : Field := ⟨Reg.UFE_TOF_SET_GAP s, 0, 14⟩
def Reg.UFE_TOF_CORR_CFG : Nat := 0x40013100
def Fld.UFE_TOF_CORR_CFG_PEAK_MIN : Field := ⟨Reg.UFE_TOF_CORR_CFG, 0, 15⟩
def Reg.UFE_TOF_WAVE_CTRL : Nat := 0x40013104
def Fld.UFE_TOF_WAVE_CTRL_SEL : Field := ⟨Reg.UFE_TOF_WAVE_CTRL, 0, 1⟩
def Fld.UFE_TOF_WAVE_CTRL_FREEZE : Field := ⟨Reg.UFE_TOF_WAVE_CTRL, 1, 1⟩
def Fld.UFE_TOF_WAVE_CTRL_PATH : Field := ⟨Reg.UFE_TOF_WAVE_CTRL, 2, 2⟩
def Reg.UFE_TOF_RES_STAT (n : Nat) : Nat := 0x40013200 + n * 0x40
def Fld.UFE_TOF_RES_STAT_SEQ (n : Nat) : Field := ⟨Reg.UFE_TOF_RES_STAT n, 0, 8⟩
def Fld.UFE_TOF_RES_STAT_CODE_DN (n : Nat) : Field := ⟨Reg.UFE_TOF_RES_STAT n, 8, 4⟩
def Fld.UFE_TOF_RES_STAT_CODE_UP (n : Nat) : Field := ⟨Reg.UFE_TOF_RES_STAT n, 12, 4⟩
def Fld.UFE_TOF_RES_STAT_PAIR (n : Nat) : Field := ⟨Reg.UFE_TOF_RES_STAT n, 16, 3⟩
def Fld.UFE_TOF_RES_STAT_NEW (n : Nat) : Field := ⟨Reg.UFE_TOF_RES_STAT n, 19, 1⟩
def Fld.UFE_TOF_RES_STAT_OVR (n : Nat) : Field := ⟨Reg.UFE_TOF_RES_STAT n, 20, 1⟩
def Fld.UFE_TOF_RES_STAT_AT_LIMIT_DN (n : Nat) : Field := ⟨Reg.UFE_TOF_RES_STAT n, 21, 1⟩
def Fld.UFE_TOF_RES_STAT_AT_LIMIT_UP (n : Nat) : Field := ⟨Reg.UFE_TOF_RES_STAT n, 22, 1⟩
def Fld.UFE_TOF_RES_STAT_CLIP_DN (n : Nat) : Field := ⟨Reg.UFE_TOF_RES_STAT n, 23, 1⟩
def Fld.UFE_TOF_RES_STAT_CLIP_UP (n : Nat) : Field := ⟨Reg.UFE_TOF_RES_STAT n, 24, 1⟩
def Fld.UFE_TOF_RES_STAT_MASKED (n : Nat) : Field := ⟨Reg.UFE_TOF_RES_STAT n, 25, 1⟩
def Fld.UFE_TOF_RES_STAT_T_LATE (n : Nat) : Field := ⟨Reg.UFE_TOF_RES_STAT n, 26, 1⟩
def Fld.UFE_TOF_RES_STAT_T_DEFERRED (n : Nat) : Field := ⟨Reg.UFE_TOF_RES_STAT n, 27, 1⟩
def Fld.UFE_TOF_RES_STAT_T_AT_LIMIT (n : Nat) : Field := ⟨Reg.UFE_TOF_RES_STAT n, 28, 1⟩
def Fld.UFE_TOF_RES_STAT_SRC (n : Nat) : Field := ⟨Reg.UFE_TOF_RES_STAT n, 29, 2⟩
def Reg.UFE_TOF_RES_TOF_DN (n : Nat) : Nat := 0x40013204 + n * 0x40
def Fld.UFE_TOF_RES_TOF_DN_TOF (n : Nat) : Field := ⟨Reg.UFE_TOF_RES_TOF_DN n, 0, 32⟩
def Reg.UFE_TOF_RES_TOF_UP (n : Nat) : Nat := 0x40013208 + n * 0x40
def Fld.UFE_TOF_RES_TOF_UP_TOF (n : Nat) : Field := ⟨Reg.UFE_TOF_RES_TOF_UP n, 0, 32⟩
def Reg.UFE_TOF_RES_DT (n : Nat) : Nat := 0x4001320c + n * 0x40
def Fld.UFE_TOF_RES_DT_DT (n : Nat) : Field := ⟨Reg.UFE_TOF_RES_DT n, 0, 32⟩
def Reg.UFE_TOF_RES_AMP (n : Nat) : Nat := 0x40013210 + n * 0x40
def Fld.UFE_TOF_RES_AMP_AMP_DN (n : Nat) : Field := ⟨Reg.UFE_TOF_RES_AMP n, 0, 12⟩
def Fld.UFE_TOF_RES_AMP_AMP_UP (n : Nat) : Field := ⟨Reg.UFE_TOF_RES_AMP n, 16, 12⟩
def Reg.UFE_TOF_RES_PEAK (n : Nat) : Nat := 0x40013214 + n * 0x40
def Fld.UFE_TOF_RES_PEAK_PEAK (n : Nat) : Field := ⟨Reg.UFE_TOF_RES_PEAK n, 0, 15⟩
def Fld.UFE_TOF_RES_PEAK_GAIN (n : Nat) : Field := ⟨Reg.UFE_TOF_RES_PEAK n, 16, 6⟩
def Reg.UFE_TOF_RES_CYC (n : Nat) : Nat := 0x40013218 + n * 0x40
def Fld.UFE_TOF_RES_CYC_CYC (n : Nat) : Field := ⟨Reg.UFE_TOF_RES_CYC n, 0, 32⟩
def Reg.UFE_TOF_RES_ANG (n : Nat) : Nat := 0x4001321c + n * 0x40
def Fld.UFE_TOF_RES_ANG_ANG (n : Nat) : Field := ⟨Reg.UFE_TOF_RES_ANG n, 0, 16⟩
def Fld.UFE_TOF_RES_ANG_TASK (n : Nat) : Field := ⟨Reg.UFE_TOF_RES_ANG n, 16, 10⟩
def Reg.UFE_TOF_WAVE (w : Nat) : Nat := 0x40013800 + w * 4
def Reg.FLOW_GEOM_L (n : Nat) : Nat := 0x40014040 + n * 0x20
def Fld.FLOW_GEOM_L_L (n : Nat) : Field := ⟨Reg.FLOW_GEOM_L n, 0, 24⟩
def Reg.FLOW_GEOM_X (n : Nat) : Nat := 0x40014044 + n * 0x20
def Fld.FLOW_GEOM_X_X (n : Nat) : Field := ⟨Reg.FLOW_GEOM_X n, 0, 24⟩
def Reg.FLOW_T0 (n : Nat) : Nat := 0x40014048 + n * 0x20
def Fld.FLOW_T0_T0 (n : Nat) : Field := ⟨Reg.FLOW_T0 n, 0, 32⟩
def Reg.FLOW_DT0 (n : Nat) : Nat := 0x4001404c + n * 0x20
def Fld.FLOW_DT0_DT0 (n : Nat) : Field := ⟨Reg.FLOW_DT0 n, 0, 32⟩
def Reg.FLOW_AREA (n : Nat) : Nat := 0x40014050 + n * 0x20
def Fld.FLOW_AREA_AREA (n : Nat) : Field := ⟨Reg.FLOW_AREA n, 0, 32⟩
def Reg.FLOW_EMPTY (n : Nat) : Nat := 0x40014054 + n * 0x20
def Fld.FLOW_EMPTY_EMPTY_AMP (n : Nat) : Field := ⟨Reg.FLOW_EMPTY n, 0, 12⟩
def Fld.FLOW_EMPTY_EMPTY_REL (n : Nat) : Field := ⟨Reg.FLOW_EMPTY n, 16, 12⟩
def Reg.FLOW_NPTS (n : Nat) : Nat := 0x40014058 + n * 0x20
def Fld.FLOW_NPTS_KF_NPTS (n : Nat) : Field := ⟨Reg.FLOW_NPTS n, 0, 5⟩
def Fld.FLOW_NPTS_SOS_NPTS (n : Nat) : Field := ⟨Reg.FLOW_NPTS n, 8, 5⟩
def Reg.FLOW_FLOW_CFG : Nat := 0x400140c0
def Fld.FLOW_FLOW_CFG_N_INV : Field := ⟨Reg.FLOW_FLOW_CFG, 0, 4⟩
def Fld.FLOW_FLOW_CFG_EMPTY_N : Field := ⟨Reg.FLOW_FLOW_CFG, 4, 4⟩
def Fld.FLOW_FLOW_CFG_STALE_TICKS : Field := ⟨Reg.FLOW_FLOW_CFG, 16, 12⟩
def Reg.FLOW_KF_Q (n : Nat) (j : Nat) : Nat := 0x40014100 + n * 0x80 + j * 8
def Fld.FLOW_KF_Q_Q (n : Nat) (j : Nat) : Field := ⟨Reg.FLOW_KF_Q n j, 0, 32⟩
def Reg.FLOW_KF_K (n : Nat) (j : Nat) : Nat := 0x40014104 + n * 0x80 + j * 8
def Fld.FLOW_KF_K_K (n : Nat) (j : Nat) : Field := ⟨Reg.FLOW_KF_K n j, 0, 17⟩
def Reg.FLOW_SOS_TBL (n : Nat) (j : Nat) : Nat := 0x40014300 + n * 0x40 + j * 4
def Fld.FLOW_SOS_TBL_C (n : Nat) (j : Nat) : Field := ⟨Reg.FLOW_SOS_TBL n j, 0, 18⟩
def Fld.FLOW_SOS_TBL_T (n : Nat) (j : Nat) : Field := ⟨Reg.FLOW_SOS_TBL n j, 18, 14⟩
def Reg.FLOW_OUT_CFG (k : Nat) : Nat := 0x40014400 + k * 0x10
def Fld.FLOW_OUT_CFG_SUP_PATH (k : Nat) : Field := ⟨Reg.FLOW_OUT_CFG k, 0, 2⟩
def Fld.FLOW_OUT_CFG_SUP_EN (k : Nat) : Field := ⟨Reg.FLOW_OUT_CFG k, 2, 1⟩
def Fld.FLOW_OUT_CFG_RET_PATH (k : Nat) : Field := ⟨Reg.FLOW_OUT_CFG k, 4, 2⟩
def Fld.FLOW_OUT_CFG_RET_EN (k : Nat) : Field := ⟨Reg.FLOW_OUT_CFG k, 6, 1⟩
def Reg.FLOW_LEAK_WIN (k : Nat) : Nat := 0x40014404 + k * 0x10
def Fld.FLOW_LEAK_WIN_WIN (k : Nat) : Field := ⟨Reg.FLOW_LEAK_WIN k, 0, 16⟩
def Reg.FLOW_LEAK_THR (k : Nat) : Nat := 0x40014408 + k * 0x10
def Fld.FLOW_LEAK_THR_THR (k : Nat) : Field := ⟨Reg.FLOW_LEAK_THR k, 0, 32⟩
def Reg.FLOW_FLOW_STAT (n : Nat) : Nat := 0x40014500 + n * 0x20
def Fld.FLOW_FLOW_STAT_UNKNOWN (n : Nat) : Field := ⟨Reg.FLOW_FLOW_STAT n, 0, 1⟩
def Fld.FLOW_FLOW_STAT_CAUSE (n : Nat) : Field := ⟨Reg.FLOW_FLOW_STAT n, 1, 3⟩
def Fld.FLOW_FLOW_STAT_EMPTY (n : Nat) : Field := ⟨Reg.FLOW_FLOW_STAT n, 4, 1⟩
def Fld.FLOW_FLOW_STAT_COOL_OOR (n : Nat) : Field := ⟨Reg.FLOW_FLOW_STAT n, 5, 1⟩
def Fld.FLOW_FLOW_STAT_AT_LIMIT (n : Nat) : Field := ⟨Reg.FLOW_FLOW_STAT n, 6, 1⟩
def Fld.FLOW_FLOW_STAT_BILL_VALID (n : Nat) : Field := ⟨Reg.FLOW_FLOW_STAT n, 7, 1⟩
def Fld.FLOW_FLOW_STAT_INV_RUN (n : Nat) : Field := ⟨Reg.FLOW_FLOW_STAT n, 8, 4⟩
def Fld.FLOW_FLOW_STAT_EMPTY_RUN (n : Nat) : Field := ⟨Reg.FLOW_FLOW_STAT n, 12, 4⟩
def Fld.FLOW_FLOW_STAT_SEQ (n : Nat) : Field := ⟨Reg.FLOW_FLOW_STAT n, 16, 8⟩
def Reg.FLOW_FLOW (n : Nat) : Nat := 0x40014504 + n * 0x20
def Fld.FLOW_FLOW_Q (n : Nat) : Field := ⟨Reg.FLOW_FLOW n, 0, 32⟩
def Reg.FLOW_VOL_LO (n : Nat) : Nat := 0x40014508 + n * 0x20
def Fld.FLOW_VOL_LO_V (n : Nat) : Field := ⟨Reg.FLOW_VOL_LO n, 0, 32⟩
def Reg.FLOW_VOL_HI (n : Nat) : Nat := 0x4001450c + n * 0x20
def Fld.FLOW_VOL_HI_V (n : Nat) : Field := ⟨Reg.FLOW_VOL_HI n, 0, 32⟩
def Reg.FLOW_SOS (n : Nat) : Nat := 0x40014510 + n * 0x20
def Fld.FLOW_SOS_C (n : Nat) : Field := ⟨Reg.FLOW_SOS n, 0, 18⟩
def Reg.FLOW_COOL_T (n : Nat) : Nat := 0x40014514 + n * 0x20
def Fld.FLOW_COOL_T_T (n : Nat) : Field := ⟨Reg.FLOW_COOL_T n, 0, 16⟩
def Reg.FLOW_RES_CYC (n : Nat) : Nat := 0x40014518 + n * 0x20
def Fld.FLOW_RES_CYC_CYC (n : Nat) : Field := ⟨Reg.FLOW_RES_CYC n, 0, 32⟩
def Reg.FLOW_LEAK_STAT (k : Nat) : Nat := 0x40014600 + k * 8
def Fld.FLOW_LEAK_STAT_LEAK (k : Nat) : Field := ⟨Reg.FLOW_LEAK_STAT k, 0, 1⟩
def Fld.FLOW_LEAK_STAT_VOID (k : Nat) : Field := ⟨Reg.FLOW_LEAK_STAT k, 1, 1⟩
def Fld.FLOW_LEAK_STAT_WIN_LEFT (k : Nat) : Field := ⟨Reg.FLOW_LEAK_STAT k, 16, 16⟩
def Reg.FLOW_LEAK_DIFF (k : Nat) : Nat := 0x40014604 + k * 8
def Fld.FLOW_LEAK_DIFF_DIFF (k : Nat) : Field := ⟨Reg.FLOW_LEAK_DIFF k, 0, 32⟩
def Reg.RTD_RTD_CFG (n : Nat) : Nat := 0x40015040 + n * 0x10
def Fld.RTD_RTD_CFG_EN (n : Nat) : Field := ⟨Reg.RTD_RTD_CFG n, 0, 1⟩
def Fld.RTD_RTD_CFG_TYPE (n : Nat) : Field := ⟨Reg.RTD_RTD_CFG n, 1, 1⟩
def Fld.RTD_RTD_CFG_WIRES (n : Nat) : Field := ⟨Reg.RTD_RTD_CFG n, 2, 1⟩
def Reg.RTD_LEAD2 (n : Nat) : Nat := 0x40015044 + n * 0x10
def Fld.RTD_LEAD2_LEAD (n : Nat) : Field := ⟨Reg.RTD_LEAD2 n, 0, 24⟩
def Reg.RTD_CAL (n : Nat) : Nat := 0x40015048 + n * 0x10
def Fld.RTD_CAL_OFS (n : Nat) : Field := ⟨Reg.RTD_CAL n, 0, 16⟩
def Fld.RTD_CAL_GAIN (n : Nat) : Field := ⟨Reg.RTD_CAL n, 16, 16⟩
def Reg.RTD_RTD_STAT (n : Nat) : Nat := 0x40015100 + n * 0x10
def Fld.RTD_RTD_STAT_SEQ (n : Nat) : Field := ⟨Reg.RTD_RTD_STAT n, 0, 8⟩
def Fld.RTD_RTD_STAT_CODE (n : Nat) : Field := ⟨Reg.RTD_RTD_STAT n, 8, 3⟩
def Fld.RTD_RTD_STAT_NEW (n : Nat) : Field := ⟨Reg.RTD_RTD_STAT n, 11, 1⟩
def Fld.RTD_RTD_STAT_SLOW (n : Nat) : Field := ⟨Reg.RTD_RTD_STAT n, 12, 1⟩
def Fld.RTD_RTD_STAT_BILL_VALID (n : Nat) : Field := ⟨Reg.RTD_RTD_STAT n, 13, 1⟩
def Fld.RTD_RTD_STAT_WIRE (n : Nat) : Field := ⟨Reg.RTD_RTD_STAT n, 16, 3⟩
def Reg.RTD_RTD_RES (n : Nat) : Nat := 0x40015104 + n * 0x10
def Fld.RTD_RTD_RES_RCAL (n : Nat) : Field := ⟨Reg.RTD_RTD_RES n, 0, 32⟩
def Reg.RTD_RTD_LEAD (n : Nat) : Nat := 0x40015108 + n * 0x10
def Fld.RTD_RTD_LEAD_LEAD (n : Nat) : Field := ⟨Reg.RTD_RTD_LEAD n, 0, 24⟩
def Reg.RTD_RTD_TEMP (n : Nat) : Nat := 0x4001510c + n * 0x10
def Fld.RTD_RTD_TEMP_T (n : Nat) : Field := ⟨Reg.RTD_RTD_TEMP n, 0, 16⟩
def Fld.RTD_RTD_TEMP_CYC (n : Nat) : Field := ⟨Reg.RTD_RTD_TEMP n, 16, 16⟩
def Reg.RTD_MAN_CONV : Nat := 0x40015200
def Fld.RTD_MAN_CONV_CH : Field := ⟨Reg.RTD_MAN_CONV, 0, 3⟩
def Fld.RTD_MAN_CONV_SLOW : Field := ⟨Reg.RTD_MAN_CONV, 3, 1⟩
def Fld.RTD_MAN_CONV_GO : Field := ⟨Reg.RTD_MAN_CONV, 31, 1⟩
def Reg.RTD_RTD_STATUS : Nat := 0x40015204
def Fld.RTD_RTD_STATUS_CUR_CH : Field := ⟨Reg.RTD_RTD_STATUS, 0, 3⟩
def Fld.RTD_RTD_STATUS_BUSY : Field := ⟨Reg.RTD_RTD_STATUS, 3, 1⟩
def Reg.THERM_THERM_CFG : Nat := 0x40016040
def Fld.THERM_THERM_CFG_HYST : Field := ⟨Reg.THERM_THERM_CFG, 0, 8⟩
def Fld.THERM_THERM_CFG_DWELL : Field := ⟨Reg.THERM_THERM_CFG, 8, 4⟩
def Fld.THERM_THERM_CFG_FLOW_HYST : Field := ⟨Reg.THERM_THERM_CFG, 12, 12⟩
def Fld.THERM_THERM_CFG_STALE_EVALS : Field := ⟨Reg.THERM_THERM_CFG, 28, 4⟩
def Reg.THERM_VHC : Nat := 0x40016044
def Fld.THERM_VHC_VHC : Field := ⟨Reg.THERM_VHC, 0, 16⟩
def Reg.THERM_OUT_EN (k : Nat) : Nat := 0x40016080 + k * 0x40
def Fld.THERM_OUT_EN_EN (k : Nat) : Field := ⟨Reg.THERM_OUT_EN k, 0, 1⟩
def Fld.THERM_OUT_EN_CONN_A (k : Nat) : Field := ⟨Reg.THERM_OUT_EN k, 1, 3⟩
def Fld.THERM_OUT_EN_CONN_A_EN (k : Nat) : Field := ⟨Reg.THERM_OUT_EN k, 4, 1⟩
def Fld.THERM_OUT_EN_CONN_B (k : Nat) : Field := ⟨Reg.THERM_OUT_EN k, 5, 3⟩
def Fld.THERM_OUT_EN_CONN_B_EN (k : Nat) : Field := ⟨Reg.THERM_OUT_EN k, 8, 1⟩
def Fld.THERM_OUT_EN_COOL_SRC (k : Nat) : Field := ⟨Reg.THERM_OUT_EN k, 9, 2⟩
def Reg.THERM_ILIM_MAX (k : Nat) : Nat := 0x40016084 + k * 0x40
def Fld.THERM_ILIM_MAX_I (k : Nat) : Field := ⟨Reg.THERM_ILIM_MAX k, 0, 16⟩
def Reg.THERM_ILIM_FAULT (k : Nat) : Nat := 0x40016088 + k * 0x40
def Fld.THERM_ILIM_FAULT_ILIM_FU (k : Nat) : Field := ⟨Reg.THERM_ILIM_FAULT k, 0, 16⟩
def Fld.THERM_ILIM_FAULT_ILIM_RTDF (k : Nat) : Field := ⟨Reg.THERM_ILIM_FAULT k, 16, 16⟩
def Reg.THERM_ILIM_DRY (k : Nat) : Nat := 0x4001608c + k * 0x40
def Fld.THERM_ILIM_DRY_I (k : Nat) : Field := ⟨Reg.THERM_ILIM_DRY k, 0, 16⟩
def Reg.THERM_TC (k : Nat) (j : Nat) : Nat := 0x40016090 + k * 0x40 + (j - 1) * 4
def Fld.THERM_TC_THR (k : Nat) (j : Nat) : Field := ⟨Reg.THERM_TC k j, 0, 16⟩
def Fld.THERM_TC_I (k : Nat) (j : Nat) : Field := ⟨Reg.THERM_TC k j, 16, 15⟩
def Fld.THERM_TC_EN (k : Nat) (j : Nat) : Field := ⟨Reg.THERM_TC k j, 31, 1⟩
def Reg.THERM_TW (k : Nat) (j : Nat) : Nat := 0x4001609c + k * 0x40 + (j - 1) * 4
def Fld.THERM_TW_THR (k : Nat) (j : Nat) : Field := ⟨Reg.THERM_TW k j, 0, 16⟩
def Fld.THERM_TW_I (k : Nat) (j : Nat) : Field := ⟨Reg.THERM_TW k j, 16, 15⟩
def Fld.THERM_TW_EN (k : Nat) (j : Nat) : Field := ⟨Reg.THERM_TW k j, 31, 1⟩
def Reg.THERM_FL (k : Nat) (j : Nat) : Nat := 0x400160a8 + k * 0x40 + (j - 1) * 4
def Fld.THERM_FL_THR (k : Nat) (j : Nat) : Field := ⟨Reg.THERM_FL k j, 0, 16⟩
def Fld.THERM_FL_I (k : Nat) (j : Nat) : Field := ⟨Reg.THERM_FL k j, 16, 15⟩
def Fld.THERM_FL_EN (k : Nat) (j : Nat) : Field := ⟨Reg.THERM_FL k j, 31, 1⟩
def Reg.THERM_ILIM (k : Nat) : Nat := 0x40016200 + k * 0x10
def Fld.THERM_ILIM_I (k : Nat) : Field := ⟨Reg.THERM_ILIM k, 0, 16⟩
def Fld.THERM_ILIM_HOT (k : Nat) : Field := ⟨Reg.THERM_ILIM k, 16, 1⟩
def Fld.THERM_ILIM_LVL_CONN (k : Nat) : Field := ⟨Reg.THERM_ILIM k, 17, 2⟩
def Fld.THERM_ILIM_LVL_COOL (k : Nat) : Field := ⟨Reg.THERM_ILIM k, 19, 2⟩
def Fld.THERM_ILIM_LVL_FLOW (k : Nat) : Field := ⟨Reg.THERM_ILIM k, 21, 2⟩
def Fld.THERM_ILIM_FU (k : Nat) : Field := ⟨Reg.THERM_ILIM k, 23, 1⟩
def Fld.THERM_ILIM_RTDF (k : Nat) : Field := ⟨Reg.THERM_ILIM k, 24, 1⟩
def Fld.THERM_ILIM_DRY (k : Nat) : Field := ⟨Reg.THERM_ILIM k, 25, 1⟩
def Reg.THERM_RUN (k : Nat) : Nat := 0x40016204 + k * 0x10
def Fld.THERM_RUN_RUNS (k : Nat) : Field := ⟨Reg.THERM_RUN k, 0, 24⟩
def Reg.THERM_HEAT (k : Nat) : Nat := 0x40016208 + k * 0x10
def Fld.THERM_HEAT_W (k : Nat) : Field := ⟨Reg.THERM_HEAT k, 0, 31⟩
def Fld.THERM_HEAT_HEAT_VALID (k : Nat) : Field := ⟨Reg.THERM_HEAT k, 31, 1⟩
def Reg.THERM_EVAL_CNT (k : Nat) : Nat := 0x4001620c + k * 0x10
def Fld.THERM_EVAL_CNT_CNT (k : Nat) : Field := ⟨Reg.THERM_EVAL_CNT k, 0, 32⟩
def Reg.MET_FE_CH_CFG (n : Nat) : Nat := 0x4000c040 + n * 4
def Fld.MET_FE_CH_CFG_EN (n : Nat) : Field := ⟨Reg.MET_FE_CH_CFG n, 0, 1⟩
def Fld.MET_FE_CH_CFG_MODE (n : Nat) : Field := ⟨Reg.MET_FE_CH_CFG n, 1, 3⟩
def Fld.MET_FE_CH_CFG_PGA (n : Nat) : Field := ⟨Reg.MET_FE_CH_CFG n, 4, 3⟩
def Fld.MET_FE_CH_CFG_PGA_LO (n : Nat) : Field := ⟨Reg.MET_FE_CH_CFG n, 8, 3⟩
def Fld.MET_FE_CH_CFG_AUTO (n : Nat) : Field := ⟨Reg.MET_FE_CH_CFG n, 11, 1⟩
def Fld.MET_FE_CH_CFG_FILT (n : Nat) : Field := ⟨Reg.MET_FE_CH_CFG n, 12, 1⟩
def Fld.MET_FE_CH_CFG_HPF_EN (n : Nat) : Field := ⟨Reg.MET_FE_CH_CFG n, 13, 1⟩
def Fld.MET_FE_CH_CFG_RUP_CYC (n : Nat) : Field := ⟨Reg.MET_FE_CH_CFG n, 16, 4⟩
def Fld.MET_FE_CH_CFG_INT_LEAK (n : Nat) : Field := ⟨Reg.MET_FE_CH_CFG n, 20, 4⟩
def Reg.MET_FE_CH_STAT (n : Nat) : Nat := 0x4000c080 + n * 4
def Fld.MET_FE_CH_STAT_SETTLE_LEFT (n : Nat) : Field := ⟨Reg.MET_FE_CH_STAT n, 0, 5⟩
def Fld.MET_FE_CH_STAT_RNG (n : Nat) : Field := ⟨Reg.MET_FE_CH_STAT n, 8, 1⟩
def Fld.MET_FE_CH_STAT_OVL (n : Nat) : Field := ⟨Reg.MET_FE_CH_STAT n, 9, 1⟩
def Fld.MET_FE_CH_STAT_RCHG_CNT (n : Nat) : Field := ⟨Reg.MET_FE_CH_STAT n, 16, 16⟩
def Reg.MET_FE_LAST (n : Nat) : Nat := 0x4000c100 + n * 4
def Fld.MET_FE_LAST_WORD (n : Nat) : Field := ⟨Reg.MET_FE_LAST n, 0, 32⟩
def Reg.MET_FE_SNAP (n : Nat) : Nat := 0x4000c140 + n * 4
def Fld.MET_FE_SNAP_WORD (n : Nat) : Field := ⟨Reg.MET_FE_SNAP n, 0, 32⟩
def Reg.MET_FE_SNAP_AT (n : Nat) : Nat := 0x4000c180 + n * 4
def Fld.MET_FE_SNAP_AT_TICK (n : Nat) : Field := ⟨Reg.MET_FE_SNAP_AT n, 0, 8⟩
def Fld.MET_FE_SNAP_AT_CYC (n : Nat) : Field := ⟨Reg.MET_FE_SNAP_AT n, 8, 24⟩
def Reg.MET_FE_SNAP_STAT : Nat := 0x4000c1c0
def Fld.MET_FE_SNAP_STAT_NEW : Field := ⟨Reg.MET_FE_SNAP_STAT, 0, 16⟩
def Fld.MET_FE_SNAP_STAT_OVR : Field := ⟨Reg.MET_FE_SNAP_STAT, 16, 16⟩
def Reg.MET_FE_FE_STATUS : Nat := 0x4000c1c4
def Fld.MET_FE_FE_STATUS_RUNNING : Field := ⟨Reg.MET_FE_FE_STATUS, 0, 1⟩
def Reg.MET_FE_CNT_CFG (n : Nat) : Nat := 0x4000c200 + n * 8
def Fld.MET_FE_CNT_CFG_EN (n : Nat) : Field := ⟨Reg.MET_FE_CNT_CFG n, 0, 1⟩
def Fld.MET_FE_CNT_CFG_EDGE (n : Nat) : Field := ⟨Reg.MET_FE_CNT_CFG n, 1, 2⟩
def Fld.MET_FE_CNT_CFG_PULL (n : Nat) : Field := ⟨Reg.MET_FE_CNT_CFG n, 3, 1⟩
def Fld.MET_FE_CNT_CFG_DEB (n : Nat) : Field := ⟨Reg.MET_FE_CNT_CFG n, 8, 7⟩
def Fld.MET_FE_CNT_CFG_LEVEL (n : Nat) : Field := ⟨Reg.MET_FE_CNT_CFG n, 16, 1⟩
def Reg.MET_FE_CNT (n : Nat) : Nat := 0x4000c204 + n * 8
def Fld.MET_FE_CNT_CNT (n : Nat) : Field := ⟨Reg.MET_FE_CNT n, 0, 32⟩
def Reg.MET_FE_CNT_AT (n : Nat) : Nat := 0x4000c220 + n * 4
def Fld.MET_FE_CNT_AT_NOTIME (n : Nat) : Field := ⟨Reg.MET_FE_CNT_AT n, 0, 1⟩
def Fld.MET_FE_CNT_AT_TICK (n : Nat) : Field := ⟨Reg.MET_FE_CNT_AT n, 8, 8⟩
def Fld.MET_FE_CNT_AT_CYC (n : Nat) : Field := ⟨Reg.MET_FE_CNT_AT n, 16, 16⟩
def Reg.MET_CAL_TC_CFG : Nat := 0x4000d040
def Fld.MET_CAL_TC_CFG_NPTS : Field := ⟨Reg.MET_CAL_TC_CFG, 0, 4⟩
def Reg.MET_CAL_TC_T (j : Nat) : Nat := 0x4000d044 + j * 4
def Fld.MET_CAL_TC_T_T (j : Nat) : Field := ⟨Reg.MET_CAL_TC_T j, 0, 16⟩
def Reg.MET_CAL_TC_G (n : Nat) (j : Nat) : Nat := 0x4000d080 + n * 0x40 + j * 8
def Fld.MET_CAL_TC_G_GC (n : Nat) (j : Nat) : Field := ⟨Reg.MET_CAL_TC_G n j, 0, 24⟩
def Reg.MET_CAL_TC_P (n : Nat) (j : Nat) : Nat := 0x4000d084 + n * 0x40 + j * 8
def Fld.MET_CAL_TC_P_PD (n : Nat) (j : Nat) : Field := ⟨Reg.MET_CAL_TC_P n j, 0, 18⟩
def Reg.MET_CAL_OFS (n : Nat) : Nat := 0x4000d480 + n * 4
def Fld.MET_CAL_OFS_OFS (n : Nat) : Field := ⟨Reg.MET_CAL_OFS n, 0, 24⟩
def Reg.MET_CAL_GTRIM_LO (n : Nat) : Nat := 0x4000d4c0 + n * 4
def Fld.MET_CAL_GTRIM_LO_G (n : Nat) : Field := ⟨Reg.MET_CAL_GTRIM_LO n, 0, 24⟩
def Reg.MET_CAL_GC_NOW (n : Nat) : Nat := 0x4000d500 + n * 8
def Fld.MET_CAL_GC_NOW_GC (n : Nat) : Field := ⟨Reg.MET_CAL_GC_NOW n, 0, 24⟩
def Reg.MET_CAL_PD_NOW (n : Nat) : Nat := 0x4000d504 + n * 8
def Fld.MET_CAL_PD_NOW_PD (n : Nat) : Field := ⟨Reg.MET_CAL_PD_NOW n, 0, 18⟩
def Reg.MET_CAL_DIE_T : Nat := 0x4000d600
def Fld.MET_CAL_DIE_T_T : Field := ⟨Reg.MET_CAL_DIE_T, 0, 16⟩
def Fld.MET_CAL_DIE_T_CYC : Field := ⟨Reg.MET_CAL_DIE_T, 16, 16⟩
def Reg.MET_CAL_TC_STAT : Nat := 0x4000d604
def Fld.MET_CAL_TC_STAT_NPTS_USED : Field := ⟨Reg.MET_CAL_TC_STAT, 0, 4⟩
def Reg.MET_QTY_QSTAT : Nat := 0x4000e040
def Fld.MET_QTY_QSTAT_N : Field := ⟨Reg.MET_QTY_QSTAT, 0, 9⟩
def Fld.MET_QTY_QSTAT_SPLICED : Field := ⟨Reg.MET_QTY_QSTAT, 9, 1⟩
def Fld.MET_QTY_QSTAT_NOREF : Field := ⟨Reg.MET_QTY_QSTAT, 10, 1⟩
def Fld.MET_QTY_QSTAT_Q_VALID : Field := ⟨Reg.MET_QTY_QSTAT, 11, 1⟩
def Fld.MET_QTY_QSTAT_ANG_VALID : Field := ⟨Reg.MET_QTY_QSTAT, 12, 1⟩
def Fld.MET_QTY_QSTAT_SEQ : Field := ⟨Reg.MET_QTY_QSTAT, 16, 8⟩
def Reg.MET_QTY_QCYC : Nat := 0x4000e044
def Fld.MET_QTY_QCYC_CYC : Field := ⟨Reg.MET_QTY_QCYC, 0, 32⟩
def Reg.MET_QTY_FREQ : Nat := 0x4000e048
def Fld.MET_QTY_FREQ_F : Field := ⟨Reg.MET_QTY_FREQ, 0, 32⟩
def Reg.MET_QTY_CYC_TIME : Nat := 0x4000e04c
def Fld.MET_QTY_CYC_TIME_T : Field := ⟨Reg.MET_QTY_CYC_TIME, 0, 32⟩
def Reg.MET_QTY_RMS (n : Nat) : Nat := 0x4000e080 + n * 4
def Fld.MET_QTY_RMS_X (n : Nat) : Field := ⟨Reg.MET_QTY_RMS n, 0, 32⟩
def Reg.MET_QTY_MEAN (n : Nat) : Nat := 0x4000e0c0 + n * 4
def Fld.MET_QTY_MEAN_X (n : Nat) : Field := ⟨Reg.MET_QTY_MEAN n, 0, 32⟩
def Reg.MET_QTY_HELD_CYC (n : Nat) : Nat := 0x4000e100 + n * 4
def Fld.MET_QTY_HELD_CYC_CNT (n : Nat) : Field := ⟨Reg.MET_QTY_HELD_CYC n, 0, 9⟩
def Reg.MET_QTY_HELD_TOT (n : Nat) : Nat := 0x4000e140 + n * 4
def Fld.MET_QTY_HELD_TOT_CNT (n : Nat) : Field := ⟨Reg.MET_QTY_HELD_TOT n, 0, 32⟩
def Reg.MET_QTY_ANG (n : Nat) : Nat := 0x4000e180 + n * 4
def Fld.MET_QTY_ANG_A (n : Nat) : Field := ⟨Reg.MET_QTY_ANG n, 0, 16⟩
def Reg.MET_QTY_P (s : Nat) : Nat := 0x4000e1c0 + s * 0x10
def Fld.MET_QTY_P_P (s : Nat) : Field := ⟨Reg.MET_QTY_P s, 0, 32⟩
def Reg.MET_QTY_Q (s : Nat) : Nat := 0x4000e1c4 + s * 0x10
def Fld.MET_QTY_Q_Q (s : Nat) : Field := ⟨Reg.MET_QTY_Q s, 0, 32⟩
def Reg.MET_QTY_S (s : Nat) : Nat := 0x4000e1c8 + s * 0x10
def Fld.MET_QTY_S_S (s : Nat) : Field := ⟨Reg.MET_QTY_S s, 0, 32⟩
def Reg.MET_QTY_PF (s : Nat) : Nat := 0x4000e1cc + s * 0x10
def Fld.MET_QTY_PF_PF (s : Nat) : Field := ⟨Reg.MET_QTY_PF s, 0, 16⟩
def Reg.MET_QTY_SCALE (n : Nat) : Nat := 0x4000e240 + n * 4
def Fld.MET_QTY_SCALE_FS (n : Nat) : Field := ⟨Reg.MET_QTY_SCALE n, 0, 32⟩
def Reg.ENERGY_OUT_CFG (k : Nat) : Nat := 0x4000f040 + k * 0x20
def Fld.ENERGY_OUT_CFG_EN (k : Nat) : Field := ⟨Reg.ENERGY_OUT_CFG k, 0, 1⟩
def Fld.ENERGY_OUT_CFG_TYPE (k : Nat) : Field := ⟨Reg.ENERGY_OUT_CFG k, 1, 1⟩
def Fld.ENERGY_OUT_CFG_TYPE_OK (k : Nat) : Field := ⟨Reg.ENERGY_OUT_CFG k, 2, 1⟩
def Reg.ENERGY_CL_CFG (k : Nat) : Nat := 0x4000f044 + k * 0x20
def Fld.ENERGY_CL_CFG_TSRC (k : Nat) : Field := ⟨Reg.ENERGY_CL_CFG k, 0, 2⟩
def Fld.ENERGY_CL_CFG_TSEL (k : Nat) : Field := ⟨Reg.ENERGY_CL_CFG k, 2, 3⟩
def Fld.ENERGY_CL_CFG_TMAX (k : Nat) : Field := ⟨Reg.ENERGY_CL_CFG k, 16, 16⟩
def Reg.ENERGY_RCAB20 (k : Nat) : Nat := 0x4000f048 + k * 0x20
def Fld.ENERGY_RCAB20_R (k : Nat) : Field := ⟨Reg.ENERGY_RCAB20 k, 0, 16⟩
def Fld.ENERGY_RCAB20_ALPHA (k : Nat) : Field := ⟨Reg.ENERGY_RCAB20 k, 16, 16⟩
def Reg.ENERGY_CL_STAT (k : Nat) : Nat := 0x4000f04c + k * 0x20
def Fld.ENERGY_CL_STAT_T_USED (k : Nat) : Field := ⟨Reg.ENERGY_CL_STAT k, 0, 16⟩
def Fld.ENERGY_CL_STAT_FALLBACK (k : Nat) : Field := ⟨Reg.ENERGY_CL_STAT k, 16, 1⟩
def Reg.ENERGY_RCAB_NOW (k : Nat) : Nat := 0x4000f050 + k * 0x20
def Fld.ENERGY_RCAB_NOW_R (k : Nat) : Field := ⟨Reg.ENERGY_RCAB_NOW k, 0, 32⟩
def Reg.ENERGY_FB_CYC (k : Nat) : Nat := 0x4000f054 + k * 0x20
def Fld.ENERGY_FB_CYC_CNT (k : Nat) : Field := ⟨Reg.ENERGY_FB_CYC k, 0, 32⟩
def Reg.ENERGY_TOT_LO (k : Nat) (t : Nat) (d : Nat) : Nat := 0x4000f200 + k * 0x80 + (t - 1) * 0x10 + d * 8
def Fld.ENERGY_TOT_LO_E (k : Nat) (t : Nat) (d : Nat) : Field := ⟨Reg.ENERGY_TOT_LO k t d, 0, 32⟩
def Reg.ENERGY_TOT_HI (k : Nat) (t : Nat) (d : Nat) : Nat := 0x4000f204 + k * 0x80 + (t - 1) * 0x10 + d * 8
def Fld.ENERGY_TOT_HI_E (k : Nat) (t : Nat) (d : Nat) : Field := ⟨Reg.ENERGY_TOT_HI k t d, 0, 32⟩
def Reg.ENERGY_IN_TOT_LO (d : Nat) : Nat := 0x4000f400 + d * 8
def Fld.ENERGY_IN_TOT_LO_E (d : Nat) : Field := ⟨Reg.ENERGY_IN_TOT_LO d, 0, 32⟩
def Reg.ENERGY_IN_TOT_HI (d : Nat) : Nat := 0x4000f404 + d * 8
def Fld.ENERGY_IN_TOT_HI_E (d : Nat) : Field := ⟨Reg.ENERGY_IN_TOT_HI d, 0, 32⟩
def Reg.ENERGY_RAW_LO (k : Nat) : Nat := 0x4000f410 + k * 0x10
def Fld.ENERGY_RAW_LO_E (k : Nat) : Field := ⟨Reg.ENERGY_RAW_LO k, 0, 32⟩
def Reg.ENERGY_RAW_HI (k : Nat) : Nat := 0x4000f414 + k * 0x10
def Fld.ENERGY_RAW_HI_E (k : Nat) : Field := ⟨Reg.ENERGY_RAW_HI k, 0, 32⟩
def Reg.ENERGY_LOSS_LO (k : Nat) : Nat := 0x4000f418 + k * 0x10
def Fld.ENERGY_LOSS_LO_E (k : Nat) : Field := ⟨Reg.ENERGY_LOSS_LO k, 0, 32⟩
def Reg.ENERGY_LOSS_HI (k : Nat) : Nat := 0x4000f41c + k * 0x10
def Fld.ENERGY_LOSS_HI_E (k : Nat) : Field := ⟨Reg.ENERGY_LOSS_HI k, 0, 32⟩
def Reg.ENERGY_ACT_TARIFF : Nat := 0x4000f480
def Fld.ENERGY_ACT_TARIFF_T : Field := ⟨Reg.ENERGY_ACT_TARIFF, 0, 16⟩
def Reg.ENERGY_ESNAP_LO (k : Nat) (d : Nat) : Nat := 0x4000f500 + k * 0x10 + d * 8
def Fld.ENERGY_ESNAP_LO_E (k : Nat) (d : Nat) : Field := ⟨Reg.ENERGY_ESNAP_LO k d, 0, 32⟩
def Reg.ENERGY_ESNAP_HI (k : Nat) (d : Nat) : Nat := 0x4000f504 + k * 0x10 + d * 8
def Fld.ENERGY_ESNAP_HI_E (k : Nat) (d : Nat) : Field := ⟨Reg.ENERGY_ESNAP_HI k d, 0, 32⟩
def Reg.ENERGY_ESNAP_IN_LO (d : Nat) : Nat := 0x4000f540 + d * 8
def Fld.ENERGY_ESNAP_IN_LO_E (d : Nat) : Field := ⟨Reg.ENERGY_ESNAP_IN_LO d, 0, 32⟩
def Reg.ENERGY_ESNAP_IN_HI (d : Nat) : Nat := 0x4000f544 + d * 8
def Fld.ENERGY_ESNAP_IN_HI_E (d : Nat) : Field := ⟨Reg.ENERGY_ESNAP_IN_HI d, 0, 32⟩
def Reg.ENERGY_ESNAP_AT : Nat := 0x4000f550
def Fld.ENERGY_ESNAP_AT_CYC : Field := ⟨Reg.ENERGY_ESNAP_AT, 0, 32⟩
def Reg.ENERGY_ESNAP_STAT : Nat := 0x4000f554
def Fld.ENERGY_ESNAP_STAT_NEW : Field := ⟨Reg.ENERGY_ESNAP_STAT, 0, 1⟩
def Fld.ENERGY_ESNAP_STAT_OVR : Field := ⟨Reg.ENERGY_ESNAP_STAT, 1, 1⟩
def Reg.PULSE_PLS_CFG (m : Nat) : Nat := 0x40010040 + m * 0x10
def Fld.PULSE_PLS_CFG_EN (m : Nat) : Field := ⟨Reg.PULSE_PLS_CFG m, 0, 1⟩
def Fld.PULSE_PLS_CFG_SRC (m : Nat) : Field := ⟨Reg.PULSE_PLS_CFG m, 1, 4⟩
def Fld.PULSE_PLS_CFG_WIDTH (m : Nat) : Field := ⟨Reg.PULSE_PLS_CFG m, 8, 7⟩
def Fld.PULSE_PLS_CFG_ACT_LOW (m : Nat) : Field := ⟨Reg.PULSE_PLS_CFG m, 15, 1⟩
def Fld.PULSE_PLS_CFG_OD (m : Nat) : Field := ⟨Reg.PULSE_PLS_CFG m, 16, 1⟩
def Reg.PULSE_PLS_WEIGHT (m : Nat) : Nat := 0x40010044 + m * 0x10
def Fld.PULSE_PLS_WEIGHT_W (m : Nat) : Field := ⟨Reg.PULSE_PLS_WEIGHT m, 0, 32⟩
def Reg.PULSE_PLS_STAT (m : Nat) : Nat := 0x40010048 + m * 0x10
def Fld.PULSE_PLS_STAT_BACKLOG (m : Nat) : Field := ⟨Reg.PULSE_PLS_STAT m, 0, 8⟩
def Fld.PULSE_PLS_STAT_W_USED (m : Nat) : Field := ⟨Reg.PULSE_PLS_STAT m, 8, 7⟩
def Fld.PULSE_PLS_STAT_ACTIVE (m : Nat) : Field := ⟨Reg.PULSE_PLS_STAT m, 15, 1⟩
def Fld.PULSE_PLS_STAT_OVF (m : Nat) : Field := ⟨Reg.PULSE_PLS_STAT m, 16, 1⟩
def Reg.PULSE_PLS_CNT (m : Nat) : Nat := 0x4001004c + m * 0x10
def Fld.PULSE_PLS_CNT_CNT (m : Nat) : Field := ⟨Reg.PULSE_PLS_CNT m, 0, 32⟩
def Reg.PULSE_LOST (m : Nat) : Nat := 0x40010060 + m * 4
def Fld.PULSE_LOST_CNT (m : Nat) : Field := ⟨Reg.PULSE_LOST m, 0, 32⟩
def Reg.MEMCTL_BANK_OWN (n : Nat) : Nat := 0x40009040 + n * 4
def Fld.MEMCTL_BANK_OWN_OWNER (n : Nat) : Field := ⟨Reg.MEMCTL_BANK_OWN n, 0, 3⟩
def Fld.MEMCTL_BANK_OWN_IN_TRANSIT (n : Nat) : Field := ⟨Reg.MEMCTL_BANK_OWN n, 3, 1⟩
def Fld.MEMCTL_BANK_OWN_PREV (n : Nat) : Field := ⟨Reg.MEMCTL_BANK_OWN n, 4, 3⟩
def Reg.MEMCTL_ECC_CNT (n : Nat) : Nat := 0x400090a0 + n * 4
def Fld.MEMCTL_ECC_CNT_CE (n : Nat) : Field := ⟨Reg.MEMCTL_ECC_CNT n, 0, 16⟩
def Fld.MEMCTL_ECC_CNT_UE (n : Nat) : Field := ⟨Reg.MEMCTL_ECC_CNT n, 16, 16⟩
def Reg.MEMCTL_CNT_CLR : Nat := 0x40009100
def Fld.MEMCTL_CNT_CLR_CLR : Field := ⟨Reg.MEMCTL_CNT_CLR, 0, 1⟩
def Reg.MEMCTL_CE_THR : Nat := 0x40009104
def Fld.MEMCTL_CE_THR_THR : Field := ⟨Reg.MEMCTL_CE_THR, 0, 16⟩
def Reg.MEMCTL_ERR_ADDR : Nat := 0x40009110
def Fld.MEMCTL_ERR_ADDR_ADDR : Field := ⟨Reg.MEMCTL_ERR_ADDR, 0, 32⟩
def Reg.MEMCTL_ERR_INFO : Nat := 0x40009114
def Fld.MEMCTL_ERR_INFO_CLASS : Field := ⟨Reg.MEMCTL_ERR_INFO, 0, 3⟩
def Fld.MEMCTL_ERR_INFO_SYND : Field := ⟨Reg.MEMCTL_ERR_INFO, 3, 7⟩
def Fld.MEMCTL_ERR_INFO_GROUP : Field := ⟨Reg.MEMCTL_ERR_INFO, 10, 3⟩
def Fld.MEMCTL_ERR_INFO_BANK : Field := ⟨Reg.MEMCTL_ERR_INFO, 13, 5⟩
def Fld.MEMCTL_ERR_INFO_WRITE : Field := ⟨Reg.MEMCTL_ERR_INFO, 18, 1⟩
def Fld.MEMCTL_ERR_INFO_VALID : Field := ⟨Reg.MEMCTL_ERR_INFO, 19, 1⟩
def Fld.MEMCTL_ERR_INFO_OVR : Field := ⟨Reg.MEMCTL_ERR_INFO, 20, 1⟩
def Reg.MEMCTL_NONOWN_ADDR : Nat := 0x40009118
def Fld.MEMCTL_NONOWN_ADDR_ADDR : Field := ⟨Reg.MEMCTL_NONOWN_ADDR, 0, 32⟩
def Reg.MEMCTL_NONOWN_INFO : Nat := 0x4000911c
def Fld.MEMCTL_NONOWN_INFO_BANK : Field := ⟨Reg.MEMCTL_NONOWN_INFO, 0, 5⟩
def Fld.MEMCTL_NONOWN_INFO_GROUP : Field := ⟨Reg.MEMCTL_NONOWN_INFO, 5, 3⟩
def Fld.MEMCTL_NONOWN_INFO_VALID : Field := ⟨Reg.MEMCTL_NONOWN_INFO, 8, 1⟩
def Reg.MEMCTL_CLEAR : Nat := 0x40009120
def Fld.MEMCTL_CLEAR_GO : Field := ⟨Reg.MEMCTL_CLEAR, 0, 1⟩
def Fld.MEMCTL_CLEAR_BUSY : Field := ⟨Reg.MEMCTL_CLEAR, 1, 1⟩
def Fld.MEMCTL_CLEAR_DONE : Field := ⟨Reg.MEMCTL_CLEAR, 2, 1⟩
def Reg.MEMCTL_REPAIR (n : Nat) : Nat := 0x40009140 + n * 4
def Fld.MEMCTL_REPAIR_USED (n : Nat) : Field := ⟨Reg.MEMCTL_REPAIR n, 0, 2⟩
def Reg.MEMCTL_STORE_CFG (g : Nat) : Nat := 0x40009200 + g * 0x10
def Fld.MEMCTL_STORE_CFG_BANK (g : Nat) : Field := ⟨Reg.MEMCTL_STORE_CFG g, 0, 4⟩
def Fld.MEMCTL_STORE_CFG_EN (g : Nat) : Field := ⟨Reg.MEMCTL_STORE_CFG g, 4, 1⟩
def Fld.MEMCTL_STORE_CFG_WRAP (g : Nat) : Field := ⟨Reg.MEMCTL_STORE_CFG g, 5, 1⟩
def Fld.MEMCTL_STORE_CFG_WORD0 (g : Nat) : Field := ⟨Reg.MEMCTL_STORE_CFG g, 16, 13⟩
def Reg.MEMCTL_STORE_LEN (g : Nat) : Nat := 0x40009204 + g * 0x10
def Fld.MEMCTL_STORE_LEN_NWORDS (g : Nat) : Field := ⟨Reg.MEMCTL_STORE_LEN g, 0, 14⟩
def Reg.MEMCTL_STORE_PTR (g : Nat) : Nat := 0x40009208 + g * 0x10
def Fld.MEMCTL_STORE_PTR_PTR (g : Nat) : Field := ⟨Reg.MEMCTL_STORE_PTR g, 0, 13⟩
def Reg.MEMCTL_STORE_CHMASK (g : Nat) : Nat := 0x4000920c + g * 0x10
def Fld.MEMCTL_STORE_CHMASK_MASK (g : Nat) : Field := ⟨Reg.MEMCTL_STORE_CHMASK g, 0, 16⟩
def Reg.DPM_DPM_STAT : Nat := 0x40023040
def Fld.DPM_DPM_STAT_COLL_CNT : Field := ⟨Reg.DPM_DPM_STAT, 0, 16⟩
def Fld.DPM_DPM_STAT_LAST_LATER : Field := ⟨Reg.DPM_DPM_STAT, 16, 1⟩
def Fld.DPM_DPM_STAT_AT_LIMIT : Field := ⟨Reg.DPM_DPM_STAT, 17, 1⟩
def Fld.DPM_DPM_STAT_BUSY_PIN : Field := ⟨Reg.DPM_DPM_STAT, 18, 1⟩
def Reg.DPM_COLL_ADDR : Nat := 0x40023044
def Fld.DPM_COLL_ADDR_WORD : Field := ⟨Reg.DPM_COLL_ADDR, 0, 11⟩
def Reg.DPM_RETRY_CFG : Nat := 0x40023048
def Fld.DPM_RETRY_CFG_RETRY_MAX : Field := ⟨Reg.DPM_RETRY_CFG, 0, 4⟩
def Reg.DPM_COLL_CLR : Nat := 0x4002304c
def Fld.DPM_COLL_CLR_CLR : Field := ⟨Reg.DPM_COLL_CLR, 0, 1⟩
def Reg.MULE_CTRL : Nat := 0x40008040
def Fld.MULE_CTRL_EN : Field := ⟨Reg.MULE_CTRL, 0, 1⟩
def Fld.MULE_CTRL_STAGE_BANK : Field := ⟨Reg.MULE_CTRL, 4, 4⟩
def Reg.MULE_STATUS : Nat := 0x40008044
def Fld.MULE_STATUS_STATE : Field := ⟨Reg.MULE_STATUS, 0, 3⟩
def Fld.MULE_STATUS_PFW : Field := ⟨Reg.MULE_STATUS, 3, 1⟩
def Fld.MULE_STATUS_FORCED_PEND : Field := ⟨Reg.MULE_STATUS, 4, 1⟩
def Fld.MULE_STATUS_RESIDENT : Field := ⟨Reg.MULE_STATUS, 8, 7⟩
def Fld.MULE_STATUS_LC_PINS : Field := ⟨Reg.MULE_STATUS, 16, 6⟩
def Fld.MULE_STATUS_HOLDS : Field := ⟨Reg.MULE_STATUS, 22, 4⟩
def Fld.MULE_STATUS_PARKED : Field := ⟨Reg.MULE_STATUS, 26, 6⟩
def Reg.MULE_SAVE_CFG : Nat := 0x40008048
def Fld.MULE_SAVE_CFG_SAVE_PERIOD : Field := ⟨Reg.MULE_SAVE_CFG, 0, 16⟩
def Reg.MULE_SAVE_MAX : Nat := 0x4000804c
def Fld.MULE_SAVE_MAX_MAX : Field := ⟨Reg.MULE_SAVE_MAX, 0, 16⟩
def Reg.MULE_EPOCH_OPEN : Nat := 0x40008050
def Fld.MULE_EPOCH_OPEN_E : Field := ⟨Reg.MULE_EPOCH_OPEN, 0, 32⟩
def Reg.MULE_LAST_COMMIT : Nat := 0x40008054
def Fld.MULE_LAST_COMMIT_E : Field := ⟨Reg.MULE_LAST_COMMIT, 0, 32⟩
def Reg.MULE_LAST_CYC : Nat := 0x40008058
def Fld.MULE_LAST_CYC_CYC : Field := ⟨Reg.MULE_LAST_CYC, 0, 32⟩
def Reg.MULE_LAST_RTC_LO : Nat := 0x4000805c
def Fld.MULE_LAST_RTC_LO_TIME : Field := ⟨Reg.MULE_LAST_RTC_LO, 0, 32⟩
def Reg.MULE_LAST_RTC_HI : Nat := 0x40008060
def Fld.MULE_LAST_RTC_HI_TIME : Field := ⟨Reg.MULE_LAST_RTC_HI, 0, 32⟩
def Reg.MULE_SINCE : Nat := 0x40008064
def Fld.MULE_SINCE_CYC : Field := ⟨Reg.MULE_SINCE, 0, 32⟩
def Reg.MULE_RESTORE : Nat := 0x40008068
def Fld.MULE_RESTORE_RESULT : Field := ⟨Reg.MULE_RESTORE, 0, 3⟩
def Fld.MULE_RESTORE_FORCED_CNT : Field := ⟨Reg.MULE_RESTORE, 16, 11⟩
def Reg.MULE_PIN : Nat := 0x4000806c
def Fld.MULE_PIN_ACCT : Field := ⟨Reg.MULE_PIN, 0, 10⟩
def Fld.MULE_PIN_OP : Field := ⟨Reg.MULE_PIN, 16, 2⟩
def Fld.MULE_PIN_GO : Field := ⟨Reg.MULE_PIN, 31, 1⟩
def Reg.MULE_PIN_STAT : Nat := 0x40008070
def Fld.MULE_PIN_STAT_BUSY : Field := ⟨Reg.MULE_PIN_STAT, 0, 1⟩
def Fld.MULE_PIN_STAT_RESULT : Field := ⟨Reg.MULE_PIN_STAT, 1, 4⟩
def Reg.MULE_CMD : Nat := 0x40008074
def Fld.MULE_CMD_OP : Field := ⟨Reg.MULE_CMD, 0, 3⟩
def Fld.MULE_CMD_ACCT : Field := ⟨Reg.MULE_CMD, 16, 10⟩
def Fld.MULE_CMD_GO : Field := ⟨Reg.MULE_CMD, 31, 1⟩
def Reg.MULE_CMD_STAT : Nat := 0x40008078
def Fld.MULE_CMD_STAT_BUSY : Field := ⟨Reg.MULE_CMD_STAT, 0, 1⟩
def Fld.MULE_CMD_STAT_RESULT : Field := ⟨Reg.MULE_CMD_STAT, 1, 4⟩
def Reg.MULE_ERR_INFO : Nat := 0x4000807c
def Fld.MULE_ERR_INFO_ACCT : Field := ⟨Reg.MULE_ERR_INFO, 0, 10⟩
def Fld.MULE_ERR_INFO_CAUSE : Field := ⟨Reg.MULE_ERR_INFO, 12, 4⟩
def Fld.MULE_ERR_INFO_SRC : Field := ⟨Reg.MULE_ERR_INFO, 16, 3⟩
def Fld.MULE_ERR_INFO_VALID : Field := ⟨Reg.MULE_ERR_INFO, 20, 1⟩
def Fld.MULE_ERR_INFO_OVR : Field := ⟨Reg.MULE_ERR_INFO, 21, 1⟩
def Reg.MULE_PAGEIN_CNT : Nat := 0x40008080
def Fld.MULE_PAGEIN_CNT_CNT : Field := ⟨Reg.MULE_PAGEIN_CNT, 0, 32⟩
def Reg.MULE_DIRTY_CNT : Nat := 0x40008084
def Fld.MULE_DIRTY_CNT_CNT : Field := ⟨Reg.MULE_DIRTY_CNT, 0, 32⟩
def Reg.MULE_PARK_CNT : Nat := 0x40008088
def Fld.MULE_PARK_CNT_CNT : Field := ⟨Reg.MULE_PARK_CNT, 0, 32⟩
def Reg.MULE_EPOCH_CNT : Nat := 0x4000808c
def Fld.MULE_EPOCH_CNT_CNT : Field := ⟨Reg.MULE_EPOCH_CNT, 0, 32⟩
def Reg.MULE_EPOCH_FAIL_CNT : Nat := 0x40008090
def Fld.MULE_EPOCH_FAIL_CNT_CNT : Field := ⟨Reg.MULE_EPOCH_FAIL_CNT, 0, 32⟩
def Reg.MULE_STALL_MAX : Nat := 0x40008094
def Fld.MULE_STALL_MAX_T : Field := ⟨Reg.MULE_STALL_MAX, 0, 16⟩
def Reg.MULE_PAGEIN_MAX : Nat := 0x40008098
def Fld.MULE_PAGEIN_MAX_T : Field := ⟨Reg.MULE_PAGEIN_MAX, 0, 16⟩
def Reg.MULE_CNT_CLR : Nat := 0x4000809c
def Fld.MULE_CNT_CLR_CLR : Field := ⟨Reg.MULE_CNT_CLR, 0, 1⟩
def Reg.MULE_FRAME (f : Nat) : Nat := 0x40008100 + f * 4
def Fld.MULE_FRAME_ACCT (f : Nat) : Field := ⟨Reg.MULE_FRAME f, 0, 10⟩
def Fld.MULE_FRAME_VALID (f : Nat) : Field := ⟨Reg.MULE_FRAME f, 16, 1⟩
def Fld.MULE_FRAME_DIRTY (f : Nat) : Field := ⟨Reg.MULE_FRAME f, 17, 1⟩
def Fld.MULE_FRAME_REF (f : Nat) : Field := ⟨Reg.MULE_FRAME f, 18, 1⟩
def Fld.MULE_FRAME_PIN (f : Nat) : Field := ⟨Reg.MULE_FRAME f, 19, 1⟩
def Fld.MULE_FRAME_HOLD (f : Nat) : Field := ⟨Reg.MULE_FRAME f, 20, 4⟩
def Fld.MULE_FRAME_SLOT (f : Nat) : Field := ⟨Reg.MULE_FRAME f, 24, 1⟩
def Reg.FWALL_ENA_CTRL : Nat := 0x4000b040
def Fld.FWALL_ENA_CTRL_EN : Field := ⟨Reg.FWALL_ENA_CTRL, 0, 4⟩
def Reg.FWALL_ENA_STAT : Nat := 0x4000b044
def Fld.FWALL_ENA_STAT_PIN : Field := ⟨Reg.FWALL_ENA_STAT, 0, 4⟩
def Reg.FWALL_LWDG_CFG : Nat := 0x4000b048
def Fld.FWALL_LWDG_CFG_TMO : Field := ⟨Reg.FWALL_LWDG_CFG, 0, 10⟩
def Reg.FWALL_LWDG_KICK : Nat := 0x4000b04c
def Fld.FWALL_LWDG_KICK_KICK : Field := ⟨Reg.FWALL_LWDG_KICK, 0, 1⟩
def Reg.FWALL_LWDG_STAT : Nat := 0x4000b050
def Fld.FWALL_LWDG_STAT_LEFT : Field := ⟨Reg.FWALL_LWDG_STAT, 0, 10⟩
def Fld.FWALL_LWDG_STAT_AT_LIMIT : Field := ⟨Reg.FWALL_LWDG_STAT, 16, 1⟩
def Fld.FWALL_LWDG_STAT_EXP_CNT : Field := ⟨Reg.FWALL_LWDG_STAT, 24, 8⟩
def Reg.FWALL_CHK : Nat := 0x4000b060
def Fld.FWALL_CHK_CRC : Field := ⟨Reg.FWALL_CHK, 0, 32⟩
def Reg.FWALL_IMG_VER : Nat := 0x4000b064
def Fld.FWALL_IMG_VER_VER : Field := ⟨Reg.FWALL_IMG_VER, 0, 32⟩
def Reg.FWALL_IMG_LEN : Nat := 0x4000b068
def Fld.FWALL_IMG_LEN_LEN : Field := ⟨Reg.FWALL_IMG_LEN, 0, 32⟩
def Reg.FWALL_IMG_SIL : Nat := 0x4000b06c
def Fld.FWALL_IMG_SIL_SIL_MIN : Field := ⟨Reg.FWALL_IMG_SIL, 0, 8⟩
def Fld.FWALL_IMG_SIL_SIL_MAX : Field := ⟨Reg.FWALL_IMG_SIL, 8, 8⟩
def Reg.FWALL_BOOT_RES : Nat := 0x4000b070
def Fld.FWALL_BOOT_RES_RESULT : Field := ⟨Reg.FWALL_BOOT_RES, 0, 3⟩
def Reg.FWALL_DGST_STAT : Nat := 0x4000b074
def Fld.FWALL_DGST_STAT_USED : Field := ⟨Reg.FWALL_DGST_STAT, 0, 8⟩
def Fld.FWALL_DGST_STAT_ACTIVE : Field := ⟨Reg.FWALL_DGST_STAT, 8, 4⟩
def Fld.FWALL_DGST_STAT_RESULT : Field := ⟨Reg.FWALL_DGST_STAT, 12, 3⟩
def Fld.FWALL_DGST_STAT_BUSY : Field := ⟨Reg.FWALL_DGST_STAT, 15, 1⟩
def Reg.FWALL_DGST_CMD : Nat := 0x4000b078
def Fld.FWALL_DGST_CMD_GO : Field := ⟨Reg.FWALL_DGST_CMD, 0, 1⟩
def Reg.FWALL_LFL_CMD : Nat := 0x4000b080
def Fld.FWALL_LFL_CMD_OP : Field := ⟨Reg.FWALL_LFL_CMD, 0, 2⟩
def Fld.FWALL_LFL_CMD_PAGE : Field := ⟨Reg.FWALL_LFL_CMD, 8, 10⟩
def Fld.FWALL_LFL_CMD_GO : Field := ⟨Reg.FWALL_LFL_CMD, 31, 1⟩
def Reg.FWALL_LFL_SRC : Nat := 0x4000b084
def Fld.FWALL_LFL_SRC_OFS : Field := ⟨Reg.FWALL_LFL_SRC, 0, 14⟩
def Reg.FWALL_LFL_STAT : Nat := 0x4000b088
def Fld.FWALL_LFL_STAT_BUSY : Field := ⟨Reg.FWALL_LFL_STAT, 0, 1⟩
def Fld.FWALL_LFL_STAT_RESULT : Field := ⟨Reg.FWALL_LFL_STAT, 1, 2⟩
def Reg.FWALL_LFL_SHA (w : Nat) : Nat := 0x4000b0a0 + w * 4
def Fld.FWALL_LFL_SHA_D (w : Nat) : Field := ⟨Reg.FWALL_LFL_SHA w, 0, 32⟩
def Reg.FWALL_VIOL_ADDR : Nat := 0x4000b0c0
def Fld.FWALL_VIOL_ADDR_ADDR : Field := ⟨Reg.FWALL_VIOL_ADDR, 0, 32⟩
def Reg.FWALL_VIOL_INFO : Nat := 0x4000b0c4
def Fld.FWALL_VIOL_INFO_KIND : Field := ⟨Reg.FWALL_VIOL_INFO, 0, 3⟩
def Fld.FWALL_VIOL_INFO_SRC : Field := ⟨Reg.FWALL_VIOL_INFO, 3, 3⟩
def Fld.FWALL_VIOL_INFO_WRITE : Field := ⟨Reg.FWALL_VIOL_INFO, 6, 1⟩
def Fld.FWALL_VIOL_INFO_VALID : Field := ⟨Reg.FWALL_VIOL_INFO, 7, 1⟩
def Fld.FWALL_VIOL_INFO_OVR : Field := ⟨Reg.FWALL_VIOL_INFO, 8, 1⟩
def Reg.FWALL_VIOL_CNT : Nat := 0x4000b0c8
def Fld.FWALL_VIOL_CNT_CNT : Field := ⟨Reg.FWALL_VIOL_CNT, 0, 32⟩
def Reg.CRYPTO_CTRL : Nat := 0x4001a040
def Fld.CRYPTO_CTRL_OP : Field := ⟨Reg.CRYPTO_CTRL, 0, 4⟩
def Fld.CRYPTO_CTRL_KEY : Field := ⟨Reg.CRYPTO_CTRL, 4, 3⟩
def Fld.CRYPTO_CTRL_GO : Field := ⟨Reg.CRYPTO_CTRL, 31, 1⟩
def Reg.CRYPTO_LEN : Nat := 0x4001a044
def Fld.CRYPTO_LEN_LEN : Field := ⟨Reg.CRYPTO_LEN, 0, 9⟩
def Reg.CRYPTO_STAT : Nat := 0x4001a048
def Fld.CRYPTO_STAT_BUSY : Field := ⟨Reg.CRYPTO_STAT, 0, 1⟩
def Fld.CRYPTO_STAT_RESULT : Field := ⟨Reg.CRYPTO_STAT, 1, 3⟩
def Fld.CRYPTO_STAT_TAMPER_DURING : Field := ⟨Reg.CRYPTO_STAT, 4, 1⟩
def Fld.CRYPTO_STAT_KWK_OK : Field := ⟨Reg.CRYPTO_STAT, 5, 1⟩
def Reg.CRYPTO_KS_INFO : Nat := 0x4001a04c
def Fld.CRYPTO_KS_INFO_TYPE : Field := ⟨Reg.CRYPTO_KS_INFO, 0, 16⟩
def Reg.CRYPTO_CRC_ACC : Nat := 0x4001a050
def Fld.CRYPTO_CRC_ACC_ACC : Field := ⟨Reg.CRYPTO_CRC_ACC, 0, 32⟩
def Reg.CRYPTO_DIN (w : Nat) : Nat := 0x4001a100 + w * 4
def Fld.CRYPTO_DIN_D (w : Nat) : Field := ⟨Reg.CRYPTO_DIN w, 0, 32⟩
def Reg.CRYPTO_DOUT (w : Nat) : Nat := 0x4001a200 + w * 4
def Fld.CRYPTO_DOUT_D (w : Nat) : Field := ⟨Reg.CRYPTO_DOUT w, 0, 32⟩
def Reg.LGLMBX_IF_RANGE : Nat := 0x40022040
def Fld.LGLMBX_IF_RANGE_IF_MIN : Field := ⟨Reg.LGLMBX_IF_RANGE, 0, 16⟩
def Fld.LGLMBX_IF_RANGE_IF_MAX : Field := ⟨Reg.LGLMBX_IF_RANGE, 16, 16⟩
def Reg.LGLMBX_RSP_TMO : Nat := 0x40022044
def Fld.LGLMBX_RSP_TMO_TMO : Field := ⟨Reg.LGLMBX_RSP_TMO, 0, 10⟩
def Reg.LGLMBX_REQ_HDR (c : Nat) : Nat := 0x40022100 + c * 0x100
def Fld.LGLMBX_REQ_HDR_OPC (c : Nat) : Field := ⟨Reg.LGLMBX_REQ_HDR c, 0, 8⟩
def Fld.LGLMBX_REQ_HDR_LEN (c : Nat) : Field := ⟨Reg.LGLMBX_REQ_HDR c, 8, 5⟩
def Fld.LGLMBX_REQ_HDR_TAG (c : Nat) : Field := ⟨Reg.LGLMBX_REQ_HDR c, 16, 8⟩
def Fld.LGLMBX_REQ_HDR_GO (c : Nat) : Field := ⟨Reg.LGLMBX_REQ_HDR c, 31, 1⟩
def Reg.LGLMBX_REQ_STAT (c : Nat) : Nat := 0x40022104 + c * 0x100
def Fld.LGLMBX_REQ_STAT_STATE (c : Nat) : Field := ⟨Reg.LGLMBX_REQ_STAT c, 0, 2⟩
def Fld.LGLMBX_REQ_STAT_AT_LIMIT (c : Nat) : Field := ⟨Reg.LGLMBX_REQ_STAT c, 2, 1⟩
def Fld.LGLMBX_REQ_STAT_IF_STATE (c : Nat) : Field := ⟨Reg.LGLMBX_REQ_STAT c, 3, 3⟩
def Reg.LGLMBX_IFVER (c : Nat) : Nat := 0x40022108 + c * 0x100
def Fld.LGLMBX_IFVER_VER (c : Nat) : Field := ⟨Reg.LGLMBX_IFVER c, 0, 16⟩
def Reg.LGLMBX_REQ_DATA (c : Nat) (w : Nat) : Nat := 0x40022110 + c * 0x100 + w * 4
def Fld.LGLMBX_REQ_DATA_D (c : Nat) (w : Nat) : Field := ⟨Reg.LGLMBX_REQ_DATA c w, 0, 32⟩
def Reg.LGLMBX_RSP_HDR (c : Nat) : Nat := 0x40022160 + c * 0x100
def Fld.LGLMBX_RSP_HDR_STATUS (c : Nat) : Field := ⟨Reg.LGLMBX_RSP_HDR c, 0, 8⟩
def Fld.LGLMBX_RSP_HDR_LEN (c : Nat) : Field := ⟨Reg.LGLMBX_RSP_HDR c, 8, 5⟩
def Fld.LGLMBX_RSP_HDR_TAG (c : Nat) : Field := ⟨Reg.LGLMBX_RSP_HDR c, 16, 8⟩
def Fld.LGLMBX_RSP_HDR_RELEASE (c : Nat) : Field := ⟨Reg.LGLMBX_RSP_HDR c, 31, 1⟩
def Reg.LGLMBX_RSP_DATA (c : Nat) (w : Nat) : Nat := 0x40022170 + c * 0x100 + w * 4
def Fld.LGLMBX_RSP_DATA_D (c : Nat) (w : Nat) : Field := ⟨Reg.LGLMBX_RSP_DATA c w, 0, 32⟩
def Reg.RTC_TIME_LO : Nat := 0x40005040
def Fld.RTC_TIME_LO_SEC : Field := ⟨Reg.RTC_TIME_LO, 0, 8⟩
def Fld.RTC_TIME_LO_MIN : Field := ⟨Reg.RTC_TIME_LO, 8, 8⟩
def Fld.RTC_TIME_LO_HOUR : Field := ⟨Reg.RTC_TIME_LO, 16, 8⟩
def Fld.RTC_TIME_LO_DAY : Field := ⟨Reg.RTC_TIME_LO, 24, 8⟩
def Reg.RTC_TIME_HI : Nat := 0x40005044
def Fld.RTC_TIME_HI_MON : Field := ⟨Reg.RTC_TIME_HI, 0, 8⟩
def Fld.RTC_TIME_HI_YEAR : Field := ⟨Reg.RTC_TIME_HI, 8, 8⟩
def Fld.RTC_TIME_HI_WDAY : Field := ⟨Reg.RTC_TIME_HI, 16, 8⟩
def Fld.RTC_TIME_HI_DST : Field := ⟨Reg.RTC_TIME_HI, 24, 1⟩
def Fld.RTC_TIME_HI_TIME_LOST : Field := ⟨Reg.RTC_TIME_HI, 25, 1⟩
def Fld.RTC_TIME_HI_VBATLOW : Field := ⟨Reg.RTC_TIME_HI, 26, 1⟩
def Reg.RTC_SUBSEC : Nat := 0x40005048
def Fld.RTC_SUBSEC_TICKS : Field := ⟨Reg.RTC_SUBSEC, 0, 17⟩
def Reg.RTC_UPTIME_LO : Nat := 0x4000504c
def Fld.RTC_UPTIME_LO_T : Field := ⟨Reg.RTC_UPTIME_LO, 0, 32⟩
def Reg.RTC_UPTIME_HI : Nat := 0x40005050
def Fld.RTC_UPTIME_HI_T : Field := ⟨Reg.RTC_UPTIME_HI, 0, 16⟩
def Reg.RTC_STATUS : Nat := 0x40005054
def Fld.RTC_STATUS_TIME_LOST : Field := ⟨Reg.RTC_STATUS, 0, 1⟩
def Fld.RTC_STATUS_VBATLOW : Field := ⟨Reg.RTC_STATUS, 1, 1⟩
def Fld.RTC_STATUS_LFXO_FAIL : Field := ⟨Reg.RTC_STATUS, 2, 1⟩
def Fld.RTC_STATUS_SLEWING : Field := ⟨Reg.RTC_STATUS, 3, 1⟩
def Fld.RTC_STATUS_PENDING : Field := ⟨Reg.RTC_STATUS, 4, 1⟩
def Reg.RTC_SET_LO : Nat := 0x40005058
def Fld.RTC_SET_LO_T : Field := ⟨Reg.RTC_SET_LO, 0, 32⟩
def Reg.RTC_SET_HI : Nat := 0x4000505c
def Fld.RTC_SET_HI_T : Field := ⟨Reg.RTC_SET_HI, 0, 16⟩
def Fld.RTC_SET_HI_DST : Field := ⟨Reg.RTC_SET_HI, 24, 1⟩
def Reg.RTC_CMD : Nat := 0x40005060
def Fld.RTC_CMD_OP : Field := ⟨Reg.RTC_CMD, 0, 3⟩
def Fld.RTC_CMD_GO : Field := ⟨Reg.RTC_CMD, 31, 1⟩
def Reg.RTC_CMD_STAT : Nat := 0x40005064
def Fld.RTC_CMD_STAT_REASON : Field := ⟨Reg.RTC_CMD_STAT, 0, 3⟩
def Fld.RTC_CMD_STAT_LAST_OP : Field := ⟨Reg.RTC_CMD_STAT, 3, 3⟩
def Reg.RTC_ADJ_OFS : Nat := 0x40005068
def Fld.RTC_ADJ_OFS_OFS : Field := ⟨Reg.RTC_ADJ_OFS, 0, 32⟩
def Reg.RTC_SHIFT : Nat := 0x4000506c
def Fld.RTC_SHIFT_N : Field := ⟨Reg.RTC_SHIFT, 0, 15⟩
def Reg.RTC_ADJ_CFG : Nat := 0x40005070
def Fld.RTC_ADJ_CFG_SLEW_LIMIT : Field := ⟨Reg.RTC_ADJ_CFG, 0, 8⟩
def Fld.RTC_ADJ_CFG_SLEW_RATE : Field := ⟨Reg.RTC_ADJ_CFG, 16, 12⟩
def Reg.RTC_ADJ_MAX : Nat := 0x40005074
def Fld.RTC_ADJ_MAX_MAX : Field := ⟨Reg.RTC_ADJ_MAX, 0, 8⟩
def Reg.RTC_ADJ_LEFT : Nat := 0x40005078
def Fld.RTC_ADJ_LEFT_LEFT : Field := ⟨Reg.RTC_ADJ_LEFT, 0, 32⟩
def Reg.RTC_STEP_OLD_LO : Nat := 0x40005080
def Fld.RTC_STEP_OLD_LO_T : Field := ⟨Reg.RTC_STEP_OLD_LO, 0, 32⟩
def Reg.RTC_STEP_OLD_HI : Nat := 0x40005084
def Fld.RTC_STEP_OLD_HI_T : Field := ⟨Reg.RTC_STEP_OLD_HI, 0, 32⟩
def Reg.RTC_STEP_NEW_LO : Nat := 0x40005088
def Fld.RTC_STEP_NEW_LO_T : Field := ⟨Reg.RTC_STEP_NEW_LO, 0, 32⟩
def Reg.RTC_STEP_NEW_HI : Nat := 0x4000508c
def Fld.RTC_STEP_NEW_HI_T : Field := ⟨Reg.RTC_STEP_NEW_HI, 0, 32⟩
def Reg.RTC_STEP_INFO : Nat := 0x40005090
def Fld.RTC_STEP_INFO_BACKWARD : Field := ⟨Reg.RTC_STEP_INFO, 0, 1⟩
def Fld.RTC_STEP_INFO_SRC : Field := ⟨Reg.RTC_STEP_INFO, 1, 1⟩
def Fld.RTC_STEP_INFO_OLD_LOST : Field := ⟨Reg.RTC_STEP_INFO, 2, 1⟩
def Fld.RTC_STEP_INFO_SEQ : Field := ⟨Reg.RTC_STEP_INFO, 16, 16⟩
def Reg.RTC_ALM_LO : Nat := 0x400050a0
def Fld.RTC_ALM_LO_T : Field := ⟨Reg.RTC_ALM_LO, 0, 32⟩
def Reg.RTC_ALM_HI : Nat := 0x400050a4
def Fld.RTC_ALM_HI_WDAY : Field := ⟨Reg.RTC_ALM_HI, 0, 8⟩
def Reg.RTC_ALM_CFG : Nat := 0x400050a8
def Fld.RTC_ALM_CFG_EN : Field := ⟨Reg.RTC_ALM_CFG, 0, 1⟩
def Fld.RTC_ALM_CFG_ONCE : Field := ⟨Reg.RTC_ALM_CFG, 1, 1⟩
def Fld.RTC_ALM_CFG_MASK : Field := ⟨Reg.RTC_ALM_CFG, 8, 5⟩
def Reg.RTC_COMP_CFG : Nat := 0x400050b0
def Fld.RTC_COMP_CFG_EN : Field := ⟨Reg.RTC_COMP_CFG, 0, 1⟩
def Reg.RTC_COMP_TRIM : Nat := 0x400050b4
def Fld.RTC_COMP_TRIM_TRIM : Field := ⟨Reg.RTC_COMP_TRIM, 0, 16⟩
def Reg.RTC_COMP_STAT : Nat := 0x400050b8
def Fld.RTC_COMP_STAT_N : Field := ⟨Reg.RTC_COMP_STAT, 0, 9⟩
def Fld.RTC_COMP_STAT_LOADED : Field := ⟨Reg.RTC_COMP_STAT, 9, 1⟩
def Fld.RTC_COMP_STAT_T : Field := ⟨Reg.RTC_COMP_STAT, 16, 16⟩
def Reg.RTC_COMP_OFS : Nat := 0x400050c0
def Fld.RTC_COMP_OFS_OFS : Field := ⟨Reg.RTC_COMP_OFS, 0, 32⟩
def Reg.RTC_COMP_K : Nat := 0x400050c4
def Fld.RTC_COMP_K_K : Field := ⟨Reg.RTC_COMP_K, 0, 16⟩
def Fld.RTC_COMP_K_T0 : Field := ⟨Reg.RTC_COMP_K, 16, 16⟩
def Reg.RTC_COMP_NPTS : Nat := 0x400050c8
def Fld.RTC_COMP_NPTS_NPTS : Field := ⟨Reg.RTC_COMP_NPTS, 0, 5⟩
def Reg.RTC_RES (j : Nat) : Nat := 0x40005100 + j * 4
def Fld.RTC_RES_T (j : Nat) : Field := ⟨Reg.RTC_RES j, 0, 16⟩
def Fld.RTC_RES_R (j : Nat) : Field := ⟨Reg.RTC_RES j, 16, 16⟩
def Reg.RTC_VBAT_CFG : Nat := 0x40005140
def Fld.RTC_VBAT_CFG_THR : Field := ⟨Reg.RTC_VBAT_CFG, 0, 4⟩
def Reg.RTC_VBAT_MEAS : Nat := 0x40005144
def Fld.RTC_VBAT_MEAS_V : Field := ⟨Reg.RTC_VBAT_MEAS, 0, 12⟩
def Reg.RTC_SQW_CFG : Nat := 0x40005150
def Fld.RTC_SQW_CFG_SEL : Field := ⟨Reg.RTC_SQW_CFG, 0, 3⟩
def Reg.TARIFF_CTRL : Nat := 0x40017040
def Fld.TARIFF_CTRL_DEF_TARIFF : Field := ⟨Reg.TARIFF_CTRL, 0, 4⟩
def Fld.TARIFF_CTRL_EN : Field := ⟨Reg.TARIFF_CTRL, 8, 1⟩
def Reg.TARIFF_OVR : Nat := 0x40017044
def Fld.TARIFF_OVR_OVR : Field := ⟨Reg.TARIFF_OVR, 0, 16⟩
def Reg.TARIFF_STATUS : Nat := 0x40017048
def Fld.TARIFF_STATUS_SRC : Field := ⟨Reg.TARIFF_STATUS, 0, 2⟩
def Fld.TARIFF_STATUS_SEASON : Field := ⟨Reg.TARIFF_STATUS, 2, 2⟩
def Fld.TARIFF_STATUS_WEEK : Field := ⟨Reg.TARIFF_STATUS, 4, 3⟩
def Fld.TARIFF_STATUS_DAYPROF : Field := ⟨Reg.TARIFF_STATUS, 8, 4⟩
def Fld.TARIFF_STATUS_POINT : Field := ⟨Reg.TARIFF_STATUS, 12, 4⟩
def Fld.TARIFF_STATUS_CAL_T : Field := ⟨Reg.TARIFF_STATUS, 16, 4⟩
def Reg.TARIFF_TBL_CMD : Nat := 0x4001704c
def Fld.TARIFF_TBL_CMD_COMMIT : Field := ⟨Reg.TARIFF_TBL_CMD, 0, 1⟩
def Reg.TARIFF_TBL_STAT : Nat := 0x40017050
def Fld.TARIFF_TBL_STAT_PENDING : Field := ⟨Reg.TARIFF_TBL_STAT, 0, 1⟩
def Fld.TARIFF_TBL_STAT_RESULT : Field := ⟨Reg.TARIFF_TBL_STAT, 1, 3⟩
def Fld.TARIFF_TBL_STAT_BAD_IDX : Field := ⟨Reg.TARIFF_TBL_STAT, 8, 8⟩
def Reg.TARIFF_TBL_ID : Nat := 0x40017054
def Fld.TARIFF_TBL_ID_ID : Field := ⟨Reg.TARIFF_TBL_ID, 0, 32⟩
def Reg.TARIFF_ACT_ID : Nat := 0x40017058
def Fld.TARIFF_ACT_ID_ID : Field := ⟨Reg.TARIFF_ACT_ID, 0, 32⟩
def Reg.TARIFF_SEASON (s : Nat) : Nat := 0x40017080 + s * 4
def Fld.TARIFF_SEASON_DAY (s : Nat) : Field := ⟨Reg.TARIFF_SEASON s, 0, 8⟩
def Fld.TARIFF_SEASON_MON (s : Nat) : Field := ⟨Reg.TARIFF_SEASON s, 8, 8⟩
def Fld.TARIFF_SEASON_WEEK (s : Nat) : Field := ⟨Reg.TARIFF_SEASON s, 16, 3⟩
def Fld.TARIFF_SEASON_EN (s : Nat) : Field := ⟨Reg.TARIFF_SEASON s, 31, 1⟩
def Reg.TARIFF_WEEK (w : Nat) : Nat := 0x400170a0 + w * 4
def Fld.TARIFF_WEEK_PROF (w : Nat) : Field := ⟨Reg.TARIFF_WEEK w, 0, 28⟩
def Reg.TARIFF_SWPT (p : Nat) (i : Nat) : Nat := 0x40017100 + p * 0x40 + i * 4
def Fld.TARIFF_SWPT_MIN (p : Nat) (i : Nat) : Field := ⟨Reg.TARIFF_SWPT p i, 0, 8⟩
def Fld.TARIFF_SWPT_HOUR (p : Nat) (i : Nat) : Field := ⟨Reg.TARIFF_SWPT p i, 8, 8⟩
def Fld.TARIFF_SWPT_TARIFF (p : Nat) (i : Nat) : Field := ⟨Reg.TARIFF_SWPT p i, 16, 4⟩
def Fld.TARIFF_SWPT_EN (p : Nat) (i : Nat) : Field := ⟨Reg.TARIFF_SWPT p i, 31, 1⟩
def Reg.TARIFF_SPECIAL (e : Nat) : Nat := 0x40017500 + e * 4
def Fld.TARIFF_SPECIAL_DAY (e : Nat) : Field := ⟨Reg.TARIFF_SPECIAL e, 0, 8⟩
def Fld.TARIFF_SPECIAL_MON (e : Nat) : Field := ⟨Reg.TARIFF_SPECIAL e, 8, 8⟩
def Fld.TARIFF_SPECIAL_YEAR (e : Nat) : Field := ⟨Reg.TARIFF_SPECIAL e, 16, 8⟩
def Fld.TARIFF_SPECIAL_PROF (e : Nat) : Field := ⟨Reg.TARIFF_SPECIAL e, 24, 4⟩
def Fld.TARIFF_SPECIAL_EN (e : Nat) : Field := ⟨Reg.TARIFF_SPECIAL e, 31, 1⟩
def Reg.BILL_STATUS : Nat := 0x40018040
def Fld.BILL_STATUS_INT_SEQ : Field := ⟨Reg.BILL_STATUS, 0, 16⟩
def Fld.BILL_STATUS_BACKSTEP : Field := ⟨Reg.BILL_STATUS, 16, 1⟩
def Fld.BILL_STATUS_QUEUED : Field := ⟨Reg.BILL_STATUS, 17, 3⟩
def Fld.BILL_STATUS_HW_WAIT : Field := ⟨Reg.BILL_STATUS, 20, 1⟩
def Fld.BILL_STATUS_REC_LOST : Field := ⟨Reg.BILL_STATUS, 24, 8⟩
def Reg.BILL_INT_START_LO : Nat := 0x40018044
def Fld.BILL_INT_START_LO_T : Field := ⟨Reg.BILL_INT_START_LO, 0, 32⟩
def Reg.BILL_INT_START_HI : Nat := 0x40018048
def Fld.BILL_INT_START_HI_T : Field := ⟨Reg.BILL_INT_START_HI, 0, 32⟩
def Reg.BILL_REC_WR : Nat := 0x4001804c
def Fld.BILL_REC_WR_SEQ : Field := ⟨Reg.BILL_REC_WR, 0, 32⟩
def Reg.BILL_SESS_NEXT : Nat := 0x40018050
def Fld.BILL_SESS_NEXT_ID : Field := ⟨Reg.BILL_SESS_NEXT, 0, 32⟩
def Reg.BILL_SESS_CMD : Nat := 0x40018054
def Fld.BILL_SESS_CMD_OUTLET : Field := ⟨Reg.BILL_SESS_CMD, 0, 2⟩
def Fld.BILL_SESS_CMD_OP : Field := ⟨Reg.BILL_SESS_CMD, 4, 2⟩
def Fld.BILL_SESS_CMD_ACCT : Field := ⟨Reg.BILL_SESS_CMD, 16, 10⟩
def Fld.BILL_SESS_CMD_TENANT : Field := ⟨Reg.BILL_SESS_CMD, 26, 1⟩
def Fld.BILL_SESS_CMD_HOST : Field := ⟨Reg.BILL_SESS_CMD, 27, 1⟩
def Fld.BILL_SESS_CMD_GO : Field := ⟨Reg.BILL_SESS_CMD, 31, 1⟩
def Reg.BILL_SESS_USR : Nat := 0x40018058
def Fld.BILL_SESS_USR_USR : Field := ⟨Reg.BILL_SESS_USR, 0, 32⟩
def Reg.BILL_SESS_RES : Nat := 0x4001805c
def Fld.BILL_SESS_RES_RESULT : Field := ⟨Reg.BILL_SESS_RES, 0, 3⟩
def Reg.BILL_SESS_STAT (k : Nat) : Nat := 0x40018100 + k * 0x80
def Fld.BILL_SESS_STAT_STATE (k : Nat) : Field := ⟨Reg.BILL_SESS_STAT k, 0, 3⟩
def Fld.BILL_SESS_STAT_REC_DONE (k : Nat) : Field := ⟨Reg.BILL_SESS_STAT k, 3, 1⟩
def Fld.BILL_SESS_STAT_SETTLED (k : Nat) : Field := ⟨Reg.BILL_SESS_STAT k, 4, 1⟩
def Fld.BILL_SESS_STAT_FALLBACK (k : Nat) : Field := ⟨Reg.BILL_SESS_STAT k, 5, 1⟩
def Fld.BILL_SESS_STAT_SAT (k : Nat) : Field := ⟨Reg.BILL_SESS_STAT k, 6, 1⟩
def Fld.BILL_SESS_STAT_PARTIAL (k : Nat) : Field := ⟨Reg.BILL_SESS_STAT k, 7, 1⟩
def Fld.BILL_SESS_STAT_ACCT (k : Nat) : Field := ⟨Reg.BILL_SESS_STAT k, 16, 10⟩
def Fld.BILL_SESS_STAT_TENANT (k : Nat) : Field := ⟨Reg.BILL_SESS_STAT k, 26, 1⟩
def Fld.BILL_SESS_STAT_HOST (k : Nat) : Field := ⟨Reg.BILL_SESS_STAT k, 27, 1⟩
def Reg.BILL_SESS_ID (k : Nat) : Nat := 0x40018104 + k * 0x80
def Fld.BILL_SESS_ID_ID (k : Nat) : Field := ⟨Reg.BILL_SESS_ID k, 0, 32⟩
def Reg.BILL_START_CYC (k : Nat) : Nat := 0x40018108 + k * 0x80
def Fld.BILL_START_CYC_CYC (k : Nat) : Field := ⟨Reg.BILL_START_CYC k, 0, 32⟩
def Reg.BILL_START_TIME_LO (k : Nat) : Nat := 0x4001810c + k * 0x80
def Fld.BILL_START_TIME_LO_T (k : Nat) : Field := ⟨Reg.BILL_START_TIME_LO k, 0, 32⟩
def Reg.BILL_START_TIME_HI (k : Nat) : Nat := 0x40018110 + k * 0x80
def Fld.BILL_START_TIME_HI_T (k : Nat) : Field := ⟨Reg.BILL_START_TIME_HI k, 0, 32⟩
def Reg.BILL_USR (k : Nat) : Nat := 0x40018114 + k * 0x80
def Fld.BILL_USR_USR (k : Nat) : Field := ⟨Reg.BILL_USR k, 0, 32⟩
def Reg.BILL_START_DLV_LO (k : Nat) : Nat := 0x40018118 + k * 0x80
def Fld.BILL_START_DLV_LO_E (k : Nat) : Field := ⟨Reg.BILL_START_DLV_LO k, 0, 32⟩
def Reg.BILL_START_DLV_HI (k : Nat) : Nat := 0x4001811c + k * 0x80
def Fld.BILL_START_DLV_HI_E (k : Nat) : Field := ⟨Reg.BILL_START_DLV_HI k, 0, 32⟩
def Reg.BILL_START_RTN_LO (k : Nat) : Nat := 0x40018120 + k * 0x80
def Fld.BILL_START_RTN_LO_E (k : Nat) : Field := ⟨Reg.BILL_START_RTN_LO k, 0, 32⟩
def Reg.BILL_START_RTN_HI (k : Nat) : Nat := 0x40018124 + k * 0x80
def Fld.BILL_START_RTN_HI_E (k : Nat) : Field := ⟨Reg.BILL_START_RTN_HI k, 0, 32⟩
def Reg.BILL_SE (k : Nat) (t : Nat) (d : Nat) : Nat := 0x40018140 + k * 0x80 + (t - 1) * 8 + d * 4
def Fld.BILL_SE_E (k : Nat) (t : Nat) (d : Nat) : Field := ⟨Reg.BILL_SE k t d, 0, 32⟩
def Reg.BILL_REC_BODY (w : Nat) : Nat := 0x40018400 + w * 4
def Fld.BILL_REC_BODY_D (w : Nat) : Field := ⟨Reg.BILL_REC_BODY w, 0, 32⟩
def Reg.BILL_REC_SIG (w : Nat) : Nat := 0x40018480 + w * 4
def Fld.BILL_REC_SIG_D (w : Nat) : Field := ⟨Reg.BILL_REC_SIG w, 0, 32⟩
def Reg.BILL_REC_CMD : Nat := 0x400184c0
def Fld.BILL_REC_CMD_COMMIT : Field := ⟨Reg.BILL_REC_CMD, 0, 1⟩
def Reg.BILL_REC_STAT : Nat := 0x400184c4
def Fld.BILL_REC_STAT_BUSY : Field := ⟨Reg.BILL_REC_STAT, 0, 1⟩
def Fld.BILL_REC_STAT_RESULT : Field := ⟨Reg.BILL_REC_STAT, 1, 3⟩
def Reg.BILL_REC_RD_SEQ : Nat := 0x40018500
def Fld.BILL_REC_RD_SEQ_SEQ : Field := ⟨Reg.BILL_REC_RD_SEQ, 0, 32⟩
def Reg.BILL_REC_RD_GO : Nat := 0x40018504
def Fld.BILL_REC_RD_GO_GO : Field := ⟨Reg.BILL_REC_RD_GO, 0, 1⟩
def Reg.BILL_REC_RD_STAT : Nat := 0x40018508
def Fld.BILL_REC_RD_STAT_BUSY : Field := ⟨Reg.BILL_REC_RD_STAT, 0, 1⟩
def Fld.BILL_REC_RD_STAT_RESULT : Field := ⟨Reg.BILL_REC_RD_STAT, 1, 3⟩
def Reg.BILL_REC_RD (w : Nat) : Nat := 0x40018580 + w * 4
def Fld.BILL_REC_RD_D (w : Nat) : Field := ⟨Reg.BILL_REC_RD w, 0, 32⟩
def Reg.PREPAY_CFG : Nat := 0x40019040
def Fld.PREPAY_CFG_EN : Field := ⟨Reg.PREPAY_CFG, 0, 1⟩
def Fld.PREPAY_CFG_AUTO_CUT : Field := ⟨Reg.PREPAY_CFG, 1, 1⟩
def Fld.PREPAY_CFG_AMT_UNIT : Field := ⟨Reg.PREPAY_CFG, 4, 2⟩
def Fld.PREPAY_CFG_TOK_KEY : Field := ⟨Reg.PREPAY_CFG, 8, 3⟩
def Reg.PREPAY_EC_LIMIT : Nat := 0x40019044
def Fld.PREPAY_EC_LIMIT_L : Field := ⟨Reg.PREPAY_EC_LIMIT, 0, 32⟩
def Reg.PREPAY_FH_DEBT_MAX : Nat := 0x40019048
def Fld.PREPAY_FH_DEBT_MAX_D : Field := ⟨Reg.PREPAY_FH_DEBT_MAX, 0, 32⟩
def Reg.PREPAY_LOW_THR : Nat := 0x4001904c
def Fld.PREPAY_LOW_THR_T : Field := ⟨Reg.PREPAY_LOW_THR, 0, 32⟩
def Reg.PREPAY_CREDIT_MAX : Nat := 0x40019050
def Fld.PREPAY_CREDIT_MAX_M : Field := ⟨Reg.PREPAY_CREDIT_MAX, 0, 32⟩
def Reg.PREPAY_LOGIN_TMO : Nat := 0x40019054
def Fld.PREPAY_LOGIN_TMO_S : Field := ⟨Reg.PREPAY_LOGIN_TMO, 0, 10⟩
def Reg.PREPAY_PRICE (t : Nat) : Nat := 0x40019060 + (t - 1) * 4
def Fld.PREPAY_PRICE_P (t : Nat) : Field := ⟨Reg.PREPAY_PRICE t, 0, 20⟩
def Reg.PREPAY_FH_WIN (p : Nat) (w : Nat) : Nat := 0x40019080 + p * 8 + w * 4
def Fld.PREPAY_FH_WIN_START (p : Nat) (w : Nat) : Field := ⟨Reg.PREPAY_FH_WIN p w, 0, 11⟩
def Fld.PREPAY_FH_WIN_END (p : Nat) (w : Nat) : Field := ⟨Reg.PREPAY_FH_WIN p w, 11, 11⟩
def Fld.PREPAY_FH_WIN_DAYS (p : Nat) (w : Nat) : Field := ⟨Reg.PREPAY_FH_WIN p w, 22, 7⟩
def Fld.PREPAY_FH_WIN_SPECIAL (p : Nat) (w : Nat) : Field := ⟨Reg.PREPAY_FH_WIN p w, 29, 1⟩
def Fld.PREPAY_FH_WIN_EN (p : Nat) (w : Nat) : Field := ⟨Reg.PREPAY_FH_WIN p w, 31, 1⟩
def Reg.PREPAY_ENT_STAT : Nat := 0x40019100
def Fld.PREPAY_ENT_STAT_STATE : Field := ⟨Reg.PREPAY_ENT_STAT, 0, 2⟩
def Fld.PREPAY_ENT_STAT_KIND : Field := ⟨Reg.PREPAY_ENT_STAT, 2, 2⟩
def Reg.PREPAY_ENT_ACCT : Nat := 0x40019104
def Fld.PREPAY_ENT_ACCT_ACCT : Field := ⟨Reg.PREPAY_ENT_ACCT, 0, 10⟩
def Reg.PREPAY_ENT_TOK : Nat := 0x40019108
def Fld.PREPAY_ENT_TOK_SEQ : Field := ⟨Reg.PREPAY_ENT_TOK, 0, 16⟩
def Fld.PREPAY_ENT_TOK_AMT : Field := ⟨Reg.PREPAY_ENT_TOK, 16, 16⟩
def Reg.PREPAY_ENT_TOK2 : Nat := 0x4001910c
def Fld.PREPAY_ENT_TOK2_TYPE : Field := ⟨Reg.PREPAY_ENT_TOK2, 0, 4⟩
def Fld.PREPAY_ENT_TOK2_MAC : Field := ⟨Reg.PREPAY_ENT_TOK2, 8, 20⟩
def Reg.PREPAY_ENT_MSG (w : Nat) : Nat := 0x40019110 + w * 4
def Fld.PREPAY_ENT_MSG_D (w : Nat) : Field := ⟨Reg.PREPAY_ENT_MSG w, 0, 32⟩
def Reg.PREPAY_ENT_PIN : Nat := 0x40019120
def Fld.PREPAY_ENT_PIN_PIN : Field := ⟨Reg.PREPAY_ENT_PIN, 0, 24⟩
def Reg.PREPAY_VERDICT : Nat := 0x40019124
def Fld.PREPAY_VERDICT_V : Field := ⟨Reg.PREPAY_VERDICT, 0, 2⟩
def Fld.PREPAY_VERDICT_GO : Field := ⟨Reg.PREPAY_VERDICT, 31, 1⟩
def Reg.PREPAY_RES : Nat := 0x40019128
def Fld.PREPAY_RES_RESULT : Field := ⟨Reg.PREPAY_RES, 0, 2⟩
def Fld.PREPAY_RES_CAUSE : Field := ⟨Reg.PREPAY_RES, 4, 4⟩
def Fld.PREPAY_RES_AT_LIMIT : Field := ⟨Reg.PREPAY_RES, 8, 1⟩
def Fld.PREPAY_RES_TAMPER_DURING : Field := ⟨Reg.PREPAY_RES, 9, 1⟩
def Fld.PREPAY_RES_ACCT : Field := ⟨Reg.PREPAY_RES, 16, 10⟩
def Reg.PREPAY_RES_CREDIT_LO : Nat := 0x4001912c
def Fld.PREPAY_RES_CREDIT_LO_C : Field := ⟨Reg.PREPAY_RES_CREDIT_LO, 0, 32⟩
def Reg.PREPAY_RES_CREDIT_HI : Nat := 0x40019130
def Fld.PREPAY_RES_CREDIT_HI_C : Field := ⟨Reg.PREPAY_RES_CREDIT_HI, 0, 16⟩
def Reg.PREPAY_LOGIN : Nat := 0x40019140
def Fld.PREPAY_LOGIN_ACCT : Field := ⟨Reg.PREPAY_LOGIN, 0, 10⟩
def Fld.PREPAY_LOGIN_HOST : Field := ⟨Reg.PREPAY_LOGIN, 14, 1⟩
def Fld.PREPAY_LOGIN_VALID : Field := ⟨Reg.PREPAY_LOGIN, 15, 1⟩
def Fld.PREPAY_LOGIN_LEFT : Field := ⟨Reg.PREPAY_LOGIN, 16, 10⟩
def Reg.PREPAY_LOGIN_SET : Nat := 0x40019144
def Fld.PREPAY_LOGIN_SET_ACCT : Field := ⟨Reg.PREPAY_LOGIN_SET, 0, 10⟩
def Fld.PREPAY_LOGIN_SET_CLR : Field := ⟨Reg.PREPAY_LOGIN_SET, 30, 1⟩
def Fld.PREPAY_LOGIN_SET_SET : Field := ⟨Reg.PREPAY_LOGIN_SET, 31, 1⟩
def Reg.PREPAY_LOCK : Nat := 0x40019150
def Fld.PREPAY_LOCK_LOCKED : Field := ⟨Reg.PREPAY_LOCK, 0, 1⟩
def Fld.PREPAY_LOCK_HIST : Field := ⟨Reg.PREPAY_LOCK, 1, 3⟩
def Fld.PREPAY_LOCK_LEFT : Field := ⟨Reg.PREPAY_LOCK, 16, 10⟩
def Reg.PREPAY_REF_CNT : Nat := 0x40019154
def Fld.PREPAY_REF_CNT_CNT : Field := ⟨Reg.PREPAY_REF_CNT, 0, 32⟩
def Reg.PREPAY_PP_STAT (k : Nat) : Nat := 0x40019180 + k * 0x10
def Fld.PREPAY_PP_STAT_ACTIVE (k : Nat) : Field := ⟨Reg.PREPAY_PP_STAT k, 0, 1⟩
def Fld.PREPAY_PP_STAT_CUT (k : Nat) : Field := ⟨Reg.PREPAY_PP_STAT k, 1, 1⟩
def Fld.PREPAY_PP_STAT_FRIENDLY (k : Nat) : Field := ⟨Reg.PREPAY_PP_STAT k, 2, 1⟩
def Reg.PREPAY_ACC_LO (k : Nat) : Nat := 0x40019184 + k * 0x10
def Fld.PREPAY_ACC_LO_A (k : Nat) : Field := ⟨Reg.PREPAY_ACC_LO k, 0, 32⟩
def Reg.PREPAY_ACC_HI (k : Nat) : Nat := 0x40019188 + k * 0x10
def Fld.PREPAY_ACC_HI_A (k : Nat) : Field := ⟨Reg.PREPAY_ACC_HI k, 0, 32⟩
def Reg.PREPAY_FH_NOW : Nat := 0x400191c0
def Fld.PREPAY_FH_NOW_P : Field := ⟨Reg.PREPAY_FH_NOW, 0, 8⟩
def Reg.LCD_CTRL : Nat := 0x4001b040
def Fld.LCD_CTRL_DWELL : Field := ⟨Reg.LCD_CTRL, 0, 5⟩
def Fld.LCD_CTRL_RES_DWELL : Field := ⟨Reg.LCD_CTRL, 8, 5⟩
def Fld.LCD_CTRL_CONTRAST : Field := ⟨Reg.LCD_CTRL, 16, 4⟩
def Reg.LCD_STATUS : Nat := 0x4001b044
def Fld.LCD_STATUS_ITEM : Field := ⟨Reg.LCD_STATUS, 0, 6⟩
def Fld.LCD_STATUS_MODE : Field := ⟨Reg.LCD_STATUS, 8, 2⟩
def Reg.LCD_ERR_SET : Nat := 0x4001b048
def Fld.LCD_ERR_SET_E : Field := ⟨Reg.LCD_ERR_SET, 1, 15⟩
def Reg.LCD_ERR_STAT : Nat := 0x4001b04c
def Fld.LCD_ERR_STAT_ACT : Field := ⟨Reg.LCD_ERR_STAT, 0, 20⟩
def Reg.LCD_RES_ITEM : Nat := 0x4001b050
def Fld.LCD_RES_ITEM_IDX : Field := ⟨Reg.LCD_RES_ITEM, 0, 5⟩
def Reg.LCD_AUX_SEG (c : Nat) : Nat := 0x4001b060 + c * 4
def Fld.LCD_AUX_SEG_SEG (c : Nat) : Field := ⟨Reg.LCD_AUX_SEG c, 0, 20⟩
def Reg.LCD_DISP_LO : Nat := 0x4001b070
def Fld.LCD_DISP_LO_P : Field := ⟨Reg.LCD_DISP_LO, 0, 32⟩
def Reg.LCD_DISP_HI : Nat := 0x4001b074
def Fld.LCD_DISP_HI_P : Field := ⟨Reg.LCD_DISP_HI, 0, 32⟩
def Reg.LCD_DISP_SYM : Nat := 0x4001b078
def Fld.LCD_DISP_SYM_S : Field := ⟨Reg.LCD_DISP_SYM, 0, 16⟩
def Reg.LCD_ITEM_OBIS (i : Nat) : Nat := 0x4001b100 + i * 0x10
def Fld.LCD_ITEM_OBIS_A (i : Nat) : Field := ⟨Reg.LCD_ITEM_OBIS i, 0, 4⟩
def Fld.LCD_ITEM_OBIS_B (i : Nat) : Field := ⟨Reg.LCD_ITEM_OBIS i, 4, 7⟩
def Fld.LCD_ITEM_OBIS_C (i : Nat) : Field := ⟨Reg.LCD_ITEM_OBIS i, 16, 8⟩
def Fld.LCD_ITEM_OBIS_D (i : Nat) : Field := ⟨Reg.LCD_ITEM_OBIS i, 24, 8⟩
def Reg.LCD_ITEM_FMT (i : Nat) : Nat := 0x4001b104 + i * 0x10
def Fld.LCD_ITEM_FMT_E (i : Nat) : Field := ⟨Reg.LCD_ITEM_FMT i, 0, 8⟩
def Fld.LCD_ITEM_FMT_SCALE (i : Nat) : Field := ⟨Reg.LCD_ITEM_FMT i, 8, 4⟩
def Fld.LCD_ITEM_FMT_DEC (i : Nat) : Field := ⟨Reg.LCD_ITEM_FMT i, 12, 3⟩
def Fld.LCD_ITEM_FMT_EN (i : Nat) : Field := ⟨Reg.LCD_ITEM_FMT i, 15, 1⟩
def Fld.LCD_ITEM_FMT_SYM (i : Nat) : Field := ⟨Reg.LCD_ITEM_FMT i, 16, 16⟩
def Reg.LCD_FW_VAL_LO (i : Nat) : Nat := 0x4001b108 + i * 0x10
def Fld.LCD_FW_VAL_LO_V (i : Nat) : Field := ⟨Reg.LCD_FW_VAL_LO i, 0, 32⟩
def Reg.LCD_FW_VAL_HI (i : Nat) : Nat := 0x4001b10c + i * 0x10
def Fld.LCD_FW_VAL_HI_V (i : Nat) : Field := ⟨Reg.LCD_FW_VAL_HI i, 0, 31⟩
def Fld.LCD_FW_VAL_HI_VALID (i : Nat) : Field := ⟨Reg.LCD_FW_VAL_HI i, 31, 1⟩
def Reg.KEYPAD_CTRL : Nat := 0x4001c040
def Fld.KEYPAD_CTRL_EN : Field := ⟨Reg.KEYPAD_CTRL, 0, 1⟩
def Fld.KEYPAD_CTRL_DEB : Field := ⟨Reg.KEYPAD_CTRL, 1, 3⟩
def Reg.KEYPAD_KEY_FIFO : Nat := 0x4001c044
def Fld.KEYPAD_KEY_FIFO_CODE : Field := ⟨Reg.KEYPAD_KEY_FIFO, 0, 4⟩
def Fld.KEYPAD_KEY_FIFO_EMPTY : Field := ⟨Reg.KEYPAD_KEY_FIFO, 8, 1⟩
def Reg.KEYPAD_KEY_STAT : Nat := 0x4001c048
def Fld.KEYPAD_KEY_STAT_DOWN : Field := ⟨Reg.KEYPAD_KEY_STAT, 0, 16⟩
def Fld.KEYPAD_KEY_STAT_LEVEL : Field := ⟨Reg.KEYPAD_KEY_STAT, 16, 4⟩
def Reg.LAMP_LMP_CFG (n : Nat) : Nat := 0x4001d040 + n * 0x10
def Fld.LAMP_LMP_CFG_EN (n : Nat) : Field := ⟨Reg.LAMP_LMP_CFG n, 0, 1⟩
def Fld.LAMP_LMP_CFG_ISET (n : Nat) : Field := ⟨Reg.LAMP_LMP_CFG n, 1, 5⟩
def Fld.LAMP_LMP_CFG_SHORT_OFF (n : Nat) : Field := ⟨Reg.LAMP_LMP_CFG n, 6, 1⟩
def Reg.LAMP_LMP_DUTY (n : Nat) : Nat := 0x4001d044 + n * 0x10
def Fld.LAMP_LMP_DUTY_DUTY (n : Nat) : Field := ⟨Reg.LAMP_LMP_DUTY n, 0, 12⟩
def Reg.LAMP_LMP_STAT (n : Nat) : Nat := 0x4001d048 + n * 0x10
def Fld.LAMP_LMP_STAT_STATE (n : Nat) : Field := ⟨Reg.LAMP_LMP_STAT n, 0, 3⟩
def Fld.LAMP_LMP_STAT_LATCHED (n : Nat) : Field := ⟨Reg.LAMP_LMP_STAT n, 3, 1⟩
def Fld.LAMP_LMP_STAT_RUN (n : Nat) : Field := ⟨Reg.LAMP_LMP_STAT n, 4, 2⟩
def Fld.LAMP_LMP_STAT_CLR (n : Nat) : Field := ⟨Reg.LAMP_LMP_STAT n, 8, 1⟩
def Fld.LAMP_LMP_STAT_DIAG_CNT (n : Nat) : Field := ⟨Reg.LAMP_LMP_STAT n, 16, 16⟩
def Reg.LAMP_DIAG_CFG : Nat := 0x4001d0a0
def Fld.LAMP_DIAG_CFG_DIAG_STRETCH : Field := ⟨Reg.LAMP_DIAG_CFG, 0, 1⟩
def Fld.LAMP_DIAG_CFG_DIAG_PERIOD : Field := ⟨Reg.LAMP_DIAG_CFG, 8, 8⟩
def Fld.LAMP_DIAG_CFG_SHORT_THR : Field := ⟨Reg.LAMP_DIAG_CFG, 16, 8⟩
def Reg.GANDER_SRC_CFG (s : Nat) : Nat := 0x40004040 + s * 4
def Fld.GANDER_SRC_CFG_CLASS (s : Nat) : Field := ⟨Reg.GANDER_SRC_CFG s, 0, 2⟩
def Fld.GANDER_SRC_CFG_EN (s : Nat) : Field := ⟨Reg.GANDER_SRC_CFG s, 2, 1⟩
def Fld.GANDER_SRC_CFG_POL (s : Nat) : Field := ⟨Reg.GANDER_SRC_CFG s, 3, 1⟩
def Fld.GANDER_SRC_CFG_PULL (s : Nat) : Field := ⟨Reg.GANDER_SRC_CFG s, 4, 1⟩
def Fld.GANDER_SRC_CFG_DEB (s : Nat) : Field := ⟨Reg.GANDER_SRC_CFG s, 8, 8⟩
def Reg.GANDER_REC_CNT (s : Nat) : Nat := 0x40004080 + s * 4
def Fld.GANDER_REC_CNT_CNT (s : Nat) : Field := ⟨Reg.GANDER_REC_CNT s, 0, 16⟩
def Fld.GANDER_REC_CNT_ACTIVE (s : Nat) : Field := ⟨Reg.GANDER_REC_CNT s, 16, 1⟩
def Reg.GANDER_FIRST_LO (s : Nat) : Nat := 0x40004100 + s * 0x10
def Fld.GANDER_FIRST_LO_T (s : Nat) : Field := ⟨Reg.GANDER_FIRST_LO s, 0, 32⟩
def Reg.GANDER_FIRST_HI (s : Nat) : Nat := 0x40004104 + s * 0x10
def Fld.GANDER_FIRST_HI_T (s : Nat) : Field := ⟨Reg.GANDER_FIRST_HI s, 0, 29⟩
def Reg.GANDER_LAST_LO (s : Nat) : Nat := 0x40004108 + s * 0x10
def Fld.GANDER_LAST_LO_T (s : Nat) : Field := ⟨Reg.GANDER_LAST_LO s, 0, 32⟩
def Reg.GANDER_LAST_HI (s : Nat) : Nat := 0x4000410c + s * 0x10
def Fld.GANDER_LAST_HI_T (s : Nat) : Field := ⟨Reg.GANDER_LAST_HI s, 0, 29⟩
def Reg.GANDER_STATUS : Nat := 0x40004200
def Fld.GANDER_STATUS_ACTIVE : Field := ⟨Reg.GANDER_STATUS, 0, 14⟩
def Fld.GANDER_STATUS_LAST_ERASE : Field := ⟨Reg.GANDER_STATUS, 16, 4⟩
def Fld.GANDER_STATUS_KWK_GONE : Field := ⟨Reg.GANDER_STATUS, 20, 1⟩
def Reg.GANDER_CLR : Nat := 0x40004204
def Fld.GANDER_CLR_GO : Field := ⟨Reg.GANDER_CLR, 0, 1⟩
def Reg.GANDER_TEMP_THR : Nat := 0x40004208
def Fld.GANDER_TEMP_THR_TLO : Field := ⟨Reg.GANDER_TEMP_THR, 0, 16⟩
def Fld.GANDER_TEMP_THR_THI : Field := ⟨Reg.GANDER_TEMP_THR, 16, 16⟩
def Reg.GANDER_TEMP_CFG : Nat := 0x4000420c
def Fld.GANDER_TEMP_CFG_HYST : Field := ⟨Reg.GANDER_TEMP_CFG, 0, 8⟩
def Fld.GANDER_TEMP_CFG_DWELL : Field := ⟨Reg.GANDER_TEMP_CFG, 8, 4⟩
def Fld.GANDER_TEMP_CFG_PERIOD : Field := ⟨Reg.GANDER_TEMP_CFG, 16, 6⟩
def Reg.GANDER_TEMP_NOW : Nat := 0x40004210
def Fld.GANDER_TEMP_NOW_T : Field := ⟨Reg.GANDER_TEMP_NOW, 0, 16⟩
def Reg.GANDER_TOTAL : Nat := 0x40004214
def Fld.GANDER_TOTAL_CNT : Field := ⟨Reg.GANDER_TOTAL, 0, 32⟩
def Reg.PWR_CMD : Nat := 0x40001040
def Fld.PWR_CMD_STATE : Field := ⟨Reg.PWR_CMD, 0, 4⟩
def Fld.PWR_CMD_GO : Field := ⟨Reg.PWR_CMD, 31, 1⟩
def Reg.PWR_STATE : Nat := 0x40001044
def Fld.PWR_STATE_CUR : Field := ⟨Reg.PWR_STATE, 0, 4⟩
def Fld.PWR_STATE_TARGET : Field := ⟨Reg.PWR_STATE, 4, 4⟩
def Fld.PWR_STATE_BUSY : Field := ⟨Reg.PWR_STATE, 8, 1⟩
def Fld.PWR_STATE_REASON : Field := ⟨Reg.PWR_STATE, 9, 3⟩
def Fld.PWR_STATE_REJ_DOM : Field := ⟨Reg.PWR_STATE, 12, 4⟩
def Fld.PWR_STATE_AT_LIMIT : Field := ⟨Reg.PWR_STATE, 16, 1⟩
def Reg.PWR_DOM_STAT : Nat := 0x40001048
def Fld.PWR_DOM_STAT_ST : Field := ⟨Reg.PWR_DOM_STAT, 0, 20⟩
def Reg.PWR_SEQ : Nat := 0x4000104c
def Fld.PWR_SEQ_DOM : Field := ⟨Reg.PWR_SEQ, 0, 4⟩
def Fld.PWR_SEQ_STEP : Field := ⟨Reg.PWR_SEQ, 4, 3⟩
def Reg.PWR_VOTE (d : Nat) : Nat := 0x40001060 + (d - 1) * 0x10
def Fld.PWR_VOTE_SLOTS (d : Nat) : Field := ⟨Reg.PWR_VOTE d, 0, 16⟩
def Reg.PWR_VOTE_SET (d : Nat) : Nat := 0x40001064 + (d - 1) * 0x10
def Fld.PWR_VOTE_SET_SET (d : Nat) : Field := ⟨Reg.PWR_VOTE_SET d, 0, 16⟩
def Reg.PWR_VOTE_CLR (d : Nat) : Nat := 0x40001068 + (d - 1) * 0x10
def Fld.PWR_VOTE_CLR_CLR (d : Nat) : Field := ⟨Reg.PWR_VOTE_CLR d, 0, 16⟩
def Reg.PWR_DOM_CNT (d : Nat) : Nat := 0x4000106c + (d - 1) * 0x10
def Fld.PWR_DOM_CNT_DROPS (d : Nat) : Field := ⟨Reg.PWR_DOM_CNT d, 0, 16⟩
def Fld.PWR_DOM_CNT_ABORTS (d : Nat) : Field := ⟨Reg.PWR_DOM_CNT d, 16, 8⟩
def Fld.PWR_DOM_CNT_REWAKES (d : Nat) : Field := ⟨Reg.PWR_DOM_CNT d, 24, 8⟩
def Reg.PWR_RET_CFG : Nat := 0x40001100
def Fld.PWR_RET_CFG_SBANK : Field := ⟨Reg.PWR_RET_CFG, 0, 16⟩
def Reg.PWR_WAKE_CFG : Nat := 0x40001104
def Fld.PWR_WAKE_CFG_DOMS : Field := ⟨Reg.PWR_WAKE_CFG, 1, 9⟩
def Fld.PWR_WAKE_CFG_WAKE_HOLD : Field := ⟨Reg.PWR_WAKE_CFG, 16, 8⟩
def Reg.PWR_SUPPLY : Nat := 0x40001108
def Fld.PWR_SUPPLY_PFW : Field := ⟨Reg.PWR_SUPPLY, 0, 1⟩
def Fld.PWR_SUPPLY_PFW_LATCH : Field := ⟨Reg.PWR_SUPPLY, 1, 1⟩
def Fld.PWR_SUPPLY_VBAT_ACTIVE : Field := ⟨Reg.PWR_SUPPLY, 2, 1⟩
def Fld.PWR_SUPPLY_BOR_SEEN : Field := ⟨Reg.PWR_SUPPLY, 3, 1⟩
def Reg.PWR_SAVE_STAT : Nat := 0x40001110
def Fld.PWR_SAVE_STAT_VALID : Field := ⟨Reg.PWR_SAVE_STAT, 0, 10⟩
def Fld.PWR_SAVE_STAT_ERR_WORD : Field := ⟨Reg.PWR_SAVE_STAT, 16, 10⟩
def Fld.PWR_SAVE_STAT_ERR : Field := ⟨Reg.PWR_SAVE_STAT, 26, 1⟩
def Reg.PWR_DEEP_CNT : Nat := 0x40001114
def Fld.PWR_DEEP_CNT_CNT : Field := ⟨Reg.PWR_DEEP_CNT, 0, 32⟩
def Reg.CLK_AC_DIV : Nat := 0x40002040
def Fld.CLK_AC_DIV_DIV : Field := ⟨Reg.CLK_AC_DIV, 0, 2⟩
def Reg.CLK_OUT_EN : Nat := 0x40002044
def Fld.CLK_OUT_EN_TDC128 : Field := ⟨Reg.CLK_OUT_EN, 0, 1⟩
def Reg.CLK_CLK_STAT : Nat := 0x40002048
def Fld.CLK_CLK_STAT_HFXO_ON : Field := ⟨Reg.CLK_CLK_STAT, 0, 1⟩
def Fld.CLK_CLK_STAT_PLL_S_LOCK : Field := ⟨Reg.CLK_CLK_STAT, 1, 1⟩
def Fld.CLK_CLK_STAT_PLL_M_LOCK : Field := ⟨Reg.CLK_CLK_STAT, 2, 1⟩
def Fld.CLK_CLK_STAT_SYS_SRC : Field := ⟨Reg.CLK_CLK_STAT, 3, 2⟩
def Fld.CLK_CLK_STAT_AC_MHZ : Field := ⟨Reg.CLK_CLK_STAT, 5, 5⟩
def Reg.ROOSTER_SRC_EN : Nat := 0x40003040
def Fld.ROOSTER_SRC_EN_EN : Field := ⟨Reg.ROOSTER_SRC_EN, 0, 8⟩
def Fld.ROOSTER_SRC_EN_CNT_MASK : Field := ⟨Reg.ROOSTER_SRC_EN, 8, 4⟩
def Reg.ROOSTER_PIN_CFG : Nat := 0x40003044
def Fld.ROOSTER_PIN_CFG_POL : Field := ⟨Reg.ROOSTER_PIN_CFG, 0, 1⟩
def Fld.ROOSTER_PIN_CFG_PULL : Field := ⟨Reg.ROOSTER_PIN_CFG, 1, 1⟩
def Fld.ROOSTER_PIN_CFG_DEB : Field := ⟨Reg.ROOSTER_PIN_CFG, 8, 6⟩
def Reg.ROOSTER_I2C_CFG : Nat := 0x40003048
def Fld.ROOSTER_I2C_CFG_NACK_WAKE : Field := ⟨Reg.ROOSTER_I2C_CFG, 0, 1⟩
def Reg.ROOSTER_WAKE_SRC : Nat := 0x4000304c
def Fld.ROOSTER_WAKE_SRC_SRC : Field := ⟨Reg.ROOSTER_WAKE_SRC, 0, 4⟩
def Fld.ROOSTER_WAKE_SRC_FROM : Field := ⟨Reg.ROOSTER_WAKE_SRC, 4, 4⟩
def Reg.ROOSTER_WAKE_PEND : Nat := 0x40003050
def Fld.ROOSTER_WAKE_PEND_PEND : Field := ⟨Reg.ROOSTER_WAKE_PEND, 0, 8⟩
def Reg.ROOSTER_WAKE_TIME_LO : Nat := 0x40003054
def Fld.ROOSTER_WAKE_TIME_LO_T : Field := ⟨Reg.ROOSTER_WAKE_TIME_LO, 0, 32⟩
def Reg.ROOSTER_WAKE_TIME_HI : Nat := 0x40003058
def Fld.ROOSTER_WAKE_TIME_HI_T : Field := ⟨Reg.ROOSTER_WAKE_TIME_HI, 0, 29⟩
def Reg.ROOSTER_WAKE_CNT : Nat := 0x4000305c
def Fld.ROOSTER_WAKE_CNT_CNT : Field := ⟨Reg.ROOSTER_WAKE_CNT, 0, 32⟩
def Reg.ROOSTER_I2C_STAT : Nat := 0x40003060
def Fld.ROOSTER_I2C_STAT_STRETCH : Field := ⟨Reg.ROOSTER_I2C_STAT, 0, 16⟩
def Fld.ROOSTER_I2C_STAT_TO_CNT : Field := ⟨Reg.ROOSTER_I2C_STAT, 16, 16⟩
def Reg.WATCH_CTRL : Nat := 0x40026040
def Fld.WATCH_CTRL_EN : Field := ⟨Reg.WATCH_CTRL, 0, 1⟩
def Fld.WATCH_CTRL_PATH : Field := ⟨Reg.WATCH_CTRL, 1, 2⟩
def Fld.WATCH_CTRL_SET : Field := ⟨Reg.WATCH_CTRL, 4, 4⟩
def Fld.WATCH_CTRL_RTD_EN : Field := ⟨Reg.WATCH_CTRL, 8, 1⟩
def Fld.WATCH_CTRL_RTD_CH : Field := ⟨Reg.WATCH_CTRL, 9, 3⟩
def Fld.WATCH_CTRL_RTD_DIV : Field := ⟨Reg.WATCH_CTRL, 12, 4⟩
def Fld.WATCH_CTRL_TSRC : Field := ⟨Reg.WATCH_CTRL, 16, 2⟩
def Fld.WATCH_CTRL_CAPTURE : Field := ⟨Reg.WATCH_CTRL, 31, 1⟩
def Reg.WATCH_PERIOD : Nat := 0x40026044
def Fld.WATCH_PERIOD_S : Field := ⟨Reg.WATCH_PERIOD, 0, 12⟩
def Reg.WATCH_AMP_MIN : Nat := 0x40026048
def Fld.WATCH_AMP_MIN_A : Field := ⟨Reg.WATCH_AMP_MIN, 0, 12⟩
def Reg.WATCH_FLOW_LO : Nat := 0x4002604c
def Fld.WATCH_FLOW_LO_Q : Field := ⟨Reg.WATCH_FLOW_LO, 0, 32⟩
def Reg.WATCH_FLOW_HI : Nat := 0x40026050
def Fld.WATCH_FLOW_HI_Q : Field := ⟨Reg.WATCH_FLOW_HI, 0, 32⟩
def Reg.WATCH_T_WIN : Nat := 0x40026054
def Fld.WATCH_T_WIN_T_LO : Field := ⟨Reg.WATCH_T_WIN, 0, 16⟩
def Fld.WATCH_T_WIN_T_HI : Field := ⟨Reg.WATCH_T_WIN, 16, 16⟩
def Reg.WATCH_JUDGE : Nat := 0x40026058
def Fld.WATCH_JUDGE_HYST : Field := ⟨Reg.WATCH_JUDGE, 0, 8⟩
def Fld.WATCH_JUDGE_DWELL : Field := ⟨Reg.WATCH_JUDGE, 8, 4⟩
def Fld.WATCH_JUDGE_CONFIRM : Field := ⟨Reg.WATCH_JUDGE, 12, 4⟩
def Reg.WATCH_STAT : Nat := 0x40026060
def Fld.WATCH_STAT_IMG_VALID : Field := ⟨Reg.WATCH_STAT, 0, 1⟩
def Fld.WATCH_STAT_CHECKING : Field := ⟨Reg.WATCH_STAT, 1, 1⟩
def Fld.WATCH_STAT_RUN_C : Field := ⟨Reg.WATCH_STAT, 4, 4⟩
def Fld.WATCH_STAT_RUN_T : Field := ⟨Reg.WATCH_STAT, 8, 4⟩
def Fld.WATCH_STAT_NEXT : Field := ⟨Reg.WATCH_STAT, 16, 12⟩
def Reg.WATCH_CHK_CNT : Nat := 0x40026064
def Fld.WATCH_CHK_CNT_CNT : Field := ⟨Reg.WATCH_CHK_CNT, 0, 32⟩
def Reg.WATCH_SKIP_CNT : Nat := 0x40026068
def Fld.WATCH_SKIP_CNT_CNT : Field := ⟨Reg.WATCH_SKIP_CNT, 0, 32⟩
def Reg.WATCH_LAST_CODES : Nat := 0x4002606c
def Fld.WATCH_LAST_CODES_PAIR : Field := ⟨Reg.WATCH_LAST_CODES, 0, 3⟩
def Fld.WATCH_LAST_CODES_CODE_DN : Field := ⟨Reg.WATCH_LAST_CODES, 4, 4⟩
def Fld.WATCH_LAST_CODES_CODE_UP : Field := ⟨Reg.WATCH_LAST_CODES, 8, 4⟩
def Fld.WATCH_LAST_CODES_RTD_CODE : Field := ⟨Reg.WATCH_LAST_CODES, 12, 3⟩
def Fld.WATCH_LAST_CODES_CAUSE : Field := ⟨Reg.WATCH_LAST_CODES, 16, 7⟩
def Reg.WATCH_LAST_AMP : Nat := 0x40026070
def Fld.WATCH_LAST_AMP_AMP_DN : Field := ⟨Reg.WATCH_LAST_AMP, 0, 12⟩
def Fld.WATCH_LAST_AMP_AMP_UP : Field := ⟨Reg.WATCH_LAST_AMP, 16, 12⟩
def Reg.WATCH_LAST_FLOW : Nat := 0x40026074
def Fld.WATCH_LAST_FLOW_Q : Field := ⟨Reg.WATCH_LAST_FLOW, 0, 32⟩
def Reg.WATCH_LAST_T : Nat := 0x40026078
def Fld.WATCH_LAST_T_COOL : Field := ⟨Reg.WATCH_LAST_T, 0, 16⟩
def Fld.WATCH_LAST_T_RTD : Field := ⟨Reg.WATCH_LAST_T, 16, 16⟩
def Reg.WATCH_ANOM_CNT : Nat := 0x4002607c
def Fld.WATCH_ANOM_CNT_CNT : Field := ⟨Reg.WATCH_ANOM_CNT, 0, 32⟩
def Reg.HSPI_HOST_STAT : Nat := 0x4001e040
def Fld.HSPI_HOST_STAT_LAST_ERR : Field := ⟨Reg.HSPI_HOST_STAT, 0, 3⟩
def Fld.HSPI_HOST_STAT_AT_LIMIT : Field := ⟨Reg.HSPI_HOST_STAT, 3, 1⟩
def Fld.HSPI_HOST_STAT_BUSY_SEEN : Field := ⟨Reg.HSPI_HOST_STAT, 4, 1⟩
def Fld.HSPI_HOST_STAT_MODE3 : Field := ⟨Reg.HSPI_HOST_STAT, 5, 1⟩
def Fld.HSPI_HOST_STAT_ERR_CNT : Field := ⟨Reg.HSPI_HOST_STAT, 8, 8⟩
def Reg.HSPI_LAST_ADDR : Nat := 0x4001e044
def Fld.HSPI_LAST_ADDR_ADDR : Field := ⟨Reg.HSPI_LAST_ADDR, 0, 24⟩
def Reg.HSPI_FRAME_CNT : Nat := 0x4001e048
def Fld.HSPI_FRAME_CNT_CNT : Field := ⟨Reg.HSPI_FRAME_CNT, 0, 32⟩
def Reg.HSPI_DMA_DPM : Nat := 0x4001e050
def Fld.HSPI_DMA_DPM_WORD : Field := ⟨Reg.HSPI_DMA_DPM, 0, 11⟩
def Reg.HSPI_DMA_S : Nat := 0x4001e054
def Fld.HSPI_DMA_S_BANK : Field := ⟨Reg.HSPI_DMA_S, 0, 4⟩
def Fld.HSPI_DMA_S_WORD : Field := ⟨Reg.HSPI_DMA_S, 16, 13⟩
def Reg.HSPI_DMA_LEN : Nat := 0x4001e058
def Fld.HSPI_DMA_LEN_LEN : Field := ⟨Reg.HSPI_DMA_LEN, 0, 12⟩
def Reg.HSPI_DMA_CTRL : Nat := 0x4001e05c
def Fld.HSPI_DMA_CTRL_DIR : Field := ⟨Reg.HSPI_DMA_CTRL, 0, 1⟩
def Fld.HSPI_DMA_CTRL_BUSY : Field := ⟨Reg.HSPI_DMA_CTRL, 1, 1⟩
def Fld.HSPI_DMA_CTRL_GO : Field := ⟨Reg.HSPI_DMA_CTRL, 31, 1⟩
def Reg.I2CT_ADDR : Nat := 0x4001f040
def Fld.I2CT_ADDR_ADDR : Field := ⟨Reg.I2CT_ADDR, 0, 7⟩
def Fld.I2CT_ADDR_EN : Field := ⟨Reg.I2CT_ADDR, 7, 1⟩
def Reg.I2CT_STRETCH_MAX : Nat := 0x4001f044
def Fld.I2CT_STRETCH_MAX_T : Field := ⟨Reg.I2CT_STRETCH_MAX, 0, 10⟩
def Reg.I2CT_STAT : Nat := 0x4001f048
def Fld.I2CT_STAT_LAST_ERR : Field := ⟨Reg.I2CT_STAT, 0, 3⟩
def Fld.I2CT_STAT_AT_LIMIT : Field := ⟨Reg.I2CT_STAT, 3, 1⟩
def Fld.I2CT_STAT_RUNNING : Field := ⟨Reg.I2CT_STAT, 4, 1⟩
def Fld.I2CT_STAT_ERR_CNT : Field := ⟨Reg.I2CT_STAT, 8, 8⟩
def Fld.I2CT_STAT_NACK_CNT : Field := ⟨Reg.I2CT_STAT, 16, 16⟩
def Reg.I2CT_PTR : Nat := 0x4001f04c
def Fld.I2CT_PTR_ADDR : Field := ⟨Reg.I2CT_PTR, 0, 24⟩
def Reg.I2CT_LAST_ADDR : Nat := 0x4001f050
def Fld.I2CT_LAST_ADDR_ADDR : Field := ⟨Reg.I2CT_LAST_ADDR, 0, 24⟩
def Reg.MSPI_CFG : Nat := 0x40020040
def Fld.MSPI_CFG_MODE : Field := ⟨Reg.MSPI_CFG, 0, 2⟩
def Fld.MSPI_CFG_DIV : Field := ⟨Reg.MSPI_CFG, 2, 8⟩
def Fld.MSPI_CFG_SDIV : Field := ⟨Reg.MSPI_CFG, 10, 4⟩
def Fld.MSPI_CFG_DUMMY : Field := ⟨Reg.MSPI_CFG, 16, 4⟩
def Reg.MSPI_OPC : Nat := 0x40020044
def Fld.MSPI_OPC_RD : Field := ⟨Reg.MSPI_OPC, 0, 8⟩
def Fld.MSPI_OPC_WR : Field := ⟨Reg.MSPI_OPC, 8, 8⟩
def Fld.MSPI_OPC_WREN : Field := ⟨Reg.MSPI_OPC, 16, 8⟩
def Fld.MSPI_OPC_RDSR : Field := ⟨Reg.MSPI_OPC, 24, 8⟩
def Reg.MSPI_SR_CHK : Nat := 0x40020048
def Fld.MSPI_SR_CHK_MASK : Field := ⟨Reg.MSPI_SR_CHK, 0, 8⟩
def Fld.MSPI_SR_CHK_EXP : Field := ⟨Reg.MSPI_SR_CHK, 8, 8⟩
def Reg.MSPI_XFER_TMO : Nat := 0x4002004c
def Fld.MSPI_XFER_TMO_T : Field := ⟨Reg.MSPI_XFER_TMO, 0, 10⟩
def Reg.MSPI_STAT : Nat := 0x40020050
def Fld.MSPI_STAT_BUSY : Field := ⟨Reg.MSPI_STAT, 0, 1⟩
def Fld.MSPI_STAT_RESULT : Field := ⟨Reg.MSPI_STAT, 1, 2⟩
def Fld.MSPI_STAT_AT_LIMIT : Field := ⟨Reg.MSPI_STAT, 3, 1⟩
def Fld.MSPI_STAT_SR_LAST : Field := ⟨Reg.MSPI_STAT, 8, 8⟩
def Fld.MSPI_STAT_TX_OK : Field := ⟨Reg.MSPI_STAT, 16, 1⟩
def Reg.MSPI_TX_NOW : Nat := 0x40020054
def Fld.MSPI_TX_NOW_T : Field := ⟨Reg.MSPI_TX_NOW, 0, 16⟩
def Reg.MSPI_XFER_CNT : Nat := 0x40020058
def Fld.MSPI_XFER_CNT_CNT : Field := ⟨Reg.MSPI_XFER_CNT, 0, 32⟩
def Reg.MSPI_FAIL_CNT : Nat := 0x4002005c
def Fld.MSPI_FAIL_CNT_CNT : Field := ⟨Reg.MSPI_FAIL_CNT, 0, 32⟩
def Reg.MSPI_DIR_CTRL : Nat := 0x40020060
def Fld.MSPI_DIR_CTRL_OPC : Field := ⟨Reg.MSPI_DIR_CTRL, 0, 8⟩
def Fld.MSPI_DIR_CTRL_ADDR_EN : Field := ⟨Reg.MSPI_DIR_CTRL, 8, 1⟩
def Fld.MSPI_DIR_CTRL_READ : Field := ⟨Reg.MSPI_DIR_CTRL, 9, 1⟩
def Fld.MSPI_DIR_CTRL_LEN : Field := ⟨Reg.MSPI_DIR_CTRL, 16, 7⟩
def Fld.MSPI_DIR_CTRL_GO : Field := ⟨Reg.MSPI_DIR_CTRL, 31, 1⟩
def Reg.MSPI_DIR_ADDR : Nat := 0x40020064
def Fld.MSPI_DIR_ADDR_ADDR : Field := ⟨Reg.MSPI_DIR_ADDR, 0, 24⟩
def Reg.MSPI_DIR_DATA (w : Nat) : Nat := 0x40020080 + w * 4
def Fld.MSPI_DIR_DATA_D (w : Nat) : Field := ⟨Reg.MSPI_DIR_DATA w, 0, 32⟩
def Reg.UART_CFG : Nat := 0x40021040
def Fld.UART_CFG_EN : Field := ⟨Reg.UART_CFG, 0, 1⟩
def Fld.UART_CFG_PARITY : Field := ⟨Reg.UART_CFG, 1, 2⟩
def Fld.UART_CFG_STOP2 : Field := ⟨Reg.UART_CFG, 3, 1⟩
def Fld.UART_CFG_FLOW : Field := ⟨Reg.UART_CFG, 4, 1⟩
def Reg.UART_BAUD : Nat := 0x40021044
def Fld.UART_BAUD_DIV : Field := ⟨Reg.UART_BAUD, 0, 20⟩
def Reg.UART_DATA : Nat := 0x40021048
def Fld.UART_DATA_D : Field := ⟨Reg.UART_DATA, 0, 8⟩
def Reg.UART_STAT : Nat := 0x4002104c
def Fld.UART_STAT_RX_LVL : Field := ⟨Reg.UART_STAT, 0, 5⟩
def Fld.UART_STAT_TX_LVL : Field := ⟨Reg.UART_STAT, 8, 5⟩
def Fld.UART_STAT_FE : Field := ⟨Reg.UART_STAT, 16, 1⟩
def Fld.UART_STAT_PE : Field := ⟨Reg.UART_STAT, 17, 1⟩
def Fld.UART_STAT_OVR : Field := ⟨Reg.UART_STAT, 18, 1⟩
def Reg.UART_DMA_CFG (x : Nat) : Nat := 0x40021050 + x * 0x10
def Fld.UART_DMA_CFG_BANK (x : Nat) : Field := ⟨Reg.UART_DMA_CFG x, 0, 4⟩
def Fld.UART_DMA_CFG_EN (x : Nat) : Field := ⟨Reg.UART_DMA_CFG x, 4, 1⟩
def Fld.UART_DMA_CFG_WORD0 (x : Nat) : Field := ⟨Reg.UART_DMA_CFG x, 16, 13⟩
def Reg.UART_DMA_LEN (x : Nat) : Nat := 0x40021054 + x * 0x10
def Fld.UART_DMA_LEN_LEN (x : Nat) : Field := ⟨Reg.UART_DMA_LEN x, 0, 16⟩
def Reg.UART_DMA_PTR (x : Nat) : Nat := 0x40021058 + x * 0x10
def Fld.UART_DMA_PTR_PTR (x : Nat) : Field := ⟨Reg.UART_DMA_PTR x, 0, 16⟩
def Reg.DEBUG_DBG_STAT : Nat := 0x40025040
def Fld.DEBUG_DBG_STAT_LC_DBG : Field := ⟨Reg.DEBUG_DBG_STAT, 0, 1⟩
def Fld.DEBUG_DBG_STAT_AC_DBG : Field := ⟨Reg.DEBUG_DBG_STAT, 1, 1⟩
def Fld.DEBUG_DBG_STAT_BSCAN : Field := ⟨Reg.DEBUG_DBG_STAT, 2, 1⟩
def Fld.DEBUG_DBG_STAT_AC_LOCK : Field := ⟨Reg.DEBUG_DBG_STAT, 3, 1⟩
def Fld.DEBUG_DBG_STAT_TCK_SEEN : Field := ⟨Reg.DEBUG_DBG_STAT, 4, 1⟩
def Fld.DEBUG_DBG_STAT_LC_HALTED : Field := ⟨Reg.DEBUG_DBG_STAT, 5, 1⟩
def Fld.DEBUG_DBG_STAT_AC_HALTED : Field := ⟨Reg.DEBUG_DBG_STAT, 6, 1⟩
def Reg.DEBUG_IDCODE : Nat := 0x40025044
def Fld.DEBUG_IDCODE_ID : Field := ⟨Reg.DEBUG_IDCODE, 0, 32⟩
def Reg.SYSCTL_REV : Nat := 0x40000040
def Fld.SYSCTL_REV_REV : Field := ⟨Reg.SYSCTL_REV, 0, 8⟩
def Fld.SYSCTL_REV_PART : Field := ⟨Reg.SYSCTL_REV, 16, 16⟩
def Reg.SYSCTL_RST_CAUSE : Nat := 0x40000044
def Fld.SYSCTL_RST_CAUSE_CAUSE : Field := ⟨Reg.SYSCTL_RST_CAUSE, 0, 8⟩
def Reg.SYSCTL_STRAP : Nat := 0x40000048
def Fld.SYSCTL_STRAP_BOOT_HOST : Field := ⟨Reg.SYSCTL_STRAP, 0, 1⟩
def Fld.SYSCTL_STRAP_UNSEAL : Field := ⟨Reg.SYSCTL_STRAP, 1, 1⟩
def Reg.SYSCTL_BOOT_STAT : Nat := 0x4000004c
def Fld.SYSCTL_BOOT_STAT_STAGE : Field := ⟨Reg.SYSCTL_BOOT_STAT, 0, 2⟩
def Fld.SYSCTL_BOOT_STAT_COLD : Field := ⟨Reg.SYSCTL_BOOT_STAT, 2, 1⟩
def Fld.SYSCTL_BOOT_STAT_SEAL_OK : Field := ⟨Reg.SYSCTL_BOOT_STAT, 3, 1⟩
def Fld.SYSCTL_BOOT_STAT_OTP_ERR : Field := ⟨Reg.SYSCTL_BOOT_STAT, 4, 1⟩
def Fld.SYSCTL_BOOT_STAT_LDR_AT_LIMIT : Field := ⟨Reg.SYSCTL_BOOT_STAT, 5, 1⟩
def Fld.SYSCTL_BOOT_STAT_SEAL_N : Field := ⟨Reg.SYSCTL_BOOT_STAT, 16, 9⟩
def Reg.SYSCTL_AFL_RES : Nat := 0x40000050
def Fld.SYSCTL_AFL_RES_RESULT : Field := ⟨Reg.SYSCTL_AFL_RES, 0, 3⟩
def Fld.SYSCTL_AFL_RES_UNSIGNED : Field := ⟨Reg.SYSCTL_AFL_RES, 3, 1⟩
def Reg.SYSCTL_AFL_VER : Nat := 0x40000054
def Fld.SYSCTL_AFL_VER_VER : Field := ⟨Reg.SYSCTL_AFL_VER, 0, 32⟩
def Reg.SYSCTL_AFL_INFO : Nat := 0x40000058
def Fld.SYSCTL_AFL_INFO_SIL : Field := ⟨Reg.SYSCTL_AFL_INFO, 0, 16⟩
def Fld.SYSCTL_AFL_INFO_IFVER : Field := ⟨Reg.SYSCTL_AFL_INFO, 16, 16⟩
def Reg.SYSCTL_AC_CTRL : Nat := 0x4000005c
def Fld.SYSCTL_AC_CTRL_RUN : Field := ⟨Reg.SYSCTL_AC_CTRL, 0, 1⟩
def Fld.SYSCTL_AC_CTRL_HOLD : Field := ⟨Reg.SYSCTL_AC_CTRL, 1, 1⟩
def Fld.SYSCTL_AC_CTRL_RESTART : Field := ⟨Reg.SYSCTL_AC_CTRL, 2, 1⟩
def Reg.SYSCTL_SWRST : Nat := 0x40000060
def Fld.SYSCTL_SWRST_KEY : Field := ⟨Reg.SYSCTL_SWRST, 0, 16⟩
def Fld.SYSCTL_SWRST_GO : Field := ⟨Reg.SYSCTL_SWRST, 31, 1⟩
def Reg.SYSCTL_SEAL_CRC : Nat := 0x40000064
def Fld.SYSCTL_SEAL_CRC_CRC : Field := ⟨Reg.SYSCTL_SEAL_CRC, 0, 32⟩
def Reg.SYSCTL_AFL_CMD : Nat := 0x40000068
def Fld.SYSCTL_AFL_CMD_OP : Field := ⟨Reg.SYSCTL_AFL_CMD, 0, 2⟩
def Fld.SYSCTL_AFL_CMD_PAGE : Field := ⟨Reg.SYSCTL_AFL_CMD, 8, 13⟩
def Fld.SYSCTL_AFL_CMD_GO : Field := ⟨Reg.SYSCTL_AFL_CMD, 31, 1⟩
def Reg.SYSCTL_AFL_SRC : Nat := 0x4000006c
def Fld.SYSCTL_AFL_SRC_WORD : Field := ⟨Reg.SYSCTL_AFL_SRC, 0, 11⟩
def Reg.SYSCTL_AFL_STAT : Nat := 0x40000070
def Fld.SYSCTL_AFL_STAT_BUSY : Field := ⟨Reg.SYSCTL_AFL_STAT, 0, 1⟩
def Fld.SYSCTL_AFL_STAT_RESULT : Field := ⟨Reg.SYSCTL_AFL_STAT, 1, 2⟩
def Reg.FUSE_LIFECYCLE : Nat := 0x40024040
def Fld.FUSE_LIFECYCLE_STATE : Field := ⟨Reg.FUSE_LIFECYCLE, 0, 3⟩
def Fld.FUSE_LIFECYCLE_BASE : Field := ⟨Reg.FUSE_LIFECYCLE, 4, 3⟩
def Reg.FUSE_DEV_ID_LO : Nat := 0x40024044
def Fld.FUSE_DEV_ID_LO_ID : Field := ⟨Reg.FUSE_DEV_ID_LO, 0, 32⟩
def Reg.FUSE_DEV_ID_HI : Nat := 0x40024048
def Fld.FUSE_DEV_ID_HI_ID : Field := ⟨Reg.FUSE_DEV_ID_HI, 0, 32⟩
def Reg.FUSE_CUST_KEY_HASH (w : Nat) : Nat := 0x40024060 + w * 4
def Fld.FUSE_CUST_KEY_HASH_H (w : Nat) : Field := ⟨Reg.FUSE_CUST_KEY_HASH w, 0, 32⟩
def Reg.FUSE_PROG_CMD : Nat := 0x40024080
def Fld.FUSE_PROG_CMD_TARGET : Field := ⟨Reg.FUSE_PROG_CMD, 0, 3⟩
def Fld.FUSE_PROG_CMD_GO : Field := ⟨Reg.FUSE_PROG_CMD, 31, 1⟩
def Reg.FUSE_PROG_STAT : Nat := 0x40024084
def Fld.FUSE_PROG_STAT_BUSY : Field := ⟨Reg.FUSE_PROG_STAT, 0, 1⟩
def Fld.FUSE_PROG_STAT_RESULT : Field := ⟨Reg.FUSE_PROG_STAT, 1, 2⟩
def Fld.FUSE_PROG_STAT_PENDING : Field := ⟨Reg.FUSE_PROG_STAT, 3, 1⟩
def Reg.FUSE_PROG_DATA (w : Nat) : Nat := 0x400240a0 + w * 4
def Fld.FUSE_PROG_DATA_D (w : Nat) : Field := ⟨Reg.FUSE_PROG_DATA w, 0, 32⟩
def Reg.EVTMX_PEND_SUM (w : Nat) : Nat := 0x4000a040 + w * 4
def Fld.EVTMX_PEND_SUM_PEND (w : Nat) : Field := ⟨Reg.EVTMX_PEND_SUM w, 0, 32⟩
def Reg.EVTMX_NEXT (t : Nat) : Nat := 0x4000a080 + t * 4
def Fld.EVTMX_NEXT_EVT (t : Nat) : Field := ⟨Reg.EVTMX_NEXT t, 0, 9⟩
def Fld.EVTMX_NEXT_NONE (t : Nat) : Field := ⟨Reg.EVTMX_NEXT t, 15, 1⟩
def Reg.EVTMX_FLT_EN (w : Nat) : Nat := 0x4000a0c0 + w * 4
def Fld.EVTMX_FLT_EN_EN (w : Nat) : Field := ⟨Reg.EVTMX_FLT_EN w, 0, 32⟩
def Reg.EVTMX_FLOG_WR : Nat := 0x4000a100
def Fld.EVTMX_FLOG_WR_IDX : Field := ⟨Reg.EVTMX_FLOG_WR, 0, 4⟩
def Reg.EVTMX_FLOG_CNT : Nat := 0x4000a104
def Fld.EVTMX_FLOG_CNT_CNT : Field := ⟨Reg.EVTMX_FLOG_CNT, 0, 32⟩
def Reg.EVTMX_FLOG_CLR : Nat := 0x4000a108
def Fld.EVTMX_FLOG_CLR_CLR : Field := ⟨Reg.EVTMX_FLOG_CLR, 0, 1⟩
def Reg.EVTMX_FLOG_EVT (n : Nat) : Nat := 0x4000a140 + n * 8
def Fld.EVTMX_FLOG_EVT_EVT (n : Nat) : Field := ⟨Reg.EVTMX_FLOG_EVT n, 0, 9⟩
def Fld.EVTMX_FLOG_EVT_VALID (n : Nat) : Field := ⟨Reg.EVTMX_FLOG_EVT n, 16, 1⟩
def Fld.EVTMX_FLOG_EVT_OVR (n : Nat) : Field := ⟨Reg.EVTMX_FLOG_EVT n, 17, 1⟩
def Fld.EVTMX_FLOG_EVT_NOTIME (n : Nat) : Field := ⟨Reg.EVTMX_FLOG_EVT n, 18, 1⟩
def Fld.EVTMX_FLOG_EVT_TICK (n : Nat) : Field := ⟨Reg.EVTMX_FLOG_EVT n, 24, 8⟩
def Reg.EVTMX_FLOG_CYC (n : Nat) : Nat := 0x4000a144 + n * 8
def Fld.EVTMX_FLOG_CYC_CYC (n : Nat) : Field := ⟨Reg.EVTMX_FLOG_CYC n, 0, 32⟩

def Ev.SYSCTL_AC_STARTED : Nat := 0
def Ev.SYSCTL_AFL_FAIL : Nat := 1
def Ev.SYSCTL_RESTART_REQ : Nat := 2
def Ev.SYSCTL_LDR_CMD : Nat := 3
def Ev.SYSCTL_LIFECYCLE : Nat := 4
def Ev.SYSCTL_SEAL_ERR : Nat := 5
def Ev.SYSCTL_AFL_DONE : Nat := 6
def Ev.PWR_STATE_CHG : Nat := 8
def Ev.PWR_CMD_REJ : Nat := 9
def Ev.PWR_DROP_ABORTED : Nat := 10
def Ev.PWR_DROP_REWAKE : Nat := 11
def Ev.PWR_DOM_UP : Nat := 12
def Ev.PWR_DOM_DOWN : Nat := 13
def Ev.PWR_PFW : Nat := 14
def Ev.PWR_PFW_CLR : Nat := 15
def Ev.PWR_VBAT_SW : Nat := 16
def Ev.PWR_SAVE_ERR : Nat := 17
def Ev.PWR_AT_LIMIT : Nat := 18
def Ev.PWR_BOR_SEEN : Nat := 19
def Ev.CLK_PLL_S_LOCK : Nat := 20
def Ev.CLK_PLL_M_LOCK : Nat := 21
def Ev.CLK_CLK_SW : Nat := 22
def Ev.CLK_UNLOCK : Nat := 23
def Ev.ROOSTER_WOKE : Nat := 26
def Ev.ROOSTER_I2C_WAKE : Nat := 27
def Ev.ROOSTER_I2C_TO : Nat := 28
def Ev.ROOSTER_AT_LIMIT : Nat := 29
def Ev.GANDER_SRC (n : Nat) : Nat := 32 + n
def Ev.GANDER_KWK_DESTROYED : Nat := 46
def Ev.GANDER_SAT : Nat := 47
def Ev.RTC_SEC : Nat := 48
def Ev.RTC_ALARM : Nat := 49
def Ev.RTC_DST_DONE : Nat := 50
def Ev.RTC_ADJ_DONE : Nat := 51
def Ev.RTC_STEP : Nat := 52
def Ev.RTC_VBATLOW : Nat := 53
def Ev.RTC_LFXO_FAIL : Nat := 54
def Ev.RTC_CMD_REJ : Nat := 55
def Ev.MAE_LOCKED : Nat := 56
def Ev.MAE_COAST : Nat := 57
def Ev.MAE_SYNTH : Nat := 58
def Ev.MAE_ACQUIRE : Nat := 59
def Ev.MAE_SPLICE : Nat := 60
def Ev.MAE_SLEWING : Nat := 61
def Ev.MAE_REF_SWITCH : Nat := 62
def Ev.MAE_REF_LOST : Nat := 63
def Ev.MAE_FREQ_OOR : Nat := 64
def Ev.MAE_CYC_WRAP : Nat := 65
def Ev.MAE_CAP (n : Nat) : Nat := 66 + n
def Ev.MAE_CAP_OVR : Nat := 70
def Ev.MAE_RESUMED : Nat := 71
def Ev.HERD_MISSED : Nat := 72
def Ev.HERD_LATE : Nat := 73
def Ev.HERD_DEFERRED : Nat := 74
def Ev.HERD_DESC_ERR : Nat := 75
def Ev.HERD_CTX_WAIT : Nat := 76
def Ev.HERD_PART_VIOL : Nat := 77
def Ev.HERD_HALTED : Nat := 78
def Ev.HERD_REARMED : Nat := 79
def Ev.HERD_LOG_OVR : Nat := 80
def Ev.HERD_BACKLOG : Nat := 81
def Ev.HERD_USR (n : Nat) : Nat := 88 + n
def Ev.MULE_PAGE_ERR : Nat := 104
def Ev.MULE_STALL_TO : Nat := 105
def Ev.MULE_PIN_FULL : Nat := 106
def Ev.MULE_EPOCH_DONE : Nat := 107
def Ev.MULE_EPOCH_FAIL : Nat := 108
def Ev.MULE_BACKSTOP : Nat := 109
def Ev.MULE_RESTORED : Nat := 110
def Ev.MULE_RESTORE_FAIL : Nat := 111
def Ev.MULE_FORCED : Nat := 112
def Ev.MULE_PARK_FULL : Nat := 113
def Ev.MULE_PFW_STOP : Nat := 114
def Ev.MULE_WIN_PROT : Nat := 115
def Ev.MULE_CORRUPT : Nat := 116
def Ev.MULE_AT_LIMIT : Nat := 117
def Ev.MULE_FORMAT_DONE : Nat := 118
def Ev.MULE_LOG_OVR : Nat := 119
def Ev.MEMCTL_CE : Nat := 120
def Ev.MEMCTL_UE : Nat := 121
def Ev.MEMCTL_ADDR_ERR : Nat := 122
def Ev.MEMCTL_NONOWNER : Nat := 123
def Ev.MEMCTL_HANDOVER_DONE : Nat := 124
def Ev.MEMCTL_OWN_REFUSED : Nat := 125
def Ev.MEMCTL_RMW_FAIL : Nat := 126
def Ev.MEMCTL_CE_THR : Nat := 127
def Ev.MEMCTL_CLEAR_DONE : Nat := 128
def Ev.MEMCTL_LOG_OVR : Nat := 129
def Ev.MEMCTL_STORE_ERR : Nat := 130
def Ev.MEMCTL_STORE_FULL : Nat := 131
def Ev.MET_FE_OVL : Nat := 144
def Ev.MET_FE_RANGE_CHG : Nat := 145
def Ev.MET_FE_SETTLE : Nat := 146
def Ev.MET_FE_SNAP_DONE : Nat := 147
def Ev.MET_FE_SNAP_OVR : Nat := 148
def Ev.MET_FE_CFG_ERR : Nat := 149
def Ev.MET_FE_CNT_EDGE (n : Nat) : Nat := 150 + n
def Ev.MET_FE_CNT_WRAP (n : Nat) : Nat := 154 + n
def Ev.MET_CAL_TBL_TRUNC : Nat := 160
def Ev.MET_CAL_TC_UPD : Nat := 161
def Ev.MET_QTY_CYC_DONE : Nat := 164
def Ev.MET_QTY_SPLICED : Nat := 165
def Ev.MET_QTY_HELD : Nat := 166
def Ev.MET_QTY_NOREF : Nat := 167
def Ev.MET_QTY_ROT_ERR : Nat := 168
def Ev.ENERGY_TSRC_FB : Nat := 176
def Ev.ENERGY_TSRC_OK : Nat := 177
def Ev.ENERGY_TYPE_ERR : Nat := 178
def Ev.ENERGY_ESNAP_DONE : Nat := 179
def Ev.ENERGY_ESNAP_OVR : Nat := 180
def Ev.ENERGY_CL_NEG : Nat := 181
def Ev.PULSE_OVF (n : Nat) : Nat := 184 + n
def Ev.PULSE_SHORTENED (n : Nat) : Nat := 186 + n
def Ev.UFE_DRV_SHOT_OPEN : Nat := 192
def Ev.UFE_DRV_SHOT_SHORT : Nat := 193
def Ev.UFE_DRV_PATH_OPEN : Nat := 194
def Ev.UFE_DRV_PATH_SHORT : Nat := 195
def Ev.UFE_DRV_PATH_OK : Nat := 196
def Ev.UFE_DRV_MAN_REJ : Nat := 197
def Ev.UFE_RX_CLIP : Nat := 200
def Ev.UFE_RX_MASKED : Nat := 201
def Ev.UFE_RX_AGC_MAX : Nat := 202
def Ev.UFE_RX_AGC_MIN : Nat := 203
def Ev.UFE_RX_GAIN_CHG : Nat := 204
def Ev.UFE_TOF_PAIR_DONE : Nat := 212
def Ev.UFE_TOF_DT_INVALID : Nat := 213
def Ev.UFE_TOF_NOHIT : Nat := 214
def Ev.UFE_TOF_ORDER : Nat := 215
def Ev.UFE_TOF_SUB_TICK : Nat := 216
def Ev.UFE_TOF_AT_LIMIT : Nat := 217
def Ev.UFE_TOF_LOWCORR : Nat := 218
def Ev.UFE_TOF_LAG_EDGE : Nat := 219
def Ev.UFE_TOF_NOSTART : Nat := 220
def Ev.UFE_TOF_ABORT : Nat := 221
def Ev.UFE_TOF_RES_OVR : Nat := 222
def Ev.FLOW_FLOW_UNKNOWN : Nat := 224
def Ev.FLOW_FLOW_OK : Nat := 225
def Ev.FLOW_EMPTY : Nat := 226
def Ev.FLOW_EMPTY_CLR : Nat := 227
def Ev.FLOW_LEAK : Nat := 228
def Ev.FLOW_LEAK_VOID : Nat := 229
def Ev.FLOW_COOL_OOR : Nat := 230
def Ev.FLOW_AT_LIMIT : Nat := 231
def Ev.RTD_CONV_DONE : Nat := 240
def Ev.RTD_BROKEN : Nat := 241
def Ev.RTD_SHORT : Nat := 242
def Ev.RTD_OOR : Nat := 243
def Ev.RTD_MAN_REJ : Nat := 244
def Ev.THERM_ILIM_CHG : Nat := 248
def Ev.THERM_HOT_ANY : Nat := 249
def Ev.THERM_LVL_UP : Nat := 250
def Ev.THERM_LVL_DOWN : Nat := 251
def Ev.THERM_FAULT_LIM : Nat := 252
def Ev.THERM_DRY : Nat := 253
def Ev.THERM_OVER_ILIM : Nat := 254
def Ev.TARIFF_TARIFF_CHG : Nat := 256
def Ev.TARIFF_TBL_COMMIT : Nat := 257
def Ev.TARIFF_TBL_ERR : Nat := 258
def Ev.BILL_REC_READY : Nat := 259
def Ev.BILL_REC_DONE : Nat := 260
def Ev.BILL_SPLIT : Nat := 261
def Ev.BILL_SESS_ERR : Nat := 262
def Ev.BILL_REC_ERR : Nat := 263
def Ev.PREPAY_ENTRY : Nat := 264
def Ev.PREPAY_RESULT : Nat := 265
def Ev.PREPAY_LOW_CREDIT : Nat := 266
def Ev.PREPAY_CREDIT_OUT : Nat := 267
def Ev.PREPAY_FH_END : Nat := 268
def Ev.CRYPTO_DONE : Nat := 270
def Ev.CRYPTO_ERR : Nat := 271
def Ev.CRYPTO_KEY_LOST : Nat := 272
def Ev.CRYPTO_TAMPER_ABORT : Nat := 273
def Ev.LGLMBX_REQ : Nat := 274
def Ev.LGLMBX_RSP : Nat := 275
def Ev.LGLMBX_IF_CHG : Nat := 276
def Ev.LGLMBX_TIMEOUT : Nat := 277
def Ev.FWALL_FW_VIOL : Nat := 278
def Ev.FWALL_LWDG : Nat := 279
def Ev.LCD_ERR_CHG : Nat := 280
def Ev.LCD_MANUAL : Nat := 281
def Ev.LCD_RESULT_SHOWN : Nat := 282
def Ev.KEYPAD_KEY : Nat := 284
def Ev.KEYPAD_FIFO_OVR : Nat := 285
def Ev.KEYPAD_MULTI : Nat := 286
def Ev.KEYPAD_STUCK : Nat := 287
def Ev.LAMP_DIAG_DONE : Nat := 288
def Ev.LAMP_OPEN : Nat := 289
def Ev.LAMP_SHORT : Nat := 290
def Ev.LAMP_STARVED : Nat := 291
def Ev.LAMP_LAMP_OK : Nat := 292
def Ev.HSPI_FRAME_ERR : Nat := 296
def Ev.HSPI_DMA_DONE : Nat := 297
def Ev.HSPI_DMA_ERR : Nat := 298
def Ev.HSPI_AT_LIMIT : Nat := 299
def Ev.I2CT_I2C_ERR : Nat := 300
def Ev.I2CT_PORT_BUSY : Nat := 301
def Ev.I2CT_AT_LIMIT : Nat := 302
def Ev.MSPI_FAIL : Nat := 303
def Ev.MSPI_TIMEOUT : Nat := 304
def Ev.MSPI_AT_LIMIT : Nat := 305
def Ev.MSPI_TX_SLOW : Nat := 306
def Ev.MSPI_DIR_DONE : Nat := 307
def Ev.UART_RX_DATA : Nat := 308
def Ev.UART_TX_EMPTY : Nat := 309
def Ev.UART_RX_ERR : Nat := 310
def Ev.UART_DMA_DONE : Nat := 311
def Ev.DPM_COLL_A : Nat := 312
def Ev.DPM_COLL_B : Nat := 313
def Ev.DPM_AT_LIMIT : Nat := 314
def Ev.WATCH_CHECK_DONE : Nat := 316
def Ev.WATCH_ANOMALY : Nat := 317
def Ev.WATCH_SKIPPED : Nat := 318
def Ev.WATCH_CAPTURED : Nat := 319

/-- R453: the events that exist, as runs of numbers; the other numbers are reserved bits. -/
def eventRuns : List (Nat × Nat) :=
  [(0, 6), (8, 23), (26, 29), (32, 81), (88, 131), (144, 157), (160, 161), (164, 168), (176, 181), (184, 187), (192, 197), (200, 204), (212, 222), (224, 231), (240, 244), (248, 254), (256, 268), (270, 282), (284, 292), (296, 314), (316, 319)]

/-- R453: whether event number `e` exists. -/
def eventExists (e : Nat) : Bool := eventRuns.any fun r => r.1 ≤ e && e ≤ r.2

end Sys2Proof.Machine
end

