-- ==== Sys2Proof/Machine/RegTable.lean ====
section
/-! DEFINITION. The register tables of the pages: for each register its place, its repetition and its fields with their
types (R12), reset values and what keeps them through a reset (R15, R358). -/

namespace Sys2Proof.Machine

/-- The register types of R12. -/
inductive FType where
  | rw | ro | w1c | w1s | wo | rwo | rwu
deriving DecidableEq, Repr

/-- What keeps a field through a reset of its domain (R15): nothing, AON, or the fuses. -/
inductive Kept where
  | no | aon | fuse
deriving DecidableEq, Repr

/-- One field of a register table: lowest bit, width, type, reset value, what keeps it. -/
structure FieldRow where
  lo : Nat
  width : Nat
  ty : FType
  reset : Nat
  kept : Kept
deriving DecidableEq, Repr

/-- One register of a table: offset in the page, repetition (count and stride, outermost first), fields. -/
structure RegRow where
  base : Nat
  dims : List (Nat × Nat)
  fields : List FieldRow
deriving DecidableEq, Repr

/-- The registers of page SYSCTL. -/
def RegTable.sysctl : List RegRow :=
  [⟨0x40, [], [⟨0, 8, .ro, 0xa2, .no⟩, ⟨16, 16, .ro, 0xc724, .no⟩]⟩,
   ⟨0x44, [], [⟨0, 8, .w1c, 0, .aon⟩]⟩,
   ⟨0x48, [], [⟨0, 1, .ro, 0, .no⟩, ⟨1, 1, .ro, 0, .no⟩]⟩,
   ⟨0x4c, [], [⟨0, 2, .ro, 0, .no⟩, ⟨2, 1, .ro, 0, .no⟩, ⟨3, 1, .ro, 0, .no⟩, ⟨4, 1, .ro, 0, .no⟩, ⟨5, 1, .w1c, 0, .no⟩, ⟨16, 9, .ro, 0, .no⟩]⟩,
   ⟨0x50, [], [⟨0, 3, .ro, 0, .no⟩, ⟨3, 1, .ro, 0, .no⟩]⟩,
   ⟨0x54, [], [⟨0, 32, .ro, 0, .no⟩]⟩,
   ⟨0x58, [], [⟨0, 16, .ro, 0, .no⟩, ⟨16, 16, .ro, 0, .no⟩]⟩,
   ⟨0x5c, [], [⟨0, 1, .ro, 0, .no⟩, ⟨1, 1, .rw, 0, .no⟩, ⟨2, 1, .wo, 0, .no⟩]⟩,
   ⟨0x60, [], [⟨0, 16, .wo, 0, .no⟩, ⟨31, 1, .wo, 0, .no⟩]⟩,
   ⟨0x64, [], [⟨0, 32, .ro, 0, .no⟩]⟩,
   ⟨0x68, [], [⟨0, 2, .wo, 0, .no⟩, ⟨8, 13, .wo, 0, .no⟩, ⟨31, 1, .wo, 0, .no⟩]⟩,
   ⟨0x6c, [], [⟨0, 11, .rw, 0, .no⟩]⟩,
   ⟨0x70, [], [⟨0, 1, .ro, 0, .no⟩, ⟨1, 2, .ro, 0, .no⟩]⟩]

/-- The registers of page PWR. -/
def RegTable.pwr : List RegRow :=
  [⟨0x40, [], [⟨0, 4, .wo, 0, .no⟩, ⟨31, 1, .wo, 0, .no⟩]⟩,
   ⟨0x44, [], [⟨0, 4, .ro, 1, .no⟩, ⟨4, 4, .ro, 0, .no⟩, ⟨8, 1, .ro, 0, .no⟩, ⟨9, 3, .ro, 0, .no⟩, ⟨12, 4, .ro, 0, .no⟩, ⟨16, 1, .w1c, 0, .no⟩]⟩,
   ⟨0x48, [], [⟨0, 20, .ro, 3, .no⟩]⟩,
   ⟨0x4c, [], [⟨0, 4, .ro, 0, .no⟩, ⟨4, 3, .ro, 0, .no⟩]⟩,
   ⟨0x60, [(9, 0x10)], [⟨0, 16, .ro, 0, .no⟩]⟩,
   ⟨0x64, [(9, 0x10)], [⟨0, 16, .wo, 0, .no⟩]⟩,
   ⟨0x68, [(9, 0x10)], [⟨0, 16, .wo, 0, .no⟩]⟩,
   ⟨0x6c, [(9, 0x10)], [⟨0, 16, .ro, 0, .no⟩, ⟨16, 8, .ro, 0, .no⟩, ⟨24, 8, .ro, 0, .no⟩]⟩,
   ⟨0x100, [], [⟨0, 16, .rw, 0, .aon⟩]⟩,
   ⟨0x104, [], [⟨1, 9, .rw, 0x12f, .aon⟩, ⟨16, 8, .rw, 0x32, .aon⟩]⟩,
   ⟨0x108, [], [⟨0, 1, .ro, 0, .no⟩, ⟨1, 1, .w1c, 0, .no⟩, ⟨2, 1, .ro, 0, .aon⟩, ⟨3, 1, .w1c, 0, .aon⟩]⟩,
   ⟨0x110, [], [⟨0, 10, .ro, 0, .aon⟩, ⟨16, 10, .ro, 0, .aon⟩, ⟨26, 1, .w1c, 0, .aon⟩]⟩,
   ⟨0x114, [], [⟨0, 32, .ro, 0, .aon⟩]⟩]

/-- The registers of page CLK. -/
def RegTable.clk : List RegRow :=
  [⟨0x40, [], [⟨0, 2, .rw, 1, .no⟩]⟩,
   ⟨0x44, [], [⟨0, 1, .rw, 1, .no⟩]⟩,
   ⟨0x48, [], [⟨0, 1, .ro, 0, .no⟩, ⟨1, 1, .ro, 0, .no⟩, ⟨2, 1, .ro, 0, .no⟩, ⟨3, 2, .ro, 0, .no⟩, ⟨5, 5, .ro, 0, .no⟩]⟩]

/-- The registers of page ROOSTER. -/
def RegTable.rooster : List RegRow :=
  [⟨0x40, [], [⟨0, 8, .rw, 0xe7, .aon⟩, ⟨8, 4, .rw, 0, .aon⟩]⟩,
   ⟨0x44, [], [⟨0, 1, .rw, 0, .aon⟩, ⟨1, 1, .rw, 1, .aon⟩, ⟨8, 6, .rw, 5, .aon⟩]⟩,
   ⟨0x48, [], [⟨0, 1, .rw, 0, .aon⟩]⟩,
   ⟨0x4c, [], [⟨0, 4, .ro, 0, .aon⟩, ⟨4, 4, .ro, 0, .aon⟩]⟩,
   ⟨0x50, [], [⟨0, 8, .w1c, 0, .aon⟩]⟩,
   ⟨0x54, [], [⟨0, 32, .ro, 0, .aon⟩]⟩,
   ⟨0x58, [], [⟨0, 29, .ro, 0, .aon⟩]⟩,
   ⟨0x5c, [], [⟨0, 32, .ro, 0, .aon⟩]⟩,
   ⟨0x60, [], [⟨0, 16, .ro, 0, .aon⟩, ⟨16, 16, .ro, 0, .aon⟩]⟩]

/-- The registers of page GANDER. -/
def RegTable.gander : List RegRow :=
  [⟨0x40, [(7, 4)], [⟨0, 2, .rwu, 1, .aon⟩, ⟨2, 1, .rwu, 1, .aon⟩, ⟨3, 1, .rwu, 1, .aon⟩, ⟨4, 1, .rwu, 1, .aon⟩, ⟨8, 8, .rwu, 0x14, .aon⟩]⟩,
   ⟨0x64, [(3, 4)], [⟨0, 2, .rwu, 1, .aon⟩, ⟨2, 1, .rwu, 1, .aon⟩, ⟨3, 1, .rwu, 1, .aon⟩, ⟨4, 1, .rwu, 1, .aon⟩, ⟨8, 8, .rwu, 0x14, .aon⟩]⟩,
   ⟨0x5c, [(1, 4)], [⟨0, 2, .rwu, 0, .aon⟩, ⟨2, 1, .ro, 1, .aon⟩, ⟨3, 1, .rwu, 1, .aon⟩, ⟨4, 1, .rwu, 1, .aon⟩, ⟨8, 8, .rwu, 0x14, .aon⟩]⟩,
   ⟨0x60, [(1, 4)], [⟨0, 2, .rwu, 0, .aon⟩, ⟨2, 1, .rwu, 1, .aon⟩, ⟨3, 1, .rwu, 1, .aon⟩, ⟨4, 1, .rwu, 1, .aon⟩, ⟨8, 8, .rwu, 0x14, .aon⟩]⟩,
   ⟨0x70, [(1, 4)], [⟨0, 2, .ro, 2, .aon⟩, ⟨2, 1, .ro, 1, .aon⟩, ⟨3, 1, .rwu, 1, .aon⟩, ⟨4, 1, .rwu, 1, .aon⟩, ⟨8, 8, .rwu, 0x14, .aon⟩]⟩,
   ⟨0x74, [(1, 4)], [⟨0, 2, .rwu, 2, .aon⟩, ⟨2, 1, .rwu, 1, .aon⟩, ⟨3, 1, .rwu, 1, .aon⟩, ⟨4, 1, .rwu, 1, .aon⟩, ⟨8, 8, .rwu, 0x14, .aon⟩]⟩,
   ⟨0x80, [(14, 4)], [⟨0, 16, .ro, 0, .aon⟩, ⟨16, 1, .ro, 0, .aon⟩]⟩,
   ⟨0x100, [(14, 0x10)], [⟨0, 32, .ro, 0, .aon⟩]⟩,
   ⟨0x104, [(14, 0x10)], [⟨0, 29, .ro, 0, .aon⟩]⟩,
   ⟨0x108, [(14, 0x10)], [⟨0, 32, .ro, 0, .aon⟩]⟩,
   ⟨0x10c, [(14, 0x10)], [⟨0, 29, .ro, 0, .aon⟩]⟩,
   ⟨0x200, [], [⟨0, 14, .ro, 0, .aon⟩, ⟨16, 4, .ro, 0xc, .aon⟩, ⟨20, 1, .ro, 1, .aon⟩]⟩,
   ⟨0x204, [], [⟨0, 1, .wo, 0, .no⟩]⟩,
   ⟨0x208, [], [⟨0, 16, .rwu, 0xfe3e, .aon⟩, ⟨16, 16, .rwu, 0x3e8, .aon⟩]⟩,
   ⟨0x20c, [], [⟨0, 8, .rwu, 0x14, .aon⟩, ⟨8, 4, .rwu, 4, .aon⟩, ⟨16, 6, .rwu, 1, .aon⟩]⟩,
   ⟨0x210, [], [⟨0, 16, .ro, 0, .aon⟩]⟩,
   ⟨0x214, [], [⟨0, 32, .ro, 0, .aon⟩]⟩]

/-- The registers of page RTC. -/
def RegTable.rtc : List RegRow :=
  [⟨0x40, [], [⟨0, 8, .ro, 0, .aon⟩, ⟨8, 8, .ro, 0, .aon⟩, ⟨16, 8, .ro, 0, .aon⟩, ⟨24, 8, .ro, 1, .aon⟩]⟩,
   ⟨0x44, [], [⟨0, 8, .ro, 1, .aon⟩, ⟨8, 8, .ro, 0, .aon⟩, ⟨16, 8, .ro, 6, .aon⟩, ⟨24, 1, .ro, 0, .aon⟩, ⟨25, 1, .ro, 1, .aon⟩, ⟨26, 1, .ro, 0, .aon⟩]⟩,
   ⟨0x48, [], [⟨0, 17, .ro, 0, .aon⟩]⟩,
   ⟨0x4c, [], [⟨0, 32, .ro, 0, .aon⟩]⟩,
   ⟨0x50, [], [⟨0, 16, .ro, 0, .aon⟩]⟩,
   ⟨0x54, [], [⟨0, 1, .ro, 0, .aon⟩, ⟨1, 1, .w1c, 0, .aon⟩, ⟨2, 1, .ro, 0, .aon⟩, ⟨3, 1, .ro, 0, .aon⟩, ⟨4, 1, .ro, 0, .aon⟩]⟩,
   ⟨0x58, [], [⟨0, 32, .rw, 0, .aon⟩]⟩,
   ⟨0x5c, [], [⟨0, 16, .rw, 0, .aon⟩, ⟨24, 1, .rw, 0, .aon⟩]⟩,
   ⟨0x60, [], [⟨0, 3, .wo, 0, .no⟩, ⟨31, 1, .wo, 0, .no⟩]⟩,
   ⟨0x64, [], [⟨0, 3, .ro, 0, .aon⟩, ⟨3, 3, .ro, 0, .aon⟩]⟩,
   ⟨0x68, [], [⟨0, 32, .rw, 0, .aon⟩]⟩,
   ⟨0x6c, [], [⟨0, 15, .rw, 0, .aon⟩]⟩,
   ⟨0x70, [], [⟨0, 8, .rw, 0x1e, .aon⟩, ⟨16, 12, .rw, 0x148, .aon⟩]⟩,
   ⟨0x74, [], [⟨0, 8, .rwu, 0x78, .aon⟩]⟩,
   ⟨0x78, [], [⟨0, 32, .ro, 0, .aon⟩]⟩,
   ⟨0x80, [], [⟨0, 32, .ro, 0, .aon⟩]⟩,
   ⟨0x84, [], [⟨0, 32, .ro, 0, .aon⟩]⟩,
   ⟨0x88, [], [⟨0, 32, .ro, 0, .aon⟩]⟩,
   ⟨0x8c, [], [⟨0, 32, .ro, 0, .aon⟩]⟩,
   ⟨0x90, [], [⟨0, 1, .ro, 0, .aon⟩, ⟨1, 1, .ro, 0, .aon⟩, ⟨2, 1, .ro, 0, .aon⟩, ⟨16, 16, .ro, 0, .aon⟩]⟩,
   ⟨0xa0, [], [⟨0, 32, .rw, 0, .aon⟩]⟩,
   ⟨0xa4, [], [⟨0, 8, .rw, 0, .aon⟩]⟩,
   ⟨0xa8, [], [⟨0, 1, .rw, 0, .aon⟩, ⟨1, 1, .rw, 0, .aon⟩, ⟨8, 5, .rw, 0, .aon⟩]⟩,
   ⟨0xb0, [], [⟨0, 1, .rwu, 1, .aon⟩]⟩,
   ⟨0xb4, [], [⟨0, 16, .rwu, 0, .aon⟩]⟩,
   ⟨0xb8, [], [⟨0, 9, .ro, 0, .aon⟩, ⟨9, 1, .ro, 0, .aon⟩, ⟨16, 16, .ro, 0, .aon⟩]⟩,
   ⟨0xc0, [], [⟨0, 32, .ro, 0, .fuse⟩]⟩,
   ⟨0xc4, [], [⟨0, 16, .ro, 0, .fuse⟩, ⟨16, 16, .ro, 0, .fuse⟩]⟩,
   ⟨0xc8, [], [⟨0, 5, .ro, 0, .fuse⟩]⟩,
   ⟨0x100, [(16, 4)], [⟨0, 16, .ro, 0, .fuse⟩, ⟨16, 16, .ro, 0, .fuse⟩]⟩,
   ⟨0x140, [], [⟨0, 4, .rw, 4, .aon⟩]⟩,
   ⟨0x144, [], [⟨0, 12, .ro, 0, .aon⟩]⟩,
   ⟨0x150, [], [⟨0, 3, .rw, 0, .aon⟩]⟩]

/-- The registers of page MAE. -/
def RegTable.mae : List RegRow :=
  [⟨0x40, [], [⟨0, 2, .rw, 3, .no⟩, ⟨2, 2, .rw, 2, .no⟩, ⟨4, 2, .rw, 1, .no⟩, ⟨6, 1, .rw, 1, .no⟩]⟩,
   ⟨0x44, [], [⟨0, 3, .ro, 4, .no⟩, ⟨3, 2, .ro, 0, .no⟩, ⟨5, 1, .ro, 0, .no⟩, ⟨6, 1, .ro, 0, .no⟩, ⟨7, 1, .w1c, 0, .no⟩, ⟨8, 8, .ro, 0, .no⟩]⟩,
   ⟨0x48, [], [⟨0, 32, .ro, 0, .no⟩]⟩,
   ⟨0x4c, [], [⟨0, 32, .ro, 0, .no⟩]⟩,
   ⟨0x50, [], [⟨0, 16, .ro, 0, .no⟩]⟩,
   ⟨0x54, [], [⟨0, 32, .ro, 0x320000, .no⟩]⟩,
   ⟨0x58, [], [⟨0, 25, .ro, 0xcccccd, .no⟩]⟩,
   ⟨0x5c, [], [⟨0, 16, .ro, 0, .no⟩]⟩,
   ⟨0x60, [], [⟨0, 32, .ro, 0, .no⟩]⟩,
   ⟨0x64, [], [⟨0, 8, .rw, 0x19, .no⟩]⟩,
   ⟨0x68, [], [⟨0, 16, .rw, 0xe39, .no⟩]⟩,
   ⟨0x6c, [], [⟨0, 16, .rw, 0x100, .no⟩, ⟨16, 8, .rw, 8, .no⟩, ⟨24, 4, .rw, 2, .no⟩]⟩,
   ⟨0x70, [], [⟨0, 16, .rw, 0x3e8, .no⟩, ⟨16, 16, .rw, 0x32, .no⟩]⟩,
   ⟨0x74, [], [⟨0, 16, .rw, 0, .no⟩, ⟨16, 16, .rw, 0x1000, .no⟩]⟩,
   ⟨0x78, [(1, 4)], [⟨0, 16, .rw, 0, .no⟩]⟩,
   ⟨0x7c, [(1, 4)], [⟨0, 16, .rw, 0x5555, .no⟩]⟩,
   ⟨0x80, [(1, 4)], [⟨0, 16, .rw, 0xaaab, .no⟩]⟩,
   ⟨0x84, [], [⟨0, 32, .ro, 0, .no⟩]⟩,
   ⟨0x88, [], [⟨0, 32, .ro, 0, .no⟩]⟩,
   ⟨0x8c, [], [⟨0, 16, .ro, 0, .no⟩, ⟨16, 16, .ro, 0, .no⟩]⟩,
   ⟨0x90, [], [⟨0, 1, .ro, 0, .no⟩, ⟨16, 16, .ro, 0, .no⟩]⟩,
   ⟨0x94, [], [⟨0, 32, .ro, 0, .no⟩]⟩,
   ⟨0x98, [], [⟨0, 32, .ro, 0, .no⟩]⟩,
   ⟨0xa0, [(4, 8)], [⟨0, 32, .rw, 0xffffffff, .no⟩]⟩,
   ⟨0xa4, [(4, 8)], [⟨0, 32, .rw, 0xffffffff, .no⟩]⟩,
   ⟨0xc0, [(4, 0x10)], [⟨0, 9, .rw, 0, .no⟩, ⟨15, 1, .rw, 0, .no⟩]⟩,
   ⟨0xc4, [(4, 0x10)], [⟨0, 32, .ro, 0, .no⟩]⟩,
   ⟨0xc8, [(4, 0x10)], [⟨0, 16, .ro, 0, .no⟩, ⟨16, 1, .w1c, 0, .no⟩, ⟨17, 1, .w1c, 0, .no⟩, ⟨18, 3, .ro, 0, .no⟩]⟩]

/-- The registers of page HERD. -/
def RegTable.herd : List RegRow :=
  [⟨0x40, [], [⟨0, 1, .rw, 0, .no⟩, ⟨8, 8, .rw, 0x10, .no⟩, ⟨16, 6, .rw, 8, .no⟩]⟩,
   ⟨0x44, [], [⟨0, 6, .rwo, 4, .no⟩]⟩,
   ⟨0x48, [], [⟨0, 11, .ro, 0, .no⟩, ⟨11, 11, .ro, 0, .no⟩, ⟨22, 4, .ro, 0, .no⟩, ⟨26, 1, .ro, 0, .no⟩]⟩,
   ⟨0x4c, [], [⟨1, 7, .ro, 0, .no⟩]⟩,
   ⟨0x50, [(4, 4)], [⟨0, 10, .ro, 0, .no⟩]⟩,
   ⟨0x60, [], [⟨0, 32, .ro, 0, .no⟩]⟩,
   ⟨0x64, [], [⟨0, 32, .ro, 0, .no⟩]⟩,
   ⟨0x68, [], [⟨0, 32, .ro, 0, .no⟩]⟩,
   ⟨0x6c, [], [⟨0, 32, .ro, 0, .no⟩]⟩,
   ⟨0x70, [], [⟨0, 32, .ro, 0, .no⟩]⟩,
   ⟨0x74, [], [⟨0, 32, .ro, 0, .no⟩]⟩,
   ⟨0x78, [], [⟨0, 32, .ro, 0, .no⟩]⟩,
   ⟨0x7c, [], [⟨0, 1, .wo, 0, .no⟩]⟩,
   ⟨0x80, [], [⟨0, 16, .wo, 0, .no⟩]⟩,
   ⟨0x84, [], [⟨0, 10, .rw, 0, .no⟩]⟩,
   ⟨0x88, [], [⟨0, 32, .ro, 0, .no⟩]⟩,
   ⟨0x8c, [], [⟨0, 1, .ro, 0, .no⟩, ⟨1, 1, .ro, 0, .no⟩, ⟨8, 8, .ro, 0, .no⟩, ⟨16, 4, .ro, 0, .no⟩, ⟨20, 1, .ro, 0, .no⟩, ⟨21, 1, .ro, 0, .no⟩, ⟨22, 1, .ro, 0, .no⟩, ⟨23, 1, .ro, 0, .no⟩, ⟨24, 8, .ro, 0, .no⟩]⟩,
   ⟨0xc0, [], [⟨0, 4, .ro, 0, .no⟩]⟩,
   ⟨0x100, [(16, 8)], [⟨0, 32, .ro, 0, .no⟩]⟩,
   ⟨0x104, [(16, 8)], [⟨0, 10, .ro, 0, .no⟩, ⟨10, 4, .ro, 0, .no⟩, ⟨14, 8, .ro, 0, .no⟩, ⟨22, 1, .w1c, 0, .no⟩, ⟨23, 1, .ro, 0, .no⟩]⟩]

/-- The registers of page MULE. -/
def RegTable.mule : List RegRow :=
  [⟨0x40, [], [⟨0, 1, .rw, 0, .no⟩, ⟨4, 4, .rw, 0, .no⟩]⟩,
   ⟨0x44, [], [⟨0, 3, .ro, 0, .no⟩, ⟨3, 1, .ro, 0, .no⟩, ⟨4, 1, .ro, 0, .no⟩, ⟨8, 7, .ro, 0, .no⟩, ⟨16, 6, .ro, 0, .no⟩, ⟨22, 4, .ro, 0, .no⟩, ⟨26, 6, .ro, 0, .no⟩]⟩,
   ⟨0x48, [], [⟨0, 16, .rw, 0xbb8, .no⟩]⟩,
   ⟨0x4c, [], [⟨0, 16, .rwu, 0x7530, .no⟩]⟩,
   ⟨0x50, [], [⟨0, 32, .ro, 0, .no⟩]⟩,
   ⟨0x54, [], [⟨0, 32, .ro, 0, .no⟩]⟩,
   ⟨0x58, [], [⟨0, 32, .ro, 0, .no⟩]⟩,
   ⟨0x5c, [], [⟨0, 32, .ro, 0, .no⟩]⟩,
   ⟨0x60, [], [⟨0, 32, .ro, 0, .no⟩]⟩,
   ⟨0x64, [], [⟨0, 32, .ro, 0, .no⟩]⟩,
   ⟨0x68, [], [⟨0, 3, .ro, 0, .no⟩, ⟨16, 11, .ro, 0, .no⟩]⟩,
   ⟨0x6c, [], [⟨0, 10, .wo, 0, .no⟩, ⟨16, 2, .wo, 0, .no⟩, ⟨31, 1, .wo, 0, .no⟩]⟩,
   ⟨0x70, [], [⟨0, 1, .ro, 0, .no⟩, ⟨1, 4, .ro, 0, .no⟩]⟩,
   ⟨0x74, [], [⟨0, 3, .wo, 0, .no⟩, ⟨16, 10, .wo, 0, .no⟩, ⟨31, 1, .wo, 0, .no⟩]⟩,
   ⟨0x78, [], [⟨0, 1, .ro, 0, .no⟩, ⟨1, 4, .ro, 0, .no⟩]⟩,
   ⟨0x7c, [], [⟨0, 10, .ro, 0, .no⟩, ⟨12, 4, .ro, 0, .no⟩, ⟨16, 3, .ro, 0, .no⟩, ⟨20, 1, .w1c, 0, .no⟩, ⟨21, 1, .w1c, 0, .no⟩]⟩,
   ⟨0x80, [], [⟨0, 32, .ro, 0, .no⟩]⟩,
   ⟨0x84, [], [⟨0, 32, .ro, 0, .no⟩]⟩,
   ⟨0x88, [], [⟨0, 32, .ro, 0, .no⟩]⟩,
   ⟨0x8c, [], [⟨0, 32, .ro, 0, .no⟩]⟩,
   ⟨0x90, [], [⟨0, 32, .ro, 0, .no⟩]⟩,
   ⟨0x94, [], [⟨0, 16, .ro, 0, .no⟩]⟩,
   ⟨0x98, [], [⟨0, 16, .ro, 0, .no⟩]⟩,
   ⟨0x9c, [], [⟨0, 1, .wo, 0, .no⟩]⟩,
   ⟨0x100, [(64, 4)], [⟨0, 10, .ro, 0, .no⟩, ⟨16, 1, .ro, 0, .no⟩, ⟨17, 1, .ro, 0, .no⟩, ⟨18, 1, .ro, 0, .no⟩, ⟨19, 1, .ro, 0, .no⟩, ⟨20, 4, .ro, 0, .no⟩, ⟨24, 1, .ro, 0, .no⟩]⟩]

/-- The registers of page MEMCTL. -/
def RegTable.memctl : List RegRow :=
  [⟨0x40, [(16, 4)], [⟨0, 3, .rw, 0, .no⟩, ⟨3, 1, .ro, 0, .no⟩, ⟨4, 3, .ro, 0, .no⟩]⟩,
   ⟨0x80, [(3, 4)], [⟨0, 3, .ro, 1, .no⟩, ⟨3, 1, .ro, 0, .no⟩, ⟨4, 3, .ro, 0, .no⟩]⟩,
   ⟨0x8c, [(1, 4)], [⟨0, 3, .ro, 3, .no⟩, ⟨3, 1, .ro, 0, .no⟩, ⟨4, 3, .ro, 0, .no⟩]⟩,
   ⟨0xa0, [(23, 4)], [⟨0, 16, .ro, 0, .no⟩, ⟨16, 16, .ro, 0, .no⟩]⟩,
   ⟨0x100, [], [⟨0, 1, .wo, 0, .no⟩]⟩,
   ⟨0x104, [], [⟨0, 16, .rw, 0x10, .no⟩]⟩,
   ⟨0x110, [], [⟨0, 32, .ro, 0, .no⟩]⟩,
   ⟨0x114, [], [⟨0, 3, .ro, 0, .no⟩, ⟨3, 7, .ro, 0, .no⟩, ⟨10, 3, .ro, 0, .no⟩, ⟨13, 5, .ro, 0, .no⟩, ⟨18, 1, .ro, 0, .no⟩, ⟨19, 1, .w1c, 0, .no⟩, ⟨20, 1, .w1c, 0, .no⟩]⟩,
   ⟨0x118, [], [⟨0, 32, .ro, 0, .no⟩]⟩,
   ⟨0x11c, [], [⟨0, 5, .ro, 0, .no⟩, ⟨5, 3, .ro, 0, .no⟩, ⟨8, 1, .w1c, 0, .no⟩]⟩,
   ⟨0x120, [], [⟨0, 1, .wo, 0, .no⟩, ⟨1, 1, .ro, 0, .no⟩, ⟨2, 1, .ro, 0, .no⟩]⟩,
   ⟨0x140, [(23, 4)], [⟨0, 2, .ro, 0, .fuse⟩]⟩,
   ⟨0x200, [(2, 0x10)], [⟨0, 4, .rw, 0, .no⟩, ⟨4, 1, .rw, 0, .no⟩, ⟨5, 1, .rw, 0, .no⟩, ⟨16, 13, .rw, 0, .no⟩]⟩,
   ⟨0x204, [(2, 0x10)], [⟨0, 14, .rw, 0, .no⟩]⟩,
   ⟨0x208, [(2, 0x10)], [⟨0, 13, .ro, 0, .no⟩]⟩,
   ⟨0x20c, [(2, 0x10)], [⟨0, 16, .rw, 0, .no⟩]⟩]

/-- The registers of page EVTMX. -/
def RegTable.evtmx : List RegRow :=
  [⟨0x40, [(10, 4)], [⟨0, 32, .ro, 0, .no⟩]⟩,
   ⟨0x80, [(4, 4)], [⟨0, 9, .ro, 0, .no⟩, ⟨15, 1, .ro, 1, .no⟩]⟩,
   ⟨0xc0, [(10, 4)], [⟨0, 32, .rw, 0, .no⟩]⟩,
   ⟨0x100, [], [⟨0, 4, .ro, 0, .no⟩]⟩,
   ⟨0x104, [], [⟨0, 32, .ro, 0, .no⟩]⟩,
   ⟨0x108, [], [⟨0, 1, .wo, 0, .no⟩]⟩,
   ⟨0x140, [(16, 8)], [⟨0, 9, .ro, 0, .no⟩, ⟨16, 1, .w1c, 0, .no⟩, ⟨17, 1, .ro, 0, .no⟩, ⟨18, 1, .ro, 0, .no⟩, ⟨24, 8, .ro, 0, .no⟩]⟩,
   ⟨0x144, [(16, 8)], [⟨0, 32, .ro, 0, .no⟩]⟩]

/-- The registers of page FWALL. -/
def RegTable.fwall : List RegRow :=
  [⟨0x40, [], [⟨0, 4, .rw, 0, .no⟩]⟩,
   ⟨0x44, [], [⟨0, 4, .ro, 0, .no⟩]⟩,
   ⟨0x48, [], [⟨0, 10, .rw, 0, .no⟩]⟩,
   ⟨0x4c, [], [⟨0, 1, .wo, 0, .no⟩]⟩,
   ⟨0x50, [], [⟨0, 10, .ro, 0, .no⟩, ⟨16, 1, .w1c, 0, .no⟩, ⟨24, 8, .ro, 0, .aon⟩]⟩,
   ⟨0x60, [], [⟨0, 32, .ro, 0, .no⟩]⟩,
   ⟨0x64, [], [⟨0, 32, .ro, 0, .no⟩]⟩,
   ⟨0x68, [], [⟨0, 32, .ro, 0, .no⟩]⟩,
   ⟨0x6c, [], [⟨0, 8, .ro, 0, .no⟩, ⟨8, 8, .ro, 0, .no⟩]⟩,
   ⟨0x70, [], [⟨0, 3, .ro, 0, .no⟩]⟩,
   ⟨0x74, [], [⟨0, 8, .ro, 0, .fuse⟩, ⟨8, 4, .ro, 0, .fuse⟩, ⟨12, 3, .ro, 0, .no⟩, ⟨15, 1, .ro, 0, .no⟩]⟩,
   ⟨0x78, [], [⟨0, 1, .rwu, 0, .no⟩]⟩,
   ⟨0x80, [], [⟨0, 2, .rwu, 0, .no⟩, ⟨8, 10, .rwu, 0, .no⟩, ⟨31, 1, .rwu, 0, .no⟩]⟩,
   ⟨0x84, [], [⟨0, 14, .rwu, 0, .no⟩]⟩,
   ⟨0x88, [], [⟨0, 1, .ro, 0, .no⟩, ⟨1, 2, .ro, 0, .no⟩]⟩,
   ⟨0xa0, [(8, 4)], [⟨0, 32, .ro, 0, .no⟩]⟩,
   ⟨0xc0, [], [⟨0, 32, .ro, 0, .no⟩]⟩,
   ⟨0xc4, [], [⟨0, 3, .ro, 0, .no⟩, ⟨3, 3, .ro, 0, .no⟩, ⟨6, 1, .ro, 0, .no⟩, ⟨7, 1, .w1c, 0, .no⟩, ⟨8, 1, .w1c, 0, .no⟩]⟩,
   ⟨0xc8, [], [⟨0, 32, .ro, 0, .no⟩]⟩]

/-- The registers of page MET_FE. -/
def RegTable.metFe : List RegRow :=
  [⟨0x40, [(3, 4)], [⟨0, 1, .rw, 0, .no⟩, ⟨1, 3, .rwu, 0, .no⟩, ⟨4, 3, .rwu, 0, .no⟩, ⟨8, 3, .rwu, 0, .no⟩, ⟨11, 1, .rwu, 0, .no⟩, ⟨12, 1, .rwu, 0, .no⟩, ⟨13, 1, .rwu, 1, .no⟩, ⟨16, 4, .rwu, 2, .no⟩, ⟨20, 4, .rwu, 0xc, .no⟩]⟩,
   ⟨0x5c, [(1, 4)], [⟨0, 1, .rw, 0, .no⟩, ⟨1, 3, .rwu, 0, .no⟩, ⟨4, 3, .rwu, 0, .no⟩, ⟨8, 3, .rwu, 0, .no⟩, ⟨11, 1, .rwu, 0, .no⟩, ⟨12, 1, .rwu, 0, .no⟩, ⟨13, 1, .rwu, 1, .no⟩, ⟨16, 4, .rwu, 2, .no⟩, ⟨20, 4, .rwu, 0xc, .no⟩]⟩,
   ⟨0x64, [(1, 4)], [⟨0, 1, .rw, 0, .no⟩, ⟨1, 3, .rwu, 0, .no⟩, ⟨4, 3, .rwu, 0, .no⟩, ⟨8, 3, .rwu, 0, .no⟩, ⟨11, 1, .rwu, 0, .no⟩, ⟨12, 1, .rwu, 0, .no⟩, ⟨13, 1, .rwu, 1, .no⟩, ⟨16, 4, .rwu, 2, .no⟩, ⟨20, 4, .rwu, 0xc, .no⟩]⟩,
   ⟨0x6c, [(1, 4)], [⟨0, 1, .rw, 0, .no⟩, ⟨1, 3, .rwu, 0, .no⟩, ⟨4, 3, .rwu, 0, .no⟩, ⟨8, 3, .rwu, 0, .no⟩, ⟨11, 1, .rwu, 0, .no⟩, ⟨12, 1, .rwu, 0, .no⟩, ⟨13, 1, .rwu, 1, .no⟩, ⟨16, 4, .rwu, 2, .no⟩, ⟨20, 4, .rwu, 0xc, .no⟩]⟩,
   ⟨0x74, [(1, 4)], [⟨0, 1, .rw, 0, .no⟩, ⟨1, 3, .rwu, 0, .no⟩, ⟨4, 3, .rwu, 0, .no⟩, ⟨8, 3, .rwu, 0, .no⟩, ⟨11, 1, .rwu, 0, .no⟩, ⟨12, 1, .rwu, 0, .no⟩, ⟨13, 1, .rwu, 1, .no⟩, ⟨16, 4, .rwu, 2, .no⟩, ⟨20, 4, .rwu, 0xc, .no⟩]⟩,
   ⟨0x7c, [(1, 4)], [⟨0, 1, .rw, 0, .no⟩, ⟨1, 3, .rwu, 0, .no⟩, ⟨4, 3, .rwu, 0, .no⟩, ⟨8, 3, .rwu, 0, .no⟩, ⟨11, 1, .rwu, 0, .no⟩, ⟨12, 1, .rwu, 0, .no⟩, ⟨13, 1, .rwu, 1, .no⟩, ⟨16, 4, .rwu, 2, .no⟩, ⟨20, 4, .rwu, 0xc, .no⟩]⟩,
   ⟨0x4c, [(4, 4)], [⟨0, 1, .rw, 0, .no⟩, ⟨1, 3, .rwu, 1, .no⟩, ⟨4, 3, .rwu, 0, .no⟩, ⟨8, 3, .rwu, 0, .no⟩, ⟨11, 1, .rwu, 0, .no⟩, ⟨12, 1, .rwu, 0, .no⟩, ⟨13, 1, .rwu, 1, .no⟩, ⟨16, 4, .rwu, 2, .no⟩, ⟨20, 4, .rwu, 0xc, .no⟩]⟩,
   ⟨0x60, [(1, 4)], [⟨0, 1, .rw, 0, .no⟩, ⟨1, 3, .rwu, 1, .no⟩, ⟨4, 3, .rwu, 0, .no⟩, ⟨8, 3, .rwu, 0, .no⟩, ⟨11, 1, .rwu, 0, .no⟩, ⟨12, 1, .rwu, 0, .no⟩, ⟨13, 1, .rwu, 1, .no⟩, ⟨16, 4, .rwu, 2, .no⟩, ⟨20, 4, .rwu, 0xc, .no⟩]⟩,
   ⟨0x68, [(1, 4)], [⟨0, 1, .rw, 0, .no⟩, ⟨1, 3, .rwu, 1, .no⟩, ⟨4, 3, .rwu, 0, .no⟩, ⟨8, 3, .rwu, 0, .no⟩, ⟨11, 1, .rwu, 0, .no⟩, ⟨12, 1, .rwu, 0, .no⟩, ⟨13, 1, .rwu, 1, .no⟩, ⟨16, 4, .rwu, 2, .no⟩, ⟨20, 4, .rwu, 0xc, .no⟩]⟩,
   ⟨0x70, [(1, 4)], [⟨0, 1, .rw, 0, .no⟩, ⟨1, 3, .rwu, 1, .no⟩, ⟨4, 3, .rwu, 0, .no⟩, ⟨8, 3, .rwu, 0, .no⟩, ⟨11, 1, .rwu, 0, .no⟩, ⟨12, 1, .rwu, 0, .no⟩, ⟨13, 1, .rwu, 1, .no⟩, ⟨16, 4, .rwu, 2, .no⟩, ⟨20, 4, .rwu, 0xc, .no⟩]⟩,
   ⟨0x78, [(1, 4)], [⟨0, 1, .rw, 0, .no⟩, ⟨1, 3, .rwu, 1, .no⟩, ⟨4, 3, .rwu, 0, .no⟩, ⟨8, 3, .rwu, 0, .no⟩, ⟨11, 1, .rwu, 0, .no⟩, ⟨12, 1, .rwu, 0, .no⟩, ⟨13, 1, .rwu, 1, .no⟩, ⟨16, 4, .rwu, 2, .no⟩, ⟨20, 4, .rwu, 0xc, .no⟩]⟩,
   ⟨0x80, [(16, 4)], [⟨0, 5, .ro, 0, .no⟩, ⟨8, 1, .ro, 0, .no⟩, ⟨9, 1, .w1c, 0, .no⟩, ⟨16, 16, .ro, 0, .no⟩]⟩,
   ⟨0x100, [(16, 4)], [⟨0, 32, .ro, 0, .no⟩]⟩,
   ⟨0x140, [(16, 4)], [⟨0, 32, .ro, 0, .no⟩]⟩,
   ⟨0x180, [(16, 4)], [⟨0, 8, .ro, 0, .no⟩, ⟨8, 24, .ro, 0, .no⟩]⟩,
   ⟨0x1c0, [], [⟨0, 16, .w1c, 0, .no⟩, ⟨16, 16, .w1c, 0, .no⟩]⟩,
   ⟨0x1c4, [], [⟨0, 1, .ro, 0, .no⟩]⟩,
   ⟨0x200, [(4, 8)], [⟨0, 1, .rw, 0, .aon⟩, ⟨1, 2, .rw, 0, .aon⟩, ⟨3, 1, .rw, 1, .aon⟩, ⟨8, 7, .rw, 0xa, .aon⟩, ⟨16, 1, .ro, 0, .aon⟩]⟩,
   ⟨0x204, [(4, 8)], [⟨0, 32, .rw, 0, .aon⟩]⟩,
   ⟨0x220, [(4, 4)], [⟨0, 1, .ro, 0, .aon⟩, ⟨8, 8, .ro, 0, .aon⟩, ⟨16, 16, .ro, 0, .aon⟩]⟩]

/-- The registers of page MET_CAL. -/
def RegTable.metCal : List RegRow :=
  [⟨0x40, [], [⟨0, 4, .rwu, 0, .no⟩]⟩,
   ⟨0x44, [(8, 4)], [⟨0, 16, .rwu, 0, .no⟩]⟩,
   ⟨0x80, [(16, 0x40), (8, 8)], [⟨0, 24, .rwu, 0, .no⟩]⟩,
   ⟨0x84, [(16, 0x40), (8, 8)], [⟨0, 18, .rwu, 0, .no⟩]⟩,
   ⟨0x480, [(16, 4)], [⟨0, 24, .rwu, 0, .no⟩]⟩,
   ⟨0x4c0, [(16, 4)], [⟨0, 24, .rwu, 0, .no⟩]⟩,
   ⟨0x500, [(16, 8)], [⟨0, 24, .ro, 0, .no⟩]⟩,
   ⟨0x504, [(16, 8)], [⟨0, 18, .ro, 0, .no⟩]⟩,
   ⟨0x600, [], [⟨0, 16, .ro, 0, .no⟩, ⟨16, 16, .ro, 0, .no⟩]⟩,
   ⟨0x604, [], [⟨0, 4, .ro, 0, .no⟩]⟩]

/-- The registers of page MET_QTY. -/
def RegTable.metQty : List RegRow :=
  [⟨0x40, [], [⟨0, 9, .ro, 0, .no⟩, ⟨9, 1, .ro, 0, .no⟩, ⟨10, 1, .ro, 0, .no⟩, ⟨11, 1, .ro, 0, .no⟩, ⟨12, 1, .ro, 0, .no⟩, ⟨16, 8, .ro, 0, .no⟩]⟩,
   ⟨0x44, [], [⟨0, 32, .ro, 0, .no⟩]⟩,
   ⟨0x48, [], [⟨0, 32, .ro, 0, .no⟩]⟩,
   ⟨0x4c, [], [⟨0, 32, .ro, 0, .no⟩]⟩,
   ⟨0x80, [(16, 4)], [⟨0, 32, .ro, 0, .no⟩]⟩,
   ⟨0xc0, [(16, 4)], [⟨0, 32, .ro, 0, .no⟩]⟩,
   ⟨0x100, [(16, 4)], [⟨0, 9, .ro, 0, .no⟩]⟩,
   ⟨0x140, [(16, 4)], [⟨0, 32, .ro, 0, .no⟩]⟩,
   ⟨0x180, [(16, 4)], [⟨0, 16, .ro, 0, .no⟩]⟩,
   ⟨0x1c0, [(8, 0x10)], [⟨0, 32, .ro, 0, .no⟩]⟩,
   ⟨0x1c4, [(8, 0x10)], [⟨0, 32, .ro, 0, .no⟩]⟩,
   ⟨0x1c8, [(8, 0x10)], [⟨0, 32, .ro, 0, .no⟩]⟩,
   ⟨0x1cc, [(8, 0x10)], [⟨0, 16, .ro, 0, .no⟩]⟩,
   ⟨0x240, [(16, 4)], [⟨0, 32, .rwu, 0, .no⟩]⟩]

/-- The registers of page ENERGY. -/
def RegTable.energy : List RegRow :=
  [⟨0x40, [(4, 0x20)], [⟨0, 1, .rwu, 0, .no⟩, ⟨1, 1, .rwu, 0, .no⟩, ⟨2, 1, .ro, 0, .no⟩]⟩,
   ⟨0x44, [(4, 0x20)], [⟨0, 2, .rwu, 2, .no⟩, ⟨2, 3, .rwu, 0, .no⟩, ⟨16, 16, .rwu, 0x384, .no⟩]⟩,
   ⟨0x48, [(4, 0x20)], [⟨0, 16, .rwu, 0, .no⟩, ⟨16, 16, .rwu, 0xf5a, .no⟩]⟩,
   ⟨0x4c, [(4, 0x20)], [⟨0, 16, .ro, 0, .no⟩, ⟨16, 1, .ro, 0, .no⟩]⟩,
   ⟨0x50, [(4, 0x20)], [⟨0, 32, .ro, 0, .no⟩]⟩,
   ⟨0x54, [(4, 0x20)], [⟨0, 32, .ro, 0, .no⟩]⟩,
   ⟨0x200, [(4, 0x80), (8, 0x10), (2, 8)], [⟨0, 32, .ro, 0, .no⟩]⟩,
   ⟨0x204, [(4, 0x80), (8, 0x10), (2, 8)], [⟨0, 32, .ro, 0, .no⟩]⟩,
   ⟨0x400, [(2, 8)], [⟨0, 32, .ro, 0, .no⟩]⟩,
   ⟨0x404, [(2, 8)], [⟨0, 32, .ro, 0, .no⟩]⟩,
   ⟨0x410, [(4, 0x10)], [⟨0, 32, .ro, 0, .no⟩]⟩,
   ⟨0x414, [(4, 0x10)], [⟨0, 32, .ro, 0, .no⟩]⟩,
   ⟨0x418, [(4, 0x10)], [⟨0, 32, .ro, 0, .no⟩]⟩,
   ⟨0x41c, [(4, 0x10)], [⟨0, 32, .ro, 0, .no⟩]⟩,
   ⟨0x480, [], [⟨0, 16, .ro, 0, .no⟩]⟩,
   ⟨0x500, [(4, 0x10), (2, 8)], [⟨0, 32, .ro, 0, .no⟩]⟩,
   ⟨0x504, [(4, 0x10), (2, 8)], [⟨0, 32, .ro, 0, .no⟩]⟩,
   ⟨0x540, [(2, 8)], [⟨0, 32, .ro, 0, .no⟩]⟩,
   ⟨0x544, [(2, 8)], [⟨0, 32, .ro, 0, .no⟩]⟩,
   ⟨0x550, [], [⟨0, 32, .ro, 0, .no⟩]⟩,
   ⟨0x554, [], [⟨0, 1, .w1c, 0, .no⟩, ⟨1, 1, .w1c, 0, .no⟩]⟩]

/-- The registers of page PULSE. -/
def RegTable.pulse : List RegRow :=
  [⟨0x40, [(2, 0x10)], [⟨0, 1, .rwu, 0, .no⟩, ⟨1, 4, .rwu, 0, .no⟩, ⟨8, 7, .rwu, 0x20, .no⟩, ⟨15, 1, .rwu, 1, .no⟩, ⟨16, 1, .rwu, 1, .no⟩]⟩,
   ⟨0x44, [(2, 0x10)], [⟨0, 32, .rwu, 0x3e8, .no⟩]⟩,
   ⟨0x48, [(2, 0x10)], [⟨0, 8, .ro, 0, .no⟩, ⟨8, 7, .ro, 0, .no⟩, ⟨15, 1, .ro, 0, .no⟩, ⟨16, 1, .w1c, 0, .no⟩]⟩,
   ⟨0x4c, [(2, 0x10)], [⟨0, 32, .ro, 0, .no⟩]⟩,
   ⟨0x60, [(2, 4)], [⟨0, 32, .ro, 0, .no⟩]⟩]

/-- The registers of page UFE_DRV. -/
def RegTable.ufeDrv : List RegRow :=
  [⟨0x40, [(4, 4)], [⟨0, 1, .rw, 0, .no⟩, ⟨1, 1, .rw, 0, .no⟩]⟩,
   ⟨0x50, [(4, 4)], [⟨0, 2, .ro, 0, .no⟩, ⟨2, 2, .ro, 0, .no⟩, ⟨4, 2, .ro, 0, .no⟩, ⟨6, 2, .ro, 0, .no⟩, ⟨16, 16, .ro, 0, .no⟩]⟩,
   ⟨0x60, [], [⟨0, 8, .rw, 5, .no⟩, ⟨8, 8, .rw, 0x78, .no⟩]⟩,
   ⟨0x68, [(4, 4)], [⟨0, 8, .ro, 0, .no⟩, ⟨8, 8, .ro, 0, .no⟩]⟩,
   ⟨0x80, [(16, 4)], [⟨0, 8, .rw, 0x40, .no⟩, ⟨8, 5, .rw, 8, .no⟩, ⟨13, 1, .rw, 0, .no⟩, ⟨14, 1, .rw, 0, .no⟩]⟩,
   ⟨0xc0, [], [⟨0, 2, .wo, 0, .no⟩, ⟨8, 4, .wo, 0, .no⟩, ⟨31, 1, .wo, 0, .no⟩]⟩]

/-- The registers of page UFE_RX. -/
def RegTable.ufeRx : List RegRow :=
  [⟨0x40, [(4, 4)], [⟨0, 6, .rw, 0x14, .no⟩, ⟨8, 1, .rw, 0, .no⟩]⟩,
   ⟨0x50, [], [⟨0, 12, .rw, 0x258, .no⟩, ⟨16, 12, .rw, 0x578, .no⟩]⟩,
   ⟨0x80, [(16, 4)], [⟨0, 2, .rw, 1, .no⟩, ⟨2, 6, .rw, 0, .no⟩, ⟨8, 12, .rw, 0x190, .no⟩, ⟨20, 12, .rw, 0, .no⟩]⟩,
   ⟨0xc0, [(16, 4)], [⟨0, 8, .rw, 0x19, .no⟩, ⟨8, 1, .rw, 0, .no⟩]⟩]

/-- The registers of page UFE_TOF. -/
def RegTable.ufeTof : List RegRow :=
  [⟨0x40, [(16, 8)], [⟨0, 12, .rw, 0x1e0, .no⟩, ⟨12, 12, .rw, 0x320, .no⟩]⟩,
   ⟨0x44, [(16, 8)], [⟨0, 12, .rw, 0x230, .no⟩, ⟨12, 4, .rw, 4, .no⟩, ⟨16, 5, .rw, 2, .no⟩]⟩,
   ⟨0xc0, [(16, 4)], [⟨0, 14, .rw, 0x960, .no⟩]⟩,
   ⟨0x100, [], [⟨0, 15, .rw, 0x4000, .no⟩]⟩,
   ⟨0x104, [], [⟨0, 1, .rw, 0, .no⟩, ⟨1, 1, .rw, 0, .no⟩, ⟨2, 2, .ro, 0, .no⟩]⟩,
   ⟨0x200, [(4, 0x40)], [⟨0, 8, .ro, 0, .no⟩, ⟨8, 4, .ro, 0, .no⟩, ⟨12, 4, .ro, 0, .no⟩, ⟨16, 3, .ro, 0, .no⟩, ⟨19, 1, .w1c, 0, .no⟩, ⟨20, 1, .w1c, 0, .no⟩, ⟨21, 1, .ro, 0, .no⟩, ⟨22, 1, .ro, 0, .no⟩, ⟨23, 1, .ro, 0, .no⟩, ⟨24, 1, .ro, 0, .no⟩, ⟨25, 1, .ro, 0, .no⟩, ⟨26, 1, .ro, 0, .no⟩, ⟨27, 1, .ro, 0, .no⟩, ⟨28, 1, .ro, 0, .no⟩, ⟨29, 2, .ro, 0, .no⟩]⟩,
   ⟨0x204, [(4, 0x40)], [⟨0, 32, .ro, 0, .no⟩]⟩,
   ⟨0x208, [(4, 0x40)], [⟨0, 32, .ro, 0, .no⟩]⟩,
   ⟨0x20c, [(4, 0x40)], [⟨0, 32, .ro, 0, .no⟩]⟩,
   ⟨0x210, [(4, 0x40)], [⟨0, 12, .ro, 0, .no⟩, ⟨16, 12, .ro, 0, .no⟩]⟩,
   ⟨0x214, [(4, 0x40)], [⟨0, 15, .ro, 0, .no⟩, ⟨16, 6, .ro, 0, .no⟩]⟩,
   ⟨0x218, [(4, 0x40)], [⟨0, 32, .ro, 0, .no⟩]⟩,
   ⟨0x21c, [(4, 0x40)], [⟨0, 16, .ro, 0, .no⟩, ⟨16, 10, .ro, 0, .no⟩]⟩,
   ⟨0x800, [(512, 4)], [⟨0, 32, .ro, 0, .no⟩]⟩]

/-- The registers of page FLOW. -/
def RegTable.flow : List RegRow :=
  [⟨0x40, [(4, 0x20)], [⟨0, 24, .rwu, 0, .no⟩]⟩,
   ⟨0x44, [(4, 0x20)], [⟨0, 24, .rw, 0, .no⟩]⟩,
   ⟨0x48, [(4, 0x20)], [⟨0, 32, .rwu, 0, .no⟩]⟩,
   ⟨0x4c, [(4, 0x20)], [⟨0, 32, .rw, 0, .no⟩]⟩,
   ⟨0x50, [(4, 0x20)], [⟨0, 32, .rw, 0, .no⟩]⟩,
   ⟨0x54, [(4, 0x20)], [⟨0, 12, .rw, 0x64, .no⟩, ⟨16, 12, .rw, 0xc8, .no⟩]⟩,
   ⟨0x58, [(4, 0x20)], [⟨0, 5, .rw, 0, .no⟩, ⟨8, 5, .rwu, 0, .no⟩]⟩,
   ⟨0xc0, [], [⟨0, 4, .rw, 3, .no⟩, ⟨4, 4, .rw, 3, .no⟩, ⟨16, 12, .rw, 0x400, .no⟩]⟩,
   ⟨0x100, [(4, 0x80), (16, 8)], [⟨0, 32, .rw, 0, .no⟩]⟩,
   ⟨0x104, [(4, 0x80), (16, 8)], [⟨0, 17, .rw, 0x10000, .no⟩]⟩,
   ⟨0x300, [(4, 0x40), (16, 4)], [⟨0, 18, .rwu, 0, .no⟩, ⟨18, 14, .rwu, 0, .no⟩]⟩,
   ⟨0x400, [(4, 0x10)], [⟨0, 2, .rw, 0, .no⟩, ⟨2, 1, .rw, 0, .no⟩, ⟨4, 2, .rw, 0, .no⟩, ⟨6, 1, .rw, 0, .no⟩]⟩,
   ⟨0x404, [(4, 0x10)], [⟨0, 16, .rw, 0xfa, .no⟩]⟩,
   ⟨0x408, [(4, 0x10)], [⟨0, 32, .rw, 0xffffffff, .no⟩]⟩,
   ⟨0x500, [(4, 0x20)], [⟨0, 1, .ro, 1, .no⟩, ⟨1, 3, .ro, 5, .no⟩, ⟨4, 1, .ro, 0, .no⟩, ⟨5, 1, .ro, 0, .no⟩, ⟨6, 1, .w1c, 0, .no⟩, ⟨7, 1, .ro, 0, .no⟩, ⟨8, 4, .ro, 0, .no⟩, ⟨12, 4, .ro, 0, .no⟩, ⟨16, 8, .ro, 0, .no⟩]⟩,
   ⟨0x504, [(4, 0x20)], [⟨0, 32, .ro, 0, .no⟩]⟩,
   ⟨0x508, [(4, 0x20)], [⟨0, 32, .ro, 0, .no⟩]⟩,
   ⟨0x50c, [(4, 0x20)], [⟨0, 32, .ro, 0, .no⟩]⟩,
   ⟨0x510, [(4, 0x20)], [⟨0, 18, .ro, 0, .no⟩]⟩,
   ⟨0x514, [(4, 0x20)], [⟨0, 16, .ro, 0x8000, .no⟩]⟩,
   ⟨0x518, [(4, 0x20)], [⟨0, 32, .ro, 0, .no⟩]⟩,
   ⟨0x600, [(4, 8)], [⟨0, 1, .w1c, 0, .no⟩, ⟨1, 1, .ro, 0, .no⟩, ⟨16, 16, .ro, 0, .no⟩]⟩,
   ⟨0x604, [(4, 8)], [⟨0, 32, .ro, 0, .no⟩]⟩]

/-- The registers of page RTD. -/
def RegTable.rtd : List RegRow :=
  [⟨0x40, [(8, 0x10)], [⟨0, 1, .rw, 0, .no⟩, ⟨1, 1, .rwu, 0, .no⟩, ⟨2, 1, .rwu, 1, .no⟩]⟩,
   ⟨0x44, [(8, 0x10)], [⟨0, 24, .rwu, 0, .no⟩]⟩,
   ⟨0x48, [(8, 0x10)], [⟨0, 16, .rwu, 0, .no⟩, ⟨16, 16, .rwu, 0, .no⟩]⟩,
   ⟨0x100, [(8, 0x10)], [⟨0, 8, .ro, 0, .no⟩, ⟨8, 3, .ro, 7, .no⟩, ⟨11, 1, .w1c, 0, .no⟩, ⟨12, 1, .ro, 0, .no⟩, ⟨13, 1, .ro, 0, .no⟩, ⟨16, 3, .ro, 0, .no⟩]⟩,
   ⟨0x104, [(8, 0x10)], [⟨0, 32, .ro, 0, .no⟩]⟩,
   ⟨0x108, [(8, 0x10)], [⟨0, 24, .ro, 0, .no⟩]⟩,
   ⟨0x10c, [(8, 0x10)], [⟨0, 16, .ro, 0x8000, .no⟩, ⟨16, 16, .ro, 0, .no⟩]⟩,
   ⟨0x200, [], [⟨0, 3, .wo, 0, .no⟩, ⟨3, 1, .wo, 0, .no⟩, ⟨31, 1, .wo, 0, .no⟩]⟩,
   ⟨0x204, [], [⟨0, 3, .ro, 0, .no⟩, ⟨3, 1, .ro, 0, .no⟩]⟩]

/-- The registers of page THERM. -/
def RegTable.therm : List RegRow :=
  [⟨0x40, [], [⟨0, 8, .rw, 0x14, .no⟩, ⟨8, 4, .rw, 4, .no⟩, ⟨12, 12, .rw, 0x64, .no⟩, ⟨28, 4, .rw, 8, .no⟩]⟩,
   ⟨0x44, [], [⟨0, 16, .rw, 0xe10, .no⟩]⟩,
   ⟨0x80, [(4, 0x40)], [⟨0, 1, .rw, 0, .no⟩, ⟨1, 3, .rw, 0, .no⟩, ⟨4, 1, .rw, 0, .no⟩, ⟨5, 3, .rw, 0, .no⟩, ⟨8, 1, .rw, 0, .no⟩, ⟨9, 2, .rw, 0, .no⟩]⟩,
   ⟨0x84, [(4, 0x40)], [⟨0, 16, .rw, 0, .no⟩]⟩,
   ⟨0x88, [(4, 0x40)], [⟨0, 16, .rw, 0, .no⟩, ⟨16, 16, .rw, 0, .no⟩]⟩,
   ⟨0x8c, [(4, 0x40)], [⟨0, 16, .rw, 0, .no⟩]⟩,
   ⟨0x90, [(4, 0x40), (3, 4)], [⟨0, 16, .rw, 0, .no⟩, ⟨16, 15, .rw, 0, .no⟩, ⟨31, 1, .rw, 0, .no⟩]⟩,
   ⟨0x9c, [(4, 0x40), (3, 4)], [⟨0, 16, .rw, 0, .no⟩, ⟨16, 15, .rw, 0, .no⟩, ⟨31, 1, .rw, 0, .no⟩]⟩,
   ⟨0xa8, [(4, 0x40), (3, 4)], [⟨0, 16, .rw, 0, .no⟩, ⟨16, 15, .rw, 0, .no⟩, ⟨31, 1, .rw, 0, .no⟩]⟩,
   ⟨0x200, [(4, 0x10)], [⟨0, 16, .ro, 0, .no⟩, ⟨16, 1, .ro, 0, .no⟩, ⟨17, 2, .ro, 0, .no⟩, ⟨19, 2, .ro, 0, .no⟩, ⟨21, 2, .ro, 0, .no⟩, ⟨23, 1, .ro, 0, .no⟩, ⟨24, 1, .ro, 0, .no⟩, ⟨25, 1, .ro, 0, .no⟩]⟩,
   ⟨0x204, [(4, 0x10)], [⟨0, 24, .ro, 0, .no⟩]⟩,
   ⟨0x208, [(4, 0x10)], [⟨0, 31, .ro, 0, .no⟩, ⟨31, 1, .ro, 0, .no⟩]⟩,
   ⟨0x20c, [(4, 0x10)], [⟨0, 32, .ro, 0, .no⟩]⟩]

/-- The registers of page TARIFF. -/
def RegTable.tariff : List RegRow :=
  [⟨0x40, [], [⟨0, 4, .rw, 1, .no⟩, ⟨8, 1, .rw, 0, .no⟩]⟩,
   ⟨0x44, [], [⟨0, 16, .rw, 0, .no⟩]⟩,
   ⟨0x48, [], [⟨0, 2, .ro, 0, .no⟩, ⟨2, 2, .ro, 0, .no⟩, ⟨4, 3, .ro, 0, .no⟩, ⟨8, 4, .ro, 0, .no⟩, ⟨12, 4, .ro, 0, .no⟩, ⟨16, 4, .ro, 1, .no⟩]⟩,
   ⟨0x4c, [], [⟨0, 1, .wo, 0, .no⟩]⟩,
   ⟨0x50, [], [⟨0, 1, .ro, 0, .no⟩, ⟨1, 3, .ro, 0, .no⟩, ⟨8, 8, .ro, 0, .no⟩]⟩,
   ⟨0x54, [], [⟨0, 32, .rw, 0, .no⟩]⟩,
   ⟨0x58, [], [⟨0, 32, .ro, 0, .no⟩]⟩,
   ⟨0x80, [(4, 4)], [⟨0, 8, .rw, 1, .no⟩, ⟨8, 8, .rw, 1, .no⟩, ⟨16, 3, .rw, 0, .no⟩, ⟨31, 1, .rw, 0, .no⟩]⟩,
   ⟨0xa0, [(8, 4)], [⟨0, 28, .rw, 0, .no⟩]⟩,
   ⟨0x100, [(16, 0x40), (12, 4)], [⟨0, 8, .rw, 0, .no⟩, ⟨8, 8, .rw, 0, .no⟩, ⟨16, 4, .rw, 1, .no⟩, ⟨31, 1, .rw, 0, .no⟩]⟩,
   ⟨0x500, [(48, 4)], [⟨0, 8, .rw, 1, .no⟩, ⟨8, 8, .rw, 1, .no⟩, ⟨16, 8, .rw, 0xff, .no⟩, ⟨24, 4, .rw, 0, .no⟩, ⟨31, 1, .rw, 0, .no⟩]⟩]

/-- The registers of page BILL. -/
def RegTable.bill : List RegRow :=
  [⟨0x40, [], [⟨0, 16, .ro, 0, .no⟩, ⟨16, 1, .ro, 0, .no⟩, ⟨17, 3, .ro, 0, .no⟩, ⟨20, 1, .ro, 0, .no⟩, ⟨24, 8, .ro, 0, .no⟩]⟩,
   ⟨0x44, [], [⟨0, 32, .ro, 0, .no⟩]⟩,
   ⟨0x48, [], [⟨0, 32, .ro, 0, .no⟩]⟩,
   ⟨0x4c, [], [⟨0, 32, .ro, 0, .no⟩]⟩,
   ⟨0x50, [], [⟨0, 32, .ro, 1, .no⟩]⟩,
   ⟨0x54, [], [⟨0, 2, .wo, 0, .no⟩, ⟨4, 2, .wo, 0, .no⟩, ⟨16, 10, .wo, 0, .no⟩, ⟨26, 1, .wo, 0, .no⟩, ⟨27, 1, .wo, 0, .no⟩, ⟨31, 1, .wo, 0, .no⟩]⟩,
   ⟨0x58, [], [⟨0, 32, .rw, 0, .no⟩]⟩,
   ⟨0x5c, [], [⟨0, 3, .ro, 0, .no⟩]⟩,
   ⟨0x100, [(4, 0x80)], [⟨0, 3, .ro, 0, .no⟩, ⟨3, 1, .ro, 0, .no⟩, ⟨4, 1, .ro, 0, .no⟩, ⟨5, 1, .ro, 0, .no⟩, ⟨6, 1, .ro, 0, .no⟩, ⟨7, 1, .ro, 0, .no⟩, ⟨16, 10, .ro, 0, .no⟩, ⟨26, 1, .ro, 0, .no⟩, ⟨27, 1, .ro, 0, .no⟩]⟩,
   ⟨0x104, [(4, 0x80)], [⟨0, 32, .ro, 0, .no⟩]⟩,
   ⟨0x108, [(4, 0x80)], [⟨0, 32, .ro, 0, .no⟩]⟩,
   ⟨0x10c, [(4, 0x80)], [⟨0, 32, .ro, 0, .no⟩]⟩,
   ⟨0x110, [(4, 0x80)], [⟨0, 32, .ro, 0, .no⟩]⟩,
   ⟨0x114, [(4, 0x80)], [⟨0, 32, .ro, 0, .no⟩]⟩,
   ⟨0x118, [(4, 0x80)], [⟨0, 32, .ro, 0, .no⟩]⟩,
   ⟨0x11c, [(4, 0x80)], [⟨0, 32, .ro, 0, .no⟩]⟩,
   ⟨0x120, [(4, 0x80)], [⟨0, 32, .ro, 0, .no⟩]⟩,
   ⟨0x124, [(4, 0x80)], [⟨0, 32, .ro, 0, .no⟩]⟩,
   ⟨0x140, [(4, 0x80), (8, 8), (2, 4)], [⟨0, 32, .ro, 0, .no⟩]⟩,
   ⟨0x400, [(24, 4)], [⟨0, 32, .ro, 0, .no⟩]⟩,
   ⟨0x480, [(16, 4)], [⟨0, 32, .rw, 0, .no⟩]⟩,
   ⟨0x4c0, [], [⟨0, 1, .wo, 0, .no⟩]⟩,
   ⟨0x4c4, [], [⟨0, 1, .ro, 0, .no⟩, ⟨1, 3, .ro, 0, .no⟩]⟩,
   ⟨0x500, [], [⟨0, 32, .rw, 0, .no⟩]⟩,
   ⟨0x504, [], [⟨0, 1, .wo, 0, .no⟩]⟩,
   ⟨0x508, [], [⟨0, 1, .ro, 0, .no⟩, ⟨1, 3, .ro, 0, .no⟩]⟩,
   ⟨0x580, [(40, 4)], [⟨0, 32, .ro, 0, .no⟩]⟩]

/-- The registers of page PREPAY. -/
def RegTable.prepay : List RegRow :=
  [⟨0x40, [], [⟨0, 1, .rw, 0, .no⟩, ⟨1, 1, .rw, 1, .no⟩, ⟨4, 2, .rw, 1, .no⟩, ⟨8, 3, .rw, 0, .no⟩]⟩,
   ⟨0x44, [], [⟨0, 32, .rw, 0, .no⟩]⟩,
   ⟨0x48, [], [⟨0, 32, .rw, 0, .no⟩]⟩,
   ⟨0x4c, [], [⟨0, 32, .rw, 0, .no⟩]⟩,
   ⟨0x50, [], [⟨0, 32, .rw, 0x7fffffff, .no⟩]⟩,
   ⟨0x54, [], [⟨0, 10, .rw, 0x78, .no⟩]⟩,
   ⟨0x60, [(8, 4)], [⟨0, 20, .rw, 0, .no⟩]⟩,
   ⟨0x80, [(8, 8), (2, 4)], [⟨0, 11, .rw, 0, .no⟩, ⟨11, 11, .rw, 0, .no⟩, ⟨22, 7, .rw, 0, .no⟩, ⟨29, 1, .rw, 0, .no⟩, ⟨31, 1, .rw, 0, .no⟩]⟩,
   ⟨0x100, [], [⟨0, 2, .ro, 0, .no⟩, ⟨2, 2, .ro, 0, .no⟩]⟩,
   ⟨0x104, [], [⟨0, 10, .ro, 0, .no⟩]⟩,
   ⟨0x108, [], [⟨0, 16, .ro, 0, .no⟩, ⟨16, 16, .ro, 0, .no⟩]⟩,
   ⟨0x10c, [], [⟨0, 4, .ro, 0, .no⟩, ⟨8, 20, .ro, 0, .no⟩]⟩,
   ⟨0x110, [(4, 4)], [⟨0, 32, .ro, 0, .no⟩]⟩,
   ⟨0x120, [], [⟨0, 24, .ro, 0, .no⟩]⟩,
   ⟨0x124, [], [⟨0, 2, .wo, 0, .no⟩, ⟨31, 1, .wo, 0, .no⟩]⟩,
   ⟨0x128, [], [⟨0, 2, .ro, 0, .no⟩, ⟨4, 4, .ro, 0, .no⟩, ⟨8, 1, .w1c, 0, .no⟩, ⟨9, 1, .ro, 0, .no⟩, ⟨16, 10, .ro, 0, .no⟩]⟩,
   ⟨0x12c, [], [⟨0, 32, .ro, 0, .no⟩]⟩,
   ⟨0x130, [], [⟨0, 16, .ro, 0, .no⟩]⟩,
   ⟨0x140, [], [⟨0, 10, .ro, 0, .no⟩, ⟨14, 1, .ro, 0, .no⟩, ⟨15, 1, .ro, 0, .no⟩, ⟨16, 10, .ro, 0, .no⟩]⟩,
   ⟨0x144, [], [⟨0, 10, .wo, 0, .no⟩, ⟨30, 1, .wo, 0, .no⟩, ⟨31, 1, .wo, 0, .no⟩]⟩,
   ⟨0x150, [], [⟨0, 1, .ro, 0, .aon⟩, ⟨1, 3, .ro, 0, .aon⟩, ⟨16, 10, .ro, 0, .aon⟩]⟩,
   ⟨0x154, [], [⟨0, 32, .ro, 0, .aon⟩]⟩,
   ⟨0x180, [(4, 0x10)], [⟨0, 1, .ro, 0, .no⟩, ⟨1, 1, .ro, 0, .no⟩, ⟨2, 1, .ro, 0, .no⟩]⟩,
   ⟨0x184, [(4, 0x10)], [⟨0, 32, .ro, 0, .no⟩]⟩,
   ⟨0x188, [(4, 0x10)], [⟨0, 32, .ro, 0, .no⟩]⟩,
   ⟨0x1c0, [], [⟨0, 8, .ro, 0, .no⟩]⟩]

/-- The registers of page CRYPTO. -/
def RegTable.crypto : List RegRow :=
  [⟨0x40, [], [⟨0, 4, .rw, 0, .no⟩, ⟨4, 3, .rw, 0, .no⟩, ⟨31, 1, .wo, 0, .no⟩]⟩,
   ⟨0x44, [], [⟨0, 9, .rw, 0, .no⟩]⟩,
   ⟨0x48, [], [⟨0, 1, .ro, 0, .no⟩, ⟨1, 3, .ro, 0, .no⟩, ⟨4, 1, .ro, 0, .no⟩, ⟨5, 1, .ro, 0, .aon⟩]⟩,
   ⟨0x4c, [], [⟨0, 16, .ro, 0, .no⟩]⟩,
   ⟨0x50, [], [⟨0, 32, .rw, 0xffffffff, .no⟩]⟩,
   ⟨0x100, [(64, 4)], [⟨0, 32, .wo, 0, .no⟩]⟩,
   ⟨0x200, [(16, 4)], [⟨0, 32, .ro, 0, .no⟩]⟩]

/-- The registers of page LCD. -/
def RegTable.lcd : List RegRow :=
  [⟨0x40, [], [⟨0, 5, .rw, 8, .no⟩, ⟨8, 5, .rw, 5, .no⟩, ⟨16, 4, .rw, 8, .no⟩]⟩,
   ⟨0x44, [], [⟨0, 6, .ro, 0, .no⟩, ⟨8, 2, .ro, 0, .no⟩]⟩,
   ⟨0x48, [], [⟨1, 15, .rw, 0, .no⟩]⟩,
   ⟨0x4c, [], [⟨0, 20, .ro, 0, .no⟩]⟩,
   ⟨0x50, [], [⟨0, 5, .rw, 0, .no⟩]⟩,
   ⟨0x60, [(4, 4)], [⟨0, 20, .rw, 0, .no⟩]⟩,
   ⟨0x70, [], [⟨0, 32, .ro, 0, .no⟩]⟩,
   ⟨0x74, [], [⟨0, 32, .ro, 0, .no⟩]⟩,
   ⟨0x78, [], [⟨0, 16, .ro, 0, .no⟩]⟩,
   ⟨0x100, [(32, 0x10)], [⟨0, 4, .rw, 0, .no⟩, ⟨4, 7, .rw, 0, .no⟩, ⟨16, 8, .rw, 0, .no⟩, ⟨24, 8, .rw, 0, .no⟩]⟩,
   ⟨0x104, [(32, 0x10)], [⟨0, 8, .rw, 0, .no⟩, ⟨8, 4, .rw, 0, .no⟩, ⟨12, 3, .rw, 0, .no⟩, ⟨15, 1, .rw, 0, .no⟩, ⟨16, 16, .rw, 0, .no⟩]⟩,
   ⟨0x108, [(32, 0x10)], [⟨0, 32, .rw, 0, .no⟩]⟩,
   ⟨0x10c, [(32, 0x10)], [⟨0, 31, .rw, 0, .no⟩, ⟨31, 1, .rw, 0, .no⟩]⟩]

/-- The registers of page KEYPAD. -/
def RegTable.keypad : List RegRow :=
  [⟨0x40, [], [⟨0, 1, .rw, 1, .no⟩, ⟨1, 3, .rw, 3, .no⟩]⟩,
   ⟨0x44, [], [⟨0, 4, .ro, 0, .no⟩, ⟨8, 1, .ro, 1, .no⟩]⟩,
   ⟨0x48, [], [⟨0, 16, .ro, 0, .no⟩, ⟨16, 4, .ro, 0, .no⟩]⟩]

/-- The registers of page LAMP. -/
def RegTable.lamp : List RegRow :=
  [⟨0x40, [(6, 0x10)], [⟨0, 1, .rw, 0, .no⟩, ⟨1, 5, .rw, 0xa, .no⟩, ⟨6, 1, .rw, 1, .no⟩]⟩,
   ⟨0x44, [(6, 0x10)], [⟨0, 12, .rw, 0, .no⟩]⟩,
   ⟨0x48, [(6, 0x10)], [⟨0, 3, .ro, 0, .no⟩, ⟨3, 1, .ro, 0, .no⟩, ⟨4, 2, .ro, 0, .no⟩, ⟨8, 1, .w1s, 0, .no⟩, ⟨16, 16, .ro, 0, .no⟩]⟩,
   ⟨0xa0, [], [⟨0, 1, .rw, 1, .no⟩, ⟨8, 8, .rw, 0xa, .no⟩, ⟨16, 8, .rw, 0x14, .no⟩]⟩]

/-- The registers of page HSPI. -/
def RegTable.hspi : List RegRow :=
  [⟨0x40, [], [⟨0, 3, .ro, 0, .no⟩, ⟨3, 1, .w1c, 0, .no⟩, ⟨4, 1, .w1c, 0, .no⟩, ⟨5, 1, .ro, 0, .no⟩, ⟨8, 8, .ro, 0, .no⟩]⟩,
   ⟨0x44, [], [⟨0, 24, .ro, 0, .no⟩]⟩,
   ⟨0x48, [], [⟨0, 32, .ro, 0, .no⟩]⟩,
   ⟨0x50, [], [⟨0, 11, .rw, 0, .no⟩]⟩,
   ⟨0x54, [], [⟨0, 4, .rw, 0, .no⟩, ⟨16, 13, .rw, 0, .no⟩]⟩,
   ⟨0x58, [], [⟨0, 12, .rw, 0, .no⟩]⟩,
   ⟨0x5c, [], [⟨0, 1, .rw, 0, .no⟩, ⟨1, 1, .ro, 0, .no⟩, ⟨31, 1, .wo, 0, .no⟩]⟩]

/-- The registers of page I2CT. -/
def RegTable.i2ct : List RegRow :=
  [⟨0x40, [], [⟨0, 7, .rw, 0x3a, .aon⟩, ⟨7, 1, .rw, 1, .aon⟩]⟩,
   ⟨0x44, [], [⟨0, 10, .rw, 0x64, .no⟩]⟩,
   ⟨0x48, [], [⟨0, 3, .ro, 0, .no⟩, ⟨3, 1, .w1c, 0, .no⟩, ⟨4, 1, .ro, 0, .no⟩, ⟨8, 8, .ro, 0, .no⟩, ⟨16, 16, .ro, 0, .no⟩]⟩,
   ⟨0x4c, [], [⟨0, 24, .ro, 0, .no⟩]⟩,
   ⟨0x50, [], [⟨0, 24, .ro, 0, .no⟩]⟩]

/-- The registers of page MSPI. -/
def RegTable.mspi : List RegRow :=
  [⟨0x40, [], [⟨0, 2, .rw, 0, .no⟩, ⟨2, 8, .rw, 0x20, .no⟩, ⟨10, 4, .rw, 1, .no⟩, ⟨16, 4, .rw, 0, .no⟩]⟩,
   ⟨0x44, [], [⟨0, 8, .rw, 3, .no⟩, ⟨8, 8, .rw, 2, .no⟩, ⟨16, 8, .rw, 6, .no⟩, ⟨24, 8, .rw, 5, .no⟩]⟩,
   ⟨0x48, [], [⟨0, 8, .rw, 0x8e, .no⟩, ⟨8, 8, .rw, 0, .no⟩]⟩,
   ⟨0x4c, [], [⟨0, 10, .rw, 0x64, .no⟩]⟩,
   ⟨0x50, [], [⟨0, 1, .ro, 0, .no⟩, ⟨1, 2, .ro, 0, .no⟩, ⟨3, 1, .w1c, 0, .no⟩, ⟨8, 8, .ro, 0, .no⟩, ⟨16, 1, .ro, 0, .no⟩]⟩,
   ⟨0x54, [], [⟨0, 16, .ro, 0, .no⟩]⟩,
   ⟨0x58, [], [⟨0, 32, .ro, 0, .no⟩]⟩,
   ⟨0x5c, [], [⟨0, 32, .ro, 0, .no⟩]⟩,
   ⟨0x60, [], [⟨0, 8, .rw, 0, .no⟩, ⟨8, 1, .rw, 0, .no⟩, ⟨9, 1, .rw, 0, .no⟩, ⟨16, 7, .rw, 0, .no⟩, ⟨31, 1, .wo, 0, .no⟩]⟩,
   ⟨0x64, [], [⟨0, 24, .rw, 0, .no⟩]⟩,
   ⟨0x80, [(16, 4)], [⟨0, 32, .rw, 0, .no⟩]⟩]

/-- The registers of page UART. -/
def RegTable.uart : List RegRow :=
  [⟨0x40, [], [⟨0, 1, .rw, 0, .no⟩, ⟨1, 2, .rw, 0, .no⟩, ⟨3, 1, .rw, 0, .no⟩, ⟨4, 1, .rw, 0, .no⟩]⟩,
   ⟨0x44, [], [⟨0, 20, .rw, 0x8b, .no⟩]⟩,
   ⟨0x48, [], [⟨0, 8, .rw, 0, .no⟩]⟩,
   ⟨0x4c, [], [⟨0, 5, .ro, 0, .no⟩, ⟨8, 5, .ro, 0, .no⟩, ⟨16, 1, .w1c, 0, .no⟩, ⟨17, 1, .w1c, 0, .no⟩, ⟨18, 1, .w1c, 0, .no⟩]⟩,
   ⟨0x50, [(2, 0x10)], [⟨0, 4, .rw, 0, .no⟩, ⟨4, 1, .rw, 0, .no⟩, ⟨16, 13, .rw, 0, .no⟩]⟩,
   ⟨0x54, [(2, 0x10)], [⟨0, 16, .rw, 0, .no⟩]⟩,
   ⟨0x58, [(2, 0x10)], [⟨0, 16, .ro, 0, .no⟩]⟩]

/-- The registers of page LGLMBX. -/
def RegTable.lglmbx : List RegRow :=
  [⟨0x40, [], [⟨0, 16, .ro, 0, .no⟩, ⟨16, 16, .ro, 0, .no⟩]⟩,
   ⟨0x44, [], [⟨0, 10, .rwo, 0x64, .no⟩]⟩,
   ⟨0x100, [(2, 0x100)], [⟨0, 8, .rw, 0, .no⟩, ⟨8, 5, .rw, 0, .no⟩, ⟨16, 8, .rw, 0, .no⟩, ⟨31, 1, .wo, 0, .no⟩]⟩,
   ⟨0x104, [(2, 0x100)], [⟨0, 2, .ro, 0, .no⟩, ⟨2, 1, .w1c, 0, .no⟩, ⟨3, 3, .ro, 0, .no⟩]⟩,
   ⟨0x108, [(2, 0x100)], [⟨0, 16, .rw, 0, .no⟩]⟩,
   ⟨0x110, [(2, 0x100), (16, 4)], [⟨0, 32, .rw, 0, .no⟩]⟩,
   ⟨0x160, [(2, 0x100)], [⟨0, 8, .rwo, 0, .no⟩, ⟨8, 5, .rwo, 0, .no⟩, ⟨16, 8, .ro, 0, .no⟩, ⟨31, 1, .wo, 0, .no⟩]⟩,
   ⟨0x170, [(2, 0x100), (16, 4)], [⟨0, 32, .rwo, 0, .no⟩]⟩]

/-- The registers of page DPM. -/
def RegTable.dpm : List RegRow :=
  [⟨0x40, [], [⟨0, 16, .ro, 0, .no⟩, ⟨16, 1, .ro, 0, .no⟩, ⟨17, 1, .w1c, 0, .no⟩, ⟨18, 1, .ro, 0, .no⟩]⟩,
   ⟨0x44, [], [⟨0, 11, .ro, 0, .no⟩]⟩,
   ⟨0x48, [], [⟨0, 4, .rw, 8, .no⟩]⟩,
   ⟨0x4c, [], [⟨0, 1, .wo, 0, .no⟩]⟩]

/-- The registers of page FUSE. -/
def RegTable.fuse : List RegRow :=
  [⟨0x40, [], [⟨0, 3, .ro, 0, .fuse⟩, ⟨4, 3, .ro, 0, .fuse⟩]⟩,
   ⟨0x44, [], [⟨0, 32, .ro, 0, .fuse⟩]⟩,
   ⟨0x48, [], [⟨0, 32, .ro, 0, .fuse⟩]⟩,
   ⟨0x60, [(8, 4)], [⟨0, 32, .ro, 0, .fuse⟩]⟩,
   ⟨0x80, [], [⟨0, 3, .wo, 0, .no⟩, ⟨31, 1, .wo, 0, .no⟩]⟩,
   ⟨0x84, [], [⟨0, 1, .ro, 0, .no⟩, ⟨1, 2, .ro, 0, .no⟩, ⟨3, 1, .ro, 0, .no⟩]⟩,
   ⟨0xa0, [(8, 4)], [⟨0, 32, .wo, 0, .no⟩]⟩]

/-- The registers of page DEBUG. -/
def RegTable.debug : List RegRow :=
  [⟨0x40, [], [⟨0, 1, .ro, 0, .no⟩, ⟨1, 1, .ro, 0, .no⟩, ⟨2, 1, .ro, 0, .no⟩, ⟨3, 1, .w1s, 0, .no⟩, ⟨4, 1, .w1c, 0, .no⟩, ⟨5, 1, .ro, 0, .no⟩, ⟨6, 1, .ro, 0, .no⟩]⟩,
   ⟨0x44, [], [⟨0, 32, .ro, 0x2c724b47, .no⟩]⟩]

/-- The registers of page WATCH. -/
def RegTable.watch : List RegRow :=
  [⟨0x40, [], [⟨0, 1, .rw, 0, .aon⟩, ⟨1, 2, .rw, 0, .aon⟩, ⟨4, 4, .rw, 0, .aon⟩, ⟨8, 1, .rw, 0, .aon⟩, ⟨9, 3, .rw, 0, .aon⟩, ⟨12, 4, .rw, 0, .aon⟩, ⟨16, 2, .rw, 0, .aon⟩, ⟨31, 1, .wo, 0, .no⟩]⟩,
   ⟨0x44, [], [⟨0, 12, .rw, 0x3c, .aon⟩]⟩,
   ⟨0x48, [], [⟨0, 12, .rw, 0, .aon⟩]⟩,
   ⟨0x4c, [], [⟨0, 32, .rw, 0x80000000, .aon⟩]⟩,
   ⟨0x50, [], [⟨0, 32, .rw, 0x7fffffff, .aon⟩]⟩,
   ⟨0x54, [], [⟨0, 16, .rw, 0xfe70, .aon⟩, ⟨16, 16, .rw, 0x320, .aon⟩]⟩,
   ⟨0x58, [], [⟨0, 8, .rw, 0x14, .aon⟩, ⟨8, 4, .rw, 4, .aon⟩, ⟨12, 4, .rw, 2, .aon⟩]⟩,
   ⟨0x60, [], [⟨0, 1, .ro, 0, .aon⟩, ⟨1, 1, .ro, 0, .aon⟩, ⟨4, 4, .ro, 0, .aon⟩, ⟨8, 4, .ro, 0, .aon⟩, ⟨16, 12, .ro, 0, .aon⟩]⟩,
   ⟨0x64, [], [⟨0, 32, .ro, 0, .aon⟩]⟩,
   ⟨0x68, [], [⟨0, 32, .ro, 0, .aon⟩]⟩,
   ⟨0x6c, [], [⟨0, 3, .ro, 0, .aon⟩, ⟨4, 4, .ro, 0, .aon⟩, ⟨8, 4, .ro, 0, .aon⟩, ⟨12, 3, .ro, 0, .aon⟩, ⟨16, 7, .ro, 0, .aon⟩]⟩,
   ⟨0x70, [], [⟨0, 12, .ro, 0, .aon⟩, ⟨16, 12, .ro, 0, .aon⟩]⟩,
   ⟨0x74, [], [⟨0, 32, .ro, 0, .aon⟩]⟩,
   ⟨0x78, [], [⟨0, 16, .ro, 0, .aon⟩, ⟨16, 16, .ro, 0, .aon⟩]⟩,
   ⟨0x7c, [], [⟨0, 32, .ro, 0, .aon⟩]⟩]

/-- The register table of a page. -/
def pageRows : Page → List RegRow
  | .sysctl => RegTable.sysctl
  | .pwr => RegTable.pwr
  | .clk => RegTable.clk
  | .rooster => RegTable.rooster
  | .gander => RegTable.gander
  | .rtc => RegTable.rtc
  | .mae => RegTable.mae
  | .herd => RegTable.herd
  | .mule => RegTable.mule
  | .memctl => RegTable.memctl
  | .evtmx => RegTable.evtmx
  | .fwall => RegTable.fwall
  | .metFe => RegTable.metFe
  | .metCal => RegTable.metCal
  | .metQty => RegTable.metQty
  | .energy => RegTable.energy
  | .pulse => RegTable.pulse
  | .ufeDrv => RegTable.ufeDrv
  | .ufeRx => RegTable.ufeRx
  | .ufeTof => RegTable.ufeTof
  | .flow => RegTable.flow
  | .rtd => RegTable.rtd
  | .therm => RegTable.therm
  | .tariff => RegTable.tariff
  | .bill => RegTable.bill
  | .prepay => RegTable.prepay
  | .crypto => RegTable.crypto
  | .lcd => RegTable.lcd
  | .keypad => RegTable.keypad
  | .lamp => RegTable.lamp
  | .hspi => RegTable.hspi
  | .i2ct => RegTable.i2ct
  | .mspi => RegTable.mspi
  | .uart => RegTable.uart
  | .lglmbx => RegTable.lglmbx
  | .dpm => RegTable.dpm
  | .fuse => RegTable.fuse
  | .debug => RegTable.debug
  | .watch => RegTable.watch

/-- Whether offset `rest` above the base falls on a repetition of the register. -/
def dimsCover : List (Nat × Nat) → Nat → Bool
  | [], rest => rest == 0
  | (c, s) :: t, rest => rest / s < c && dimsCover t (rest % s)

/-- Whether a row's register stands at page offset `off`. -/
def RegRow.covers (r : RegRow) (off : Nat) : Bool := r.base ≤ off && dimsCover r.dims (off - r.base)

/-- The fields of the header registers of R31 that are stored. -/
def headerFields (p : Page) (off : Nat) : List FieldRow :=
  match p.events with
  | none => if off == 0xC then [⟨0, 1, .w1s, 0, .no⟩] else []
  | some (_, n) =>
    if off == 0xC then [⟨0, 1, .w1s, 0, .no⟩]
    else if off == 0x10 then [⟨0, n, .ro, 0, .no⟩]
    else if off == 0x14 then [⟨0, n, .rw, 0, .no⟩]
    else if off == 0x18 then [⟨0, n, .w1c, 0, .no⟩]
    else if off == 0x1C then [⟨0, 4, .rw, 0, .no⟩]
    else []

/-- The fields at page offset `off` (none at a reserved offset, R14). -/
def fieldsAt (p : Page) (off : Nat) : List FieldRow :=
  if off < 0x40 then headerFields p off
  else match (pageRows p).find? (·.covers off) with
    | some r => r.fields
    | none => []

/-- The page and the offset of a register address (R9, R23). -/
def regPlace (a : Nat) : Option (Page × Nat) :=
  if 0x40000000 ≤ a && a < 0x40027000 then
    match Page.ofNum ((a - 0x40000000) / 0x1000) with
    | some p => some (p, a % 0x1000)
    | none => none
  else none

/-- The fields of the register at an address. -/
def fieldsOf (a : Nat) : List FieldRow :=
  match regPlace a with
  | some (p, off) => fieldsAt p off
  | none => []

/-- The word that a list of fields holds at reset. -/
def resetOf (fs : List FieldRow) : Word := BitVec.ofNat 32 (sumN (fs.map fun f => f.reset * 2 ^ f.lo))

/-- R15: the reset value of the register at an address. -/
def regReset (a : Nat) : Word := resetOf (fieldsOf a)

/-- The bits of the fields that satisfy `q`. -/
def fieldMask (q : FieldRow → Bool) (fs : List FieldRow) : Nat :=
  sumN ((fs.filter q).map fun f => (2 ^ f.width - 1) * 2 ^ f.lo)

end Sys2Proof.Machine
end

