-- ==== Sys2Proof/Machine/Sha.lean ====
section
/-! DEFINITION. SHA-256 (FIPS 180-4) and HMAC over it, on lists of bytes as numbers (R237, R241). -/

namespace Sys2Proof.Machine

def rotr32 (x n : Nat) : Nat := x / 2 ^ n + x % 2 ^ n * 2 ^ (32 - n)

def add32 (a b : Nat) : Nat := (a + b) % 2 ^ 32

/-- The first 64 primes: below 312 a number without a factor up to 17 is one. -/
def shaPrimes : List Nat :=
  (List.range 312).filter fun n => 2 ≤ n && (List.range 18).all fun k => k < 2 || n ≤ k || n % k != 0

/-- Binary digits of a cube root, `fuel` of them, from the top down. -/
def icbrtGo (n : Nat) : Nat → Nat → Nat
  | 0, r => r
  | f + 1, r => icbrtGo n f (if (r + 2 ^ f) ^ 3 ≤ n then r + 2 ^ f else r)

/-- The round constants: 32 bits of the fraction of the primes' cube roots. -/
def shaK : List Nat := shaPrimes.map fun p => icbrtGo (p * 2 ^ 96) 40 0 % 2 ^ 32

/-- The initial hash value: 32 bits of the fraction of the first primes' square roots. -/
def shaInit : List Nat := (shaPrimes.take 8).map fun p => isqrtGo (p * 2 ^ 64) 40 0 % 2 ^ 32

def smallSigma0 (x : Nat) : Nat := rotr32 x 7 ^^^ rotr32 x 18 ^^^ x / 8
def smallSigma1 (x : Nat) : Nat := rotr32 x 17 ^^^ rotr32 x 19 ^^^ x / 1024

/-- The message schedule, newest word first: `n` more words. -/
def schedule : Nat → List Nat → List Nat
  | 0, ws => ws
  | n + 1, ws =>
    let g := fun i => (ws[i]?).getD 0
    schedule n (add32 (add32 (smallSigma1 (g 1)) (g 6)) (add32 (smallSigma0 (g 14)) (g 15)) :: ws)

/-- One round on the working variables a … h. -/
def shaRound (v : List Nat) (kw : Nat) : List Nat :=
  match v with
  | [a, b, c, d, e, f, g, h] =>
    let s1 := rotr32 e 6 ^^^ rotr32 e 11 ^^^ rotr32 e 25
    let ch := (e &&& f) ^^^ ((e ^^^ 0xFFFFFFFF) &&& g)
    let t1 := add32 (add32 h s1) (add32 ch kw)
    let s0 := rotr32 a 2 ^^^ rotr32 a 13 ^^^ rotr32 a 22
    let maj := (a &&& b) ^^^ (a &&& c) ^^^ (b &&& c)
    [add32 t1 (add32 s0 maj), a, b, c, add32 d t1, e, f, g]
  | _ => v

/-- Big-endian words of a byte string, `n` of them. -/
def beWords : Nat → List Nat → List Nat
  | 0, _ => []
  | n + 1, s => (s.take 4).foldl (fun x b => 256 * x + b) 0 :: beWords n (s.drop 4)

/-- One block of 64 bytes into the hash value. -/
def shaBlock (h : List Nat) (blk : List Nat) : List Nat :=
  let ws := (schedule 48 (beWords 16 blk).reverse).reverse
  let v := (List.zipWith add32 shaK ws).foldl shaRound h
  List.zipWith add32 h v

/-- `n` blocks into the hash value. -/
def shaBlocks : Nat → List Nat → List Nat → List Nat
  | 0, h, _ => h
  | n + 1, h, s => shaBlocks n (shaBlock h (s.take 64)) (s.drop 64)

/-- The padding of a message of `len` bytes. -/
def shaPad (len : Nat) : List Nat :=
  0x80 :: List.replicate ((119 - len % 64) % 64) 0 ++ (beBytes 8 (8 * len)).map (·.toNat)

/-- The hash value as 32 bytes. -/
def shaOut (h : List Nat) : List Nat := h.flatMap fun w => (beBytes 4 w).map (·.toNat)

/-- The digest of a message from hash value `h` after `before` bytes (a whole number of blocks). -/
def shaFinish (h : List Nat) (before : Nat) (msg : List Nat) : List Nat :=
  let m := msg ++ shaPad (before + msg.length)
  shaOut (shaBlocks (m.length / 64) h m)

/-- SHA-256. -/
def sha256 (msg : List Nat) : List Nat := shaFinish shaInit 0 msg

/-- HMAC-SHA-256 with a key of at most 64 bytes. -/
def hmac (key msg : List Nat) : List Nat :=
  let k := key ++ List.replicate (64 - key.length) 0
  sha256 (k.map (· ^^^ 0x5C) ++ sha256 (k.map (· ^^^ 0x36) ++ msg))

end Sys2Proof.Machine
end

