-- ==== Sys2Proof/Machine/State.lean ====
section
/-! DEFINITION. The state of the block: everything the manual gives it beside the command queue (`Dev`), and the queue.
Plain data throughout. -/

namespace Sys2Proof.Machine

/-- The answer of the last bus access: the model's own output, which later commands never read. -/
inductive BusResp where
  | none | done | data (w : Word) | words (ws : List Word) | frame (status : Byte) (ws : List Word) | error | nack
deriving DecidableEq, Repr

/-- The capture registers one requester has (R16, R55, R108, R161, R252). -/
structure Captures where
  /-- R16: the high word of the last low-word read. -/
  hi : Word := 0
  /-- R55: the cycle count of the last read of NOW. -/
  nowCyc : Word := 0
  /-- R108: the shadow of the result block whose RES_STAT was last read. -/
  res : List Word := []
  /-- R161: the shadow of the per-cycle quantities, by register address. -/
  qty : SMap Word := []
  /-- R252: TIME_HI and SUBSEC as captured. -/
  timeHi : Word := 0
  subsec : Word := 0
deriving DecidableEq, Repr

/-- One zero-crossing detector and what the MAE keeps of its reference (R37, R42, R454). -/
structure RefDet where
  /-- Modulator clock of the last accepted crossing that still counts as a previous one. -/
  last : Option Nat := .none
  /-- Accepted intervals in modulator clocks, newest first, at most eight. -/
  ivals : List Nat := []
  valid : Bool := false
  /-- Consecutive accepted crossings that qualify for validity. -/
  run : Nat := 0
  /-- Angles 0x0000 in a row at which it has been valid (R39). -/
  validCyc : Nat := 0
  /-- Increments the accumulator has added since the last accepted crossing (R42). -/
  span : Nat := 0
deriving DecidableEq, Repr

/-- A splice as the MAE reports it to HERD (R51): the mains times FROM and TO. -/
structure Splice where
  fromCyc : Word
  fromAng : Nat
  toCyc : Word
  toAng : Nat
deriving DecidableEq, Repr

/-- The Mains Angle Engine beside its registers (R32–R58). -/
structure Mae where
  running : Bool := false
  /-- It has run since SYS was last powered (R433). -/
  hasRun : Bool := false
  /-- The 40-bit phase accumulator (R32). -/
  acc : Nat := 0
  cyc : Word := 0
  /-- Modulator clocks counted while the MAE ran. -/
  modClk : Nat := 0
  cycStartClk : Nat := 0
  /-- The rate correction S, and how much of the one cycle it lasts for is left (R47). -/
  slew : Int := 0
  slewLeft : Nat := 0
  /-- The next sample tick of the cycle (R34). -/
  nextTick : Nat := 0
  /-- Reference settings in effect (R40). -/
  refSel : Nat := 3
  zcOfs : Nat := 0
  refOfs : Vector Nat 3 := #v[0, 0x5555, 0xAAAB]
  crossWin : Nat := 0x1000
  /-- Quiet-window masks written and not yet in effect: the low words, and the masks committed (R53). -/
  qwmLo : Vector Word 4 := Vector.replicate 4 0xFFFFFFFF
  qwmNext : Vector (Option (Word × Word)) 4 := Vector.replicate 4 .none
  det : Vector RefDet 3 := Vector.replicate 3 {}
  /-- Consecutive crossings within LOCK_TOL (R41), and the errors awaiting splice confirmation (R48). -/
  lockRun : Nat := 0
  confirm : List Int := []
  /-- FREQ frozen at the entry to COAST, or as restored (R44). -/
  coastFreq : Nat := 0x320000
  /-- A splice fell in the present cycle (R50), and the splices HERD has not evaluated yet (R51). -/
  cycSpliced : Bool := false
  /-- COAST or SYNTH stood at some time of the present cycle (R165). -/
  cycNoref : Bool := false
  splices : List Splice := []
  /-- Capture units that have missed an edge since they recorded one (R56). -/
  capMissed : Vector Bool 4 := Vector.replicate 4 false
deriving DecidableEq, Repr

/-- The run state of one HERD task (R62–R64, R68, R74, R78). -/
structure HTask where
  idx : Nat
  armed : Bool := false
  /-- The next due time, cycle and tick; none: found in the next evaluation (R63). -/
  due : Option (Word × Nat) := .none
  /-- The next occurrence has already ended (R78). -/
  skip : Bool := false
  /-- The occurrence has been moved to this cycle and tick (R76). -/
  moved : Option (Word × Nat) := .none
  /-- The occurrence is to be placed in the first evaluation of this cycle (R76). -/
  search : Option Word := .none
  waiting : Bool := false
  waited : Nat := 0
  /-- Due time and priority of the waiting occurrence (R69). -/
  wDue : Word × Nat := (0, 0)
  prio : Nat := 0
  late : Bool := false
  deferred : Bool := false
  ctxWait : Bool := false
  lastCause : Nat := 0
  lastLate : Bool := false
  lastDeferred : Bool := false
  lastAtLimit : Bool := false
deriving DecidableEq, Repr

/-- One of HERD's context holds (R78). -/
structure HHold where
  task : Nat
  ctx : Nat
  /-- The frame is resident and held. -/
  held : Bool
deriving DecidableEq, Repr

/-- HERD beside its registers: the state store (R59–R81). -/
structure Herd where
  /-- The tasks that are armed or have a record, by number. -/
  tasks : List HTask := []
  holds : List HHold := []
  /-- Requests beyond the eighth hold, task and context, oldest first; they go out as holds are released (R78). -/
  asks : List (Nat × Nat) := []
  /-- The sample tick whose evaluation is due. -/
  evalDue : Bool := false
  /-- The MAE has started since the last evaluation (R80); `true`: it resumed (R58). -/
  resume : Option Bool := .none
  /-- The unit codes whose accepted task is running, and the task (R73). -/
  running : List (Nat × Nat) := []
deriving DecidableEq, Repr

/-- What a shot has come to (R95–R100, R104). -/
structure Shot where
  fired : Bool := false
  ended : Bool := false
  /-- Drive fault: 0 none, 2 OPEN, 3 SHORT (R104). -/
  drive : Nat := 0
  /-- The UFE_XSTART edge and the stopping hit, in ticks after the fire edge. -/
  start : Option Nat := .none
  hit : Option Nat := .none
  /-- The capture after the shot's own masks, and whether a sample is at the end of the range. -/
  capt : List Int := []
  clip : Bool := false
deriving DecidableEq, Repr

/-- A shot pair in flight with the values loaded at acceptance (R85). -/
structure Pair where
  path : Nat
  /-- 0 HERD, 1 MANUAL, 2 WATCH. -/
  src : Nat
  task : Nat
  late : Bool
  deferred : Bool
  atLimit : Bool
  en : Bool
  swap : Bool
  /-- SET_DRV, SET_RX, SET_HIT, SET_WIN, SET_CAP and SET_GAP as loaded. -/
  drv : Nat
  rx : Nat
  hit : Nat
  win : Nat
  cap : Nat
  gap : Nat
  gain : Nat
  openThr : Nat
  shortThr : Nat
  peakMin : Nat
  /-- Mains time of the downstream fire edge. -/
  cyc : Word := 0
  ang : Nat := 0
  dn : Shot := {}
  up : Shot := {}
deriving DecidableEq, Repr

/-- The captures of a completed pair, as the waveform window shows them. -/
structure Wave where
  path : Nat
  dn : List Int
  up : List Int
deriving DecidableEq, Repr

/-- A burst on a transducer ball (R89, R90): ball 2n is UFE_nA and 2n + 1 is UFE_nB; times in coarse clocks. -/
structure Burst where
  ball : Nat
  half : Nat
  /-- Where it ends, counted from the fire edge: after its periods, or where a short circuit stops the driver (R104). -/
  stop : Nat
  /-- At logic level for an external driver. -/
  ext : Bool
deriving DecidableEq, Repr

/-- The ultrasonic front end beside its registers. -/
structure Ufe where
  pair : Option Pair := .none
  /-- The reset switch of the charge amplifiers is open (R85, R88, R91). -/
  open_ : Bool := false
  /-- The ball connected to its charge amplifier, with that amplifier's feedback capacitor in pF (R88, R91). -/
  rx : Option (Nat × Nat) := .none
  /-- The burst of the shot in flight (R89). -/
  burst : Option Burst := .none
  /-- The captures of the last completed pair, and those that FREEZE keeps. -/
  wave : Option Wave := .none
  frozen : Option Wave := .none
deriving DecidableEq, Repr

/-- FLOW's view of one path beside its registers (R118–R121). -/
structure FlowPath where
  /-- The causes of FLOW_UNKNOWN that hold, bit `c` for code `c` (R119). -/
  causes : Nat := 32
  /-- Runs of results below EMPTY_AMP and at or above EMPTY_REL (R121). -/
  loRun : Nat := 0
  hiRun : Nat := 0
  /-- The cycle of the last OK result (R123), and the modulator clock of it (R118). -/
  lastOk : Option Word := .none
  lastClk : Option Nat := .none
  /-- Sample ticks since the last OK result (R119). -/
  stale : Nat := 0
deriving DecidableEq, Repr

/-- A leak window (R122): its paths, their volumes at its start, whether it is void. -/
structure LeakWin where
  sup : Nat
  ret : Nat
  vSup : Int
  vRet : Int
  void : Bool
deriving DecidableEq, Repr

/-- FLOW beside its registers. -/
structure Flow where
  paths : Vector FlowPath 4 := Vector.replicate 4 {}
  leaks : Vector (Option LeakWin) 4 := Vector.replicate 4 .none
  /-- The residue below 1 µL of each volume, in 2⁻⁶⁴ µL (R118). -/
  volRes : Vector Nat 4 := Vector.replicate 4 0
deriving DecidableEq, Repr

/-- One criterion of an outlet beside its registers (R131). -/
structure Criterion where
  valid : Bool := false
  /-- The smallest U of the worse run, the largest D of the better run. -/
  su : Nat := 0
  sd : Nat := 0
deriving DecidableEq, Repr

/-- THERM's view of one outlet beside its registers (R129–R135). -/
structure Outlet where
  crit : Vector Criterion 3 := Vector.replicate 3 {}
  /-- Task evaluations in which each fault condition (FU, RTDF, DRY) has been absent. -/
  absent : Vector Nat 3 := Vector.replicate 3 0
  /-- For each RTD channel, task evaluations since its last result. -/
  stale : Vector Nat 8 := Vector.replicate 8 1
  /-- Evaluations in a row with the current above the limit. -/
  above : Nat := 0
  /-- The validity of an input has changed; a fault evaluation is due. -/
  due : Bool := false
deriving DecidableEq, Repr

/-- An RTD conversion in progress (R124). -/
structure RtdConv where
  ch : Nat
  slow : Bool
  discard : Bool
deriving DecidableEq, Repr

/-- RTD beside its registers. -/
structure Rtd where
  conv : Option RtdConv := .none
  /-- The channel of the previous conversion since the power-up of UFA. -/
  prev : Option Nat := .none
  /-- Channels whose configuration was written since their last conversion, as a mask. -/
  dirty : Nat := 0
  /-- The cycle in which the last result of each channel was written (R128). -/
  done : Vector (Option Word) 8 := Vector.replicate 8 .none
deriving DecidableEq, Repr

/-- One metrology channel beside its registers (R143, R150, R151). -/
structure FeChan where
  /-- CH_CFG as the last word took it; none since the channel was powered. -/
  cfg : Option Nat := .none
  gain : Option Nat := .none
  /-- Invalid samples still to come. -/
  rem : Nat := 0
  low : Bool := false
  /-- VALUE and RNG of the last valid word since it was enabled or powered. -/
  held : Option (Int × Bool) := .none
  /-- Qualifying whole cycles in the low range, the cycle in hand, its words so far, whether all qualify, whether it has
  closed. -/
  run : Nat := 0
  cyc : Word := 0
  cnt : Nat := 0
  ok : Bool := false
  closed : Bool := false
  /-- The last decimated value, and the states of the high-pass filter and of the integrator, in 2⁻³² LSB (R139, R140). -/
  dec : Int := 0
  hpf : Int := 0
  int : Int := 0
  /-- The 32 kS/s stream after the sensor mode's stage, in LSB, newest first (R145). -/
  stream : List Int := []
deriving DecidableEq, Repr

/-- A sample tick whose words are still to be emitted (R146), with the settings it took. -/
structure TickIn where
  cyc : Word
  tick : Nat
  /-- Modulator clock of the tick. -/
  clk : Nat
  /-- CH_CFG of the sixteen channels, and the channels written since the tick before, as a mask. -/
  cfg : List Nat
  wrote : Nat
  /-- GC_NOW and PD_NOW of the sixteen channels. -/
  gc : List Int
  pd : List Int
deriving DecidableEq, Repr

/-- The metrology front end beside its registers. -/
structure Fe where
  chans : Vector FeChan 16 := Vector.replicate 16 {}
  ticks : List TickIn := []
  wrote : Nat := 0
  /-- Cycle and tick of the last words emitted. -/
  last : Word × Nat := (0, 0)
  /-- Levels of the CNT_IN balls (R157). -/
  pins : Vector Bool 4 := Vector.replicate 4 false
deriving DecidableEq, Repr

/-- The words of one tick as MET_QTY uses them (R159, R168): scaled values in 2⁻²³ mV or mA by channel, held channels as
a mask, Δτ in 1/256 modulator clock. -/
structure QRow where
  x : List (Option Int)
  held : Nat
  tau : Nat
deriving DecidableEq, Repr

/-- What a cycle took at its angle 0x0000, and what happened in it (R164, R165, R169–R171). -/
structure CycRec where
  cyc : Word
  rcab : List Nat
  tariff : List Nat
  len : Nat := 0
  noref : Bool := false
  spliced : Bool := false
deriving DecidableEq, Repr

/-- A closed cycle that waits for its publication (R160). -/
structure Closed where
  cyc : Word
  rows : List QRow
  /-- The rows before it, newest last, at most 64 (R163). -/
  before : List QRow
  freq : Nat
deriving DecidableEq, Repr

/-- MET_QTY and ENERGY beside their registers. -/
structure Qty where
  cyc : Option Word := .none
  rows : List QRow := []
  before : List QRow := []
  lastClk : Option Nat := .none
  /-- Cycles to be published, oldest first. -/
  closed : List Closed := []
  recs : List CycRec := []
  rotErr : Bool := false
  /-- Outlets found not to fit their type, as a mask (R167). -/
  typeErr : Nat := 0
  /-- Squares of the scaled values of MCH0–MCH2 at the last ticks emitted, newest first, at most 256 (R37). -/
  refSq : Vector (List Nat) 3 := Vector.replicate 3 []
deriving DecidableEq, Repr

/-- The energy remainders below 1 mWh, in 1/`energyDen` mWh (R171): DLV, RTN, RAW and LOSS of each outlet, and the input
totals; they are saved and restored with the totals. -/
structure Remainders where
  out : Vector (Nat × Nat) 4 := Vector.replicate 4 (0, 0)
  raw : Vector Nat 4 := Vector.replicate 4 0
  loss : Vector Nat 4 := Vector.replicate 4 0
  inp : Nat × Nat := (0, 0)
deriving DecidableEq, Repr

/-- A pulse output beside its registers (R174–R176). -/
structure PulseOut where
  acc : Nat := 0
  /-- 0 idle, 1 pulse active, 2 gap. -/
  phase : Nat := 0
  /-- The last pulse had full width. -/
  full : Bool := true
deriving DecidableEq, Repr

/-- What an SRAM word holds: a codeword, or what a power-up without retention left there (R194), named by the number of
that loss; its bits are the free value `Config.sramLost`. -/
inductive Stored where
  | known (c : Codeword)
  | lost (gen : Nat)
deriving DecidableEq, Repr

/-- A port A access of the DPM that a collision holds (R200). -/
structure DpmWait where
  req : Requester
  word : Nat
deriving DecidableEq, Repr

/-- The memories. -/
structure Mem where
  /-- SRAM words by bank × 8,192 + word index (R178); unlisted: see `sramDflt`. -/
  sram : SMap Stored := []
  /-- Banks whose unlisted words were lost, with the number of the loss; any other bank's unlisted words are cleared. -/
  undef : List (Nat × Nat) := []
  /-- LFL and AFL bytes; an erased byte reads 0xFF (R234). -/
  lfl : SMap Byte := []
  afl : SMap Byte := []
  /-- The external FRAM, as fitted (R215, R227). -/
  fram : SMap Byte := []
  /-- CE_THR has been raised since CNT_CLR (R192). -/
  ceThrDone : Bool := false
  dpmWait : Option DpmWait := .none
deriving DecidableEq, Repr

/-- What asks MULE for a page-in (R207, ERR_INFO.SRC). -/
inductive PageSrc where
  | lc | herd | pin | cmd
deriving DecidableEq, Repr

/-- A request for a context (R207). -/
structure PageReq where
  src : PageSrc
  acct : Nat
deriving DecidableEq, Repr

/-- What MULE has come to with its store (R212, R225–R227, R229). -/
inductive Store where
  | notReady | restoring | formatting | ready | failed
deriving DecidableEq, Repr

/-- A parked context (R221): its place in the staging bank, its account, the copy that holds its newest trusted version. -/
structure Parked where
  place : Nat
  acct : Nat
  slot : Nat
deriving DecidableEq, Repr

/-- The phases of a save epoch (R220); `waiting`: a page-in in progress goes first (R207). -/
inductive EpochPhase where
  | waiting | snapshot | saving
deriving DecidableEq, Repr

/-- A save epoch in progress (R219, R220). -/
structure Epoch where
  cause : Nat
  full : Bool
  phase : EpochPhase := .waiting
  /-- It was started by CMD, or by the quiesce of LGL or SYS. -/
  byCmd : Bool := false
  /-- The frames whose snapshots stand in the staging bank, with their accounts. -/
  staged : List (Nat × Nat) := []
  /-- The frames whose DIRTY bit the snapshot cleared and whose snapshots stand in the staging bank. -/
  dirty : List Nat := []
  /-- Header bytes 0x00C–0x01B but NCTX, as taken at the snapshot: CYC, CYC_HI, TIME. -/
  cyc : Nat := 0
  cycHi : Nat := 0
  time : List Byte := []
deriving DecidableEq, Repr

/-- MULE beside its registers (R202–R229). -/
structure Mule where
  store : Store := .notReady
  /-- The clock hand. -/
  hand : Nat := 0
  reqs : List PageReq := []
  /-- The page-in in progress, and whether one of its FRAM transfers has failed. -/
  op : Option PageReq := .none
  framBad : Bool := false
  /-- The account the LC is stalled on; the account whose page-in failed meanwhile: the access ends in a bus error. -/
  lcWait : Option Nat := .none
  lcFail : Option Nat := .none
  parked : List Parked := []
  epoch : Option Epoch := .none
  /-- The quiesce epoch that follows what is in progress (R229); the next epoch is the first after a restore (R225). -/
  owed : Bool := false
  fresh : Bool := false
  /-- Contexts held or failed that HERD has not been told of yet; empty between commands. -/
  reports : List (Nat × Bool) := []
deriving DecidableEq, Repr

/-- Lamp diagnosis (R329). -/
structure Lamps where
  /-- The duty in force in each lamp's period (R328). -/
  duty : Vector Nat 6 := Vector.replicate 6 0
  /-- Lamps still to be diagnosed, as a mask, and lamps stretched before. -/
  diag : Nat := 0
  stretched : Nat := 0
  /-- What the previous counted result of each was: OPEN 2 or SHORT 3, 0 none; its last result of any kind. -/
  last : Vector Nat 6 := Vector.replicate 6 0
  res : Vector Nat 6 := Vector.replicate 6 0
deriving DecidableEq, Repr

/-- The crypto engine beside its registers (R241–R243). -/
structure Crypto where
  /-- The operation in progress: OP, KEY and LEN as taken at GO. -/
  run : Option (Nat × Nat × Nat) := .none
  /-- The SHA-256 state: hash value, bytes not yet a block, bytes taken in all. -/
  shaH : List Nat := shaInit
  shaBuf : List Nat := []
  shaLen : Nat := 0
  /-- The keys of the eight slots; their types stand in KS_INFO. -/
  keys : Vector Nat 8 := Vector.replicate 8 0
deriving DecidableEq, Repr

/-- One mailbox channel beside its registers (R245–R248). -/
structure Mbx where
  /-- The opcode of the request that is out. -/
  opc : Nat := 0
  /-- A KEY request that is not served (R246, R247). -/
  unserved : Bool := false
  /-- STATUS and LEN of the LC's release of a KEY request before its tick. -/
  held : Option (Nat × Nat) := .none
deriving DecidableEq, Repr

/-- A command the RTC has accepted and not applied in full (R257), with its operands as they stood at its write. -/
inductive RtcCmd where
  | set (lo hi : Nat)
  | adj (ofs : Int)
  | cancel
  | dstAdd
  | dstSub
  /-- A shift still to be put into a second: forward (positive) or back, for the command with code `op`. -/
  | shift (op : Nat) (n : Int)
  /-- A shift that the second in progress, or the next one, completes. -/
  | shifting (op : Nat)
deriving DecidableEq, Repr

/-- The RTC beside its registers (R253–R266). -/
structure Rtc where
  cmd : Option RtcCmd := .none
  /-- It was written in the last period of a second: it is pending for the boundary after the next. -/
  late : Bool := false
  /-- Length of the second in progress, and its place in the compensation interval (R254, R255). -/
  len : Nat := 32768
  place : Nat := 0
  /-- Advance carried to the next second. -/
  carry : Nat := 0
  /-- The slew step in the second in progress. -/
  step : Int := 0
  /-- Periods of the second in progress known to have passed. -/
  sub : Nat := 0
  /-- The RTC counts from the RC oscillator; it returns at the next boundary. -/
  rc : Bool := false
  back : Bool := false
deriving DecidableEq, Repr

/-- TARIFF beside its registers (R275): the active bank, by register address. -/
structure Tariff where
  active : SMap Word := []
deriving DecidableEq, Repr

/-- An INTERRUPTED record that is to be built (R283, R287): its outlet, TIME, CYC, CYC_HI, lost seconds and registers. -/
structure IntrWait where
  outlet : Nat
  time : List Byte
  cyc : Nat
  cycHi : Nat
  secs : Nat
  dlv : Nat
  rtn : Nat
deriving DecidableEq, Repr

/-- BILL beside its registers (R277–R287). -/
structure Bill where
  /-- The queued bodies, bytes 0x00–0x5B, head first; SEQ and CRC follow from their places. -/
  queue : List (List Byte) := []
  /-- The transfer of the ring write, of the ring read in progress has failed; the read began before the write. -/
  badWr : Bool := false
  badRd : Bool := false
  rdFirst : Bool := false
  /-- A CLOCK_STEP that waits for a place, with CYC and CYC_HI of its step. -/
  step : Option (Nat × Nat) := .none
  /-- INTERRUPTED records that wait for a place, by outlet number. -/
  intr : List IntrWait := []
  stepSeq : Nat := 0
  /-- SEQ and TIME of each session's END or INTERRUPTED record, where they are known (R280). -/
  last : Vector (Option (Nat × List Byte)) 4 := Vector.replicate 4 .none
  /-- The record on its way to the ring (R284); the sequence number being read from it (R286). -/
  out : Option (List Byte) := .none
  reading : Option Nat := .none
deriving DecidableEq, Repr

/-- A keypad entry that is held (R295–R297). -/
structure KeyEntry where
  /-- 1 TOKEN, 2 LOGIN, 3 EC. -/
  kind : Nat
  /-- It has the wrong number of digits. -/
  malformed : Bool
  /-- The number keyed: a token's 20 digits, a login's account. -/
  number : Nat
  /-- Its final key fell in a locked second (R312). -/
  locked : Bool
  /-- The verdict delivered: GOOD or BAD. -/
  verdict : Option Bool := .none
  /-- A KEY_LOST came while it was held; a CRYPTO operation of it ended with TAMPER_DURING (R314). -/
  tamper : Bool := false
  during : Bool := false
deriving DecidableEq, Repr

/-- PREPAY beside its registers (R295–R297). -/
structure Prepay where
  /-- The keys of the entry being keyed, oldest first. -/
  keys : List Nat := []
  held : Option KeyEntry := .none
deriving DecidableEq, Repr

/-- The keypad lock as AON keeps it beside LOCK and REF_CNT (R311): UPTIME seconds of the counted refusals held, oldest
first, and of the start of the lock. -/
structure Lockout where
  hist : List Nat := []
  start : Nat := 0
deriving DecidableEq, Repr

/-- What the display shows (R319, R323). -/
inductive Shown where
  /-- A scroll item by its STATUS.ITEM code. -/
  | item (code : Nat)
  | echo
  | refused
  | accepted
  /-- The item of an acceptance. -/
  | result (i : Nat)
deriving DecidableEq, Repr

/-- LCD and KEYPAD beside their registers (R319–R327). -/
structure Panel where
  shown : Shown := .item 0
  /-- The key FIFO, oldest first. -/
  fifo : List Nat := []
  /-- Keys stuck, as a mask (R326); presses are blocked by a multiple press. -/
  stuck : Nat := 0
  multi : Bool := false
  /-- The low words of FW_VAL written last (R16). -/
  fwLo : Vector Word 32 := Vector.replicate 32 0
deriving DecidableEq, Repr

/-- GANDER beside its registers (R332, R333): runs of temperature readings beyond and within the thresholds, runs of mesh
checks that differ and match. -/
structure Gander where
  /-- The levels of TMP_IN_0–TMP_IN_5 and MAGSNS last found stable for DEB ms (R332). -/
  balls : BitVec 7 := 0
  hot : Nat := 0
  cool : Nat := 0
  differ : Nat := 0
  same : Nat := 0
deriving DecidableEq, Repr

/-- The core rail (R351, R361). -/
inductive Buck where
  | off | retention | low | full
deriving DecidableEq, Repr

/-- A five-step drop in progress (R356). -/
structure DropSeq where
  dom : Dom
  /-- The decision has been taken and isolation has begun. -/
  decided : Bool := false
  /-- RET_CFG as this drop found it (R359). -/
  ret : Nat := 0
  /-- The domain has been needed again since the decision. -/
  again : Bool := false
deriving DecidableEq, Repr

/-- An entry to SLEEP, DEEP, OFF or WATCH in progress (R353). -/
structure Entry where
  target : PState
  /-- The first forbidden domain has reached step 3. -/
  passed : Bool := false
  /-- The chip is to wake at once when the entry completes. -/
  rewake : Bool := false
deriving DecidableEq, Repr

/-- What a start from cold still waits for (R408). -/
inductive Cold where
  | no | due | rising
deriving DecidableEq, Repr

/-- The power sequencer beside its registers (R345–R365). -/
structure Pwr where
  buck : Buck := .off
  hfxo : Bool := false
  pllS : Bool := false
  pllM : Bool := false
  drop : Option DropSeq := .none
  /-- The domain whose power-up has begun; MET has a sequence of its own (R346). -/
  up : Option Dom := .none
  /-- A request accepted while a domain sequence ran, which starts when that ends (R352). -/
  pend : Option PState := .none
  entry : Option Entry := .none
  /-- A return to RUN_NORMAL is under way: after a wake (`true`) or a command. -/
  waking : Option Bool := .none
  /-- The wake under way has its record: a later request does not act (R368). -/
  wakeOpen : Bool := false
  /-- UPTIME in the LFXO period of the last record, whose other sources join it (R368). -/
  wakeAt : Option Nat := .none
  /-- The RUN point a command still has to reach (R353). -/
  owed : Option PState := .none
  /-- The RUN point IDLE came from (R355). -/
  idleFrom : PState := .runNormal
  /-- The RUN point a change of body bias leads to (R363). -/
  bias : Option PState := .none
  cold : Cold := .due
  /-- The start under way follows a wake from OFF (R368), or a brown-out (R365). -/
  coldWake : Bool := false
  coldBor : Bool := false
  /-- The move to VBAT was made in SLEEP, DEEP, WATCH or OFF (R370). -/
  vbatLow : Bool := false
  /-- UPTIME when MET dropped (R58). -/
  metOff : Nat := 0
  /-- The WAKE ball is accepted as active (R369). -/
  pin : Bool := false
  /-- An I2C wake stretch is held (R372). -/
  stretch : Bool := false
  /-- UPTIME when that stretch began. -/
  stretchAt : Nat := 0
deriving DecidableEq, Repr

/-- The WATCH sequencer beside its registers (R375–R381). -/
structure Watch where
  /-- The check image: register addresses and words (R376). -/
  img : List (Nat × Word) := []
  /-- A check has begun; its pair and its conversion have been started; it converts (R378). -/
  checking : Bool := false
  started : Bool := false
  conv : Bool := false
  /-- SYS runs in check mode (R377). -/
  checkMode : Bool := false
  /-- UPTIME at which the next check begins (R375). -/
  due : Nat := 0
  /-- Another source asked for a wake during the check (R381). -/
  wakeAfter : Bool := false
  /-- The path and the channel of the image (R376). -/
  path : Nat := 0
  chan : Nat := 0
deriving DecidableEq, Repr

/-- A privilege mode (R233, R418): the LC has machine mode only. -/
inductive Priv where
  | user | machine
deriving DecidableEq, Repr

/-- One mcontrol trigger (R405): tdata1 and tdata2. -/
structure Trigger where
  ctl : Word := 0x20000000
  addr : Word := 0
deriving DecidableEq, Repr

/-- A RISC-V core (R232, R233, R418) with its Debug Module (R405). -/
structure Core where
  /-- It is out of reset. -/
  on : Bool := false
  pc : Word := 0
  /-- x0–x31; x0 stays 0. -/
  x : Vector Word 32 := Vector.replicate 32 0
  priv : Priv := .machine
  /-- mstatus.MIE, MPIE, MPP (user or machine), MPRV and TW. -/
  mie : Bool := false
  mpie : Bool := false
  mpp : Priv := .machine
  mprv : Bool := false
  tw : Bool := false
  mtvec : Word := 0
  /-- mie.MEIE. -/
  meie : Bool := false
  mepc : Word := 0
  mcause : Word := 0
  mtval : Word := 0
  mscratch : Word := 0
  mcounteren : Word := 0
  mcountinhibit : Word := 0
  mcycle : Nat := 0
  minstret : Nat := 0
  pmpcfg : Vector Byte 16 := Vector.replicate 16 0
  pmpaddr : Vector Word 16 := Vector.replicate 16 0
  /-- The reservation of an LR.W: the key of its SRAM word. -/
  resv : Option Nat := .none
  /-- It waits in WFI. -/
  wfi : Bool := false
  /-- Debug Mode, and dcsr, dpc and dscratch0. -/
  halted : Bool := false
  dcsr : Word := 0x40000003
  dpc : Word := 0
  dscratch0 : Word := 0
  tselect : Nat := 0
  trig : Vector Trigger 4 := Vector.replicate 4 {}
  /-- The Debug Module: data0, the program buffer, cmderr, havereset. -/
  data0 : Word := 0
  progbuf : Vector Word 2 := Vector.replicate 2 0
  cmderr : Nat := 0
  havereset : Bool := true
deriving DecidableEq, Repr

/-- How one word of the host port goes: performed, failed with a code of R383, or held (R388). -/
inductive HostStep where
  | ok (v : Nat) | fail (code : Nat) | held
deriving DecidableEq, Repr

/-- The host transaction in progress (R383, R384, R388, R394). -/
structure HostTx where
  i2c : Bool
  /-- Host address of the next word. -/
  addr : Nat
  /-- Code and address of the failing word that is lowest in address order. -/
  fail : Option (Nat × Nat) := .none
  /-- Port B came second in a collision: DPM_BUSY is asserted until the transaction ends (R201). -/
  coll : Bool := false
  limit : Bool := false
  /-- The read word that has been started and not yet driven. -/
  next : Option HostStep := .none
  /-- The write word that a quiesce holds. -/
  held : Option Word := .none
  /-- Behind a held word of I2CT: the words still to write, how many are still to read. -/
  rest : List Word := []
  n : Nat := 0
  /-- The transaction has ended on its pins, inside a word or not. -/
  closed : Bool := false
  part : Bool := false
deriving DecidableEq, Repr

/-- The host port beside its registers (R382–R396). -/
structure HostPort where
  /-- Result, DPM_BUSY and AT_LIMIT of the last HSPI frame, as the next frame's status shows them (R387). -/
  result : Nat := 0
  busy : Bool := false
  limit : Bool := false
  tx : Option HostTx := .none
deriving DecidableEq, Repr

/-- An HSPI DMA copy in progress (R392), its settings as taken at GO. -/
structure HostDma where
  dpm : Nat
  bank : Nat
  word : Nat
  len : Nat
  /-- From the S bank to the DPM. -/
  toDpm : Bool
deriving DecidableEq, Repr

/-- A direct MSPI transfer in progress (R401): it reads, and how many bytes. -/
structure DirXfer where
  read : Bool
  len : Nat
deriving DecidableEq, Repr

/-- The UART beside its registers (R402, R403): the FIFOs, oldest first, and the byte being sent. -/
structure Uart where
  rx : List Byte := []
  tx : List Byte := []
  out : Option Byte := .none
  /-- That byte is the last of the transmit DMA. -/
  last : Bool := false
  /-- The quiesce of PER has stopped the transfers (R356). -/
  stop : Bool := false
deriving DecidableEq, Repr

/-- The host ports beside their registers. -/
structure Ports where
  host : HostPort := {}
  dma : Option HostDma := .none
  dir : Option DirXfer := .none
  uart : Uart := {}
  /-- The JTAG instruction in force (R404). -/
  ir : BitVec 5 := 1
deriving DecidableEq, Repr

/-- The one-time-programmable fuses (R235, R256, R340, R424): what is burnt.  Unburnt words read 0. -/
structure Otp where
  /-- The lifecycle burnt; it takes effect at the next reset. -/
  lifecycle : Lifecycle := .blank
  devId : Nat := 0
  custHash : Nat := 0
  /-- A burn of the field has failed; it cannot be burnt again (R424). -/
  devIdFailed : Bool := false
  custHashFailed : Bool := false
  /-- The lifecycle targets whose burn has failed (R424). -/
  lifeFailed : List Lifecycle := []
  /-- The digest slots used, in slot order (R235): digest and slot number. -/
  digests : List (Nat × Nat) := []
  /-- Burnt bits of the AON reset thermometer (R340). -/
  aonResets : Nat := 0
  /-- RTC compensation: offset, curvature, turnover, points (R256). -/
  compOfs : Nat := 0
  compK : Nat := 0
  compT0 : Nat := 0
  compPts : List (Nat × Nat) := []
  /-- Redundant columns in use, by bank (R197). -/
  repair : List Nat := []
  /-- A word that never reads the same twice (R410). -/
  bad : Bool := false
deriving DecidableEq, Repr

/-- A burn in progress (R424). -/
inductive ProgOp where
  | devId (v : Nat) | custHash (v : Nat) | lifecycle (l : Lifecycle)
deriving DecidableEq, Repr

/-- The host loader while it runs (R421, R422). -/
structure Loader where
  /-- It serves without the limits of R422 (R426). -/
  endless : Bool
  /-- SEQ of the last command served. -/
  seq : Option Nat := .none
  /-- It runs inside APP_BOOT, which checks the image when it ends (R417). -/
  thenBoot : Bool := false
  /-- An LFL sector has been programmed. -/
  lflProg : Bool := false
deriving DecidableEq, Repr

/-- A flash command in progress: its page or sector and what it programs (R234, R420). -/
inductive FlashOp where
  | prog (page : Nat) (bytes : List Byte)
  | eraseSector (page : Nat)
  | eraseAll
deriving DecidableEq, Repr

/-- What the boot ROM has found: a retired device, a legal image to be run, or a check that failed with `code` (R237,
R425, R426). -/
inductive BootFind where
  | retired
  | image
  | failed (code : Nat)
deriving DecidableEq, Repr

/-- How far the boot ROM is: before its first step, waiting for the domains whose RWU fields it writes (R413), or waiting
for those it raised to be off again before the hand-over (R411). -/
inductive BootPhase where
  | start
  | writing (found : BootFind)
  | leaving
deriving DecidableEq, Repr

/-- Start-up state beside its registers. -/
structure Boot where
  /-- The boot ROM runs: from the start of the LC to the hand-over (R409). -/
  rom : Bool := false
  phase : BootPhase := .start
  /-- The first start after an AON reset is still due (R256, R340). -/
  firstAon : Bool := true
  /-- A legal image has started since the last reset of the chip (R337). -/
  started : Bool := false
  /-- APP_BOOT has not been called since the cold start (R417). -/
  firstCall : Bool := true
  loader : Option Loader := .none
  /-- No legal image runs, and the boot ROM has still to run APP_BOOT itself (R426). -/
  appDue : Bool := false
  prog : Option ProgOp := .none
  afl : Option FlashOp := .none
  lfl : Option FlashOp := .none
  /-- A digest burn in progress: the digest (R235). -/
  digest : Option Nat := .none
  /-- SHA-256 that the boot ROM last computed over LFL (R235). -/
  lflSha : Nat := 0
deriving DecidableEq, Repr

/-- The device: everything the manual gives it. -/
structure Dev where
  /-- Every register of the pages, by address; unlisted: its reset value (R15). -/
  regs : SMap Word := []
  /-- The answer of the last access (the model's output). -/
  bus : BusResp := .none
  /-- Capture registers of the LC, the AC and the host port (R16). -/
  caps : Vector Captures 3 := Vector.replicate 3 {}
  /-- The model's own counter of free values (`Config.free`). -/
  free : Nat := 0
  /-- Events raised by the command in hand, before they are settled; empty between commands (R30). -/
  edges : List Nat := []
  /-- Mains Angle Engine. -/
  mae : Mae := {}
  /-- Memories. -/
  mem : Mem := {}
  /-- Power sequencer. -/
  pwr : Pwr := {}
  /-- WATCH sequencer. -/
  watch : Watch := {}
  /-- Start-up. -/
  boot : Boot := {}
  /-- Fuses. -/
  otp : Otp := {}
  /-- HERD state store. -/
  herd : Herd := {}
  /-- Ultrasonic front end. -/
  ufe : Ufe := {}
  /-- Flow. -/
  flow : Flow := {}
  /-- Thermal guard, by outlet. -/
  therm : Vector Outlet 4 := Vector.replicate 4 {}
  /-- RTD converter. -/
  rtd : Rtd := {}
  /-- Metrology front end. -/
  fe : Fe := {}
  /-- Metrology quantities. -/
  qty : Qty := {}
  /-- Energy remainders. -/
  rem : Remainders := {}
  /-- Pulse outputs. -/
  pulses : Vector PulseOut 2 := Vector.replicate 2 {}
  /-- MULE. -/
  mule : Mule := {}
  /-- Lamp diagnosis. -/
  lamp : Lamps := {}
  /-- Crypto engine. -/
  crypto : Crypto := {}
  /-- The key-wrapping key, in AON; STAT.KWK_OK tells whether there is one. -/
  kwk : Nat := 0
  /-- Mailbox channels. -/
  mbx : Vector Mbx 2 := Vector.replicate 2 {}
  /-- Calendar clock. -/
  rtc : Rtc := {}
  /-- Tariff tables. -/
  tariff : Tariff := {}
  /-- Session and record state of BILL. -/
  bill : Bill := {}
  /-- Keypad entries. -/
  prepay : Prepay := {}
  /-- The keypad lock. -/
  lockout : Lockout := {}
  /-- Display and keypad. -/
  panel : Panel := {}
  /-- Tamper detection. -/
  gander : Gander := {}
  /-- The legal core. -/
  lc : Core := {}
  /-- The application core. -/
  ac : Core := {}
  /-- Host ports. -/
  ports : Ports := {}
deriving DecidableEq, Repr

/-- The block: the device and the commands that wait for it, first in, first out. -/
structure State where
  dev : Dev
  pending : List Instr
deriving DecidableEq, Repr

/-- Why a command would stop the block.  Nothing in the manual stops it: the list is empty, so no command faults. -/
inductive Fault where
deriving DecidableEq, Repr

/-- Why a command is refused.  `notModelled` names a command without a meaning; Machine/Dispatch.lean alone would answer
with it (safe: nothing follows from a refusal). -/
inductive Refusal where
  | notModelled (mnemonic : String)
deriving DecidableEq, Repr

/-- The device as a power-on reset leaves it (R407, R408): only AON is supplied, the memories have lost their contents,
RST_CAUSE reads 0x01, and the cold start is due. -/
def Dev.reset : Dev :=
  { regs := [(Reg.SYSCTL_RST_CAUSE, 1)]
    mem := { undef := (List.range 23).map fun b => (b, 0) }
    free := 1 }

/-- The block right after a power-on reset, with no command waiting. -/
def State.reset : State := { dev := Dev.reset, pending := [] }

end Sys2Proof.Machine
end

