-- ==== Sys2Proof/Machine/Ops.lean ====
section
/-! DEFINITION. The named operations over registers, domains, events and time that every meaning uses. -/

namespace Sys2Proof.Machine

/-! ### Registers -/

/-- The value a register holds. -/
def Dev.rd (d : Dev) (a : Nat) : Nat := (d.regs.get regReset a).toNat

/-- The device with the low 32 bits of `v` in the register at `a`. -/
def Dev.wr (d : Dev) (a v : Nat) : Dev := { d with regs := d.regs.set regReset a (BitVec.ofNat 32 v) }

/-- The value of a field. -/
def Dev.f (d : Dev) (f : Field) : Nat := bits (d.rd f.reg) f.lo f.width

/-- Whether a field is not 0. -/
def Dev.on (d : Dev) (f : Field) : Bool := d.f f != 0

/-- The device with `v` in a field (its low bits). -/
def Dev.setF (d : Dev) (f : Field) (v : Nat) : Dev := d.wr f.reg (setBits (d.rd f.reg) f.lo f.width v)

def Dev.setB (d : Dev) (f : Field) (b : Bool) : Dev := d.setF f (b2n b)

/-- One more in a field that saturates. -/
def Dev.incF (d : Dev) (f : Field) : Dev := d.setF f (satInc f.width (d.f f))

/-- One more in a counter register that saturates at 32 bits. -/
def Dev.inc (d : Dev) (a : Nat) : Dev := d.wr a (satInc 32 (d.rd a))

/-- One more in a counter register that wraps. -/
def Dev.incWrap (d : Dev) (a : Nat) : Dev := d.wr a (d.rd a + 1)

/-- The device with a list of register values written. -/
def Dev.wrs (d : Dev) (l : List (Nat × Nat)) : Dev := l.foldl (fun d p => d.wr p.1 p.2) d

/-- A fresh free value (a value the manual leaves undefined). -/
def Dev.fresh (d : Dev) : Word × Dev := (Config.free d.free, { d with free := d.free + 1 })

/-- `v` as an unsigned field of `w` bits; a free value where it falls outside the format and the manual states none. -/
def Dev.fitU (d : Dev) (w v : Nat) : Nat × Dev :=
  if v < 2 ^ w then (v, d) else (d.fresh.1.toNat % 2 ^ w, d.fresh.2)

/-- `v` as a signed field of `w` bits, likewise. -/
def Dev.fitS (d : Dev) (w : Nat) (v : Int) : Nat × Dev :=
  if -(2 ^ (w - 1)) ≤ v && v < 2 ^ (w - 1) then (unsgn w v, d) else (d.fresh.1.toNat % 2 ^ w, d.fresh.2)

/-- Writes `v` into the register at `a` as an unsigned or a signed field of `w` bits (see `fitU`, `fitS`). -/
def Dev.wrU (d : Dev) (a w v : Nat) : Dev := (d.fitU w v).2.wr a (d.fitU w v).1

def Dev.wrS (d : Dev) (a w : Nat) (v : Int) : Dev := (d.fitS w v).2.wr a (d.fitS w v).1

/-! ### Domains (R345, R351) -/

def Dev.domField (x : Dom) : Field := ⟨Reg.PWR_DOM_STAT, 2 * x.num, 2⟩

/-- DOM_STAT of a domain: 0 off, 1 retained, 2 isolated, 3 on. -/
def Dev.domStat (d : Dev) (x : Dom) : Nat := d.f (Dev.domField x)

def Dev.domOn (d : Dev) (x : Dom) : Bool := x == .aon || d.domStat x == 3

def Dev.setDom (d : Dev) (x : Dom) (v : Nat) : Dev := d.setF (Dev.domField x) v

/-- R345: the parent of a domain. -/
def Dom.parent : Dom → Dom
  | .aon | .sys | .met | .ufa => .aon
  | .lgl | .app | .sha | .shb | .ufd | .per => .sys

def PState.code : PState → Nat
  | .runNormal => 1 | .runHigh => 2 | .idle => 3 | .sleep => 4 | .deep => 5 | .off => 6 | .watch => 7

def PState.ofCode : Nat → Option PState
  | 1 => some .runNormal | 2 => some .runHigh | 3 => some .idle | 4 => some .sleep | 5 => some .deep
  | 6 => some .off | 7 => some .watch | _ => none

/-- The chip state shown in PWR.STATE.CUR (R351). -/
def Dev.cur (d : Dev) : PState := (PState.ofCode (d.f Fld.PWR_STATE_CUR)).getD .runNormal

/-- The chip is at a RUN point. -/
def Dev.running (d : Dev) : Bool := d.cur == .runNormal || d.cur == .runHigh

/-! ### Lifecycle (R423) -/

/-- FUSE.LIFECYCLE.STATE. -/
def Dev.lifecycle (d : Dev) : Lifecycle :=
  match d.f Fld.FUSE_LIFECYCLE_STATE with
  | 0 => .blank | 1 => .provisioned | 2 => .sealed | 3 => .unsealed | _ => .retired

def Dev.unsealed (d : Dev) : Bool := d.lifecycle == .unsealed

/-! ### Events (R30) -/

/-- Event number `e` rises; it is settled when the command's effect is complete. -/
def Dev.raise (d : Dev) (e : Nat) : Dev := { d with edges := d.edges ++ [e] }

/-- `d.raise e` where `c` holds. -/
def Dev.raiseIf (d : Dev) (c : Bool) (e : Nat) : Dev := if c then d.raise e else d

/-- The page and the header bit of an event number (R29). -/
def eventPlace (e : Nat) : Option (Page × Nat) :=
  Page.all.findSome? fun p =>
    match p.events with
    | some (b, n) => if b ≤ e && e < b + n then some (p, e - b) else none
    | none => none

/-- The EVT_RAW bit of an event. -/
def eventRaw (e : Nat) : Field :=
  match eventPlace e with
  | some (p, k) => ⟨Reg.EVT_RAW p, k, 1⟩
  | none => ⟨0, 0, 0⟩

/-- An event that follows a condition takes level `b`; its rise is an edge. -/
def Dev.level (d : Dev) (e : Nat) (b : Bool) : Dev :=
  (d.setB (eventRaw e) b).raiseIf (b && !d.on (eventRaw e)) e

/-! ### Time -/

/-- The angle of the MAE (R32: bits 39:24 of the accumulator). -/
def Mae.angle (m : Mae) : Nat := m.acc / 2 ^ 24 % 65536

/-- The sample tick the angle stands in. -/
def Mae.tick (m : Mae) : Nat := m.angle / 256

/-- R36: the signed difference of two cycle counts. -/
def cycDiff (a b : Word) : Int := (a - b).toInt

/-- R337: whether the boot ROM runs or no legal image runs; one that had started before LGL dropped counts as running. -/
def Dev.bootFlag (d : Dev) : Bool :=
  d.boot.rom || (if d.domOn .lgl then d.f Fld.SYSCTL_BOOT_STAT_STAGE != 1 else !d.boot.started)

/-- R337: the calendar as a record holds it, low word. -/
def Dev.stampLo (d : Dev) : Nat := d.rd Reg.RTC_TIME_LO

/-- R337: the calendar as a record holds it, high word with the flags BOOT and VBAT. -/
def Dev.stampHi (d : Dev) : Nat :=
  bits (d.rd Reg.RTC_TIME_HI) 0 27 + b2n d.bootFlag * 2 ^ 27 + b2n (d.on Fld.PWR_SUPPLY_VBAT_ACTIVE) * 2 ^ 28

/-- UPTIME (R267), 48 bits of LFXO periods. -/
def Dev.uptime (d : Dev) : Nat := d.rd Reg.RTC_UPTIME_LO + bits (d.rd Reg.RTC_UPTIME_HI) 0 16 * 2 ^ 32

/-- The periods of the second in progress that have passed: at least those known to have, else free. -/
def Dev.subNow (d : Dev) : Nat × Dev :=
  let v := d.rtc.sub + d.fresh.1.toNat % max 1 (d.rtc.len - d.rtc.sub)
  (v, { d.fresh.2 with rtc.sub := v })

/-- UPTIME now, in LFXO periods (R267). -/
def Dev.uptimeNow (d : Dev) : Nat × Dev := ((d.uptime + d.subNow.1) % 2 ^ 48, d.subNow.2)

/-! ### Resets of register pages (R15, R358) -/

/-- How far a reset of a domain reaches: a drop or a reset that spares the retention flops, or a loss of them. -/
inductive ResetKind where
  | drop | lose
deriving DecidableEq, Repr

/-- R358: the FLOW volume registers, held in retention flops. -/
def isVolReg (a : Nat) : Bool := (List.range 4).any fun n => a == Reg.FLOW_VOL_LO n || a == Reg.FLOW_VOL_HI n

/-- The bits of the register at `a` that a reset leaves. -/
def keepMask (k : ResetKind) (a : Nat) : Nat :=
  if k == .drop && isVolReg a then 2 ^ 32 - 1
  else fieldMask (fun f => f.kept != .no || (k == .drop && f.ty == .rwu)) (fieldsOf a)

/-- The domain a register's page stands in. -/
def regDom (a : Nat) : Option Dom := (regPlace a).map fun p => p.1.dom

/-- The registers of the domains `xs` at their reset values, but for what the reset leaves. -/
def Dev.resetRegs (d : Dev) (k : ResetKind) (xs : List Dom) : Dev :=
  { d with regs := d.regs.update regReset fun a w =>
      match regDom a with
      | some x =>
        if xs.contains x then
          let m : Word := BitVec.ofNat 32 (keepMask k a)
          (w &&& m) ||| (regReset a &&& ~~~m)
        else w
      | none => w }

end Sys2Proof.Machine
end

