-- ==== Sys2Proof/Machine/Power.lean ====
section
/-! DEFINITION. What keeps domains on, state requests, wake requests and their record, and the check image (R345–R355,
R366–R368, R376).  The steps of drops and power-ups stand in PowerSeq.lean. -/

namespace Sys2Proof.Machine

/-! ### Votes and need -/

/-- The vote slots set on a domain (R347); AON has none. -/
def Dev.slots (d : Dev) (x : Dom) : Nat := if x == .aon then 0 else d.f (Fld.PWR_VOTE_SLOTS x.num)

def Dev.setSlots (d : Dev) (x : Dom) (v : Nat) : Dev := if x == .aon then d else d.setF (Fld.PWR_VOTE_SLOTS x.num) v

/-- Sets or clears slot `s` of domain `x` by hardware. -/
def Dev.hwSlot (d : Dev) (x : Dom) (s : Nat) (b : Bool) : Dev := d.setSlots x (setBits (d.slots x) s 1 (b2n b))

/-- R351: the domains a state allows on. -/
def PState.allows : PState → Dom → Bool
  | .runNormal, _ | .runHigh, _ | .idle, _ => true
  | .sleep, x => x == .aon || x == .sys || x == .lgl || x == .sha || x == .shb || x == .met || x == .per
  | .deep, x | .off, x | .watch, x => x == .aon

/-- R351: the states that hold SYS and MET on. -/
def PState.holds : PState → Bool
  | .runNormal | .runHigh | .idle | .sleep => true
  | _ => false

/-- R345 for a domain without children: a vote, or the state, or the check island of WATCH (R378). -/
def Dev.needsSelf (d : Dev) (x : Dom) : Bool :=
  d.slots x != 0
  || ((d.cur.holds || d.pwr.waking.isSome || d.pwr.cold == .rising) && (x == .sys || x == .met))
  || (d.watch.checking && (x == .ufa || x == .sys || x == .ufd))

/-- R345: whether something needs the domain. -/
def Dev.needs (d : Dev) (x : Dom) : Bool :=
  x == .aon || d.needsSelf x || (x == .sys && Dom.all.any fun c => c.parent == .sys && d.needsSelf c)

/-- What is to be on: the need, but for the domains that an entry in progress is to drop (R353). -/
def Dev.wanted (d : Dev) (x : Dom) : Bool :=
  match d.pwr.entry with
  | some e => e.target.allows x && d.needs x
  | none => d.needs x

/-! ### Aborts and the end of an entry -/

def Dev.clearRequest (d : Dev) : Dev := (d.setF Fld.PWR_STATE_TARGET 0).setF Fld.PWR_STATE_BUSY 0

/-- R356: the drop in progress is undone. -/
def Dev.abortDrop (d : Dev) : Dev :=
  match d.pwr.drop with
  | some q =>
    let d := { d with pwr.drop := none }
    (((d.setF Fld.PWR_SEQ_DOM 0).setF Fld.PWR_SEQ_STEP 0).incF (Fld.PWR_DOM_CNT_ABORTS q.dom.num)).raise Ev.PWR_DROP_ABORTED
  | none => d

/-- R353, before step 3: the entry is given up, the state unchanged, the hardware votes stand again. -/
def Dev.abortEntry (d : Dev) : Dev :=
  let d := { d with pwr.entry := none }
  let d := d.clearRequest
  match d.pwr.drop with
  | some q => if d.wanted q.dom && !q.decided then d.abortDrop else d.raise Ev.PWR_DROP_ABORTED
  | none => d.raise Ev.PWR_DROP_ABORTED

/-- Entering state `t` at once: CUR and STATE_CHG. -/
def Dev.enter (d : Dev) (t : PState) : Dev := (d.setF Fld.PWR_STATE_CUR t.code).raise Ev.PWR_STATE_CHG

/-- R355: IDLE is left for the RUN point it came from. -/
def Dev.leaveIdle (d : Dev) : Dev := d.enter (if d.pwr.idleFrom == .runHigh then .runHigh else .runNormal)

/-! ### Wake requests (R366–R368) -/

/-- R366: whether source code `c` is enabled. -/
def Dev.wakeEnabled (d : Dev) (c : Nat) : Bool := c == 3 || bit (d.f Fld.ROOSTER_SRC_EN_EN) (c - 1)

/-- R368: the record of the sources `cs` (not empty) that acted, with the state code `from_`. -/
def Dev.recordWake (d : Dev) (cs : List Nat) (from_ : Nat) : Dev :=
  let d := d.wr Reg.ROOSTER_WAKE_PEND (d.rd Reg.ROOSTER_WAKE_PEND ||| maskOf (cs.map (· - 1)))
  let d := d.wr Reg.ROOSTER_WAKE_SRC (cs.foldl min 15 + 16 * from_)
  let d := (d.wr Reg.ROOSTER_WAKE_TIME_LO d.stampLo).wr Reg.ROOSTER_WAKE_TIME_HI d.stampHi
  let now := d.uptimeNow
  { now.2.inc Reg.ROOSTER_WAKE_CNT with pwr.wakeOpen := true, pwr.wakeAt := some now.1 }

/-- R368: a source of the period in which the recorded request acted. -/
def Dev.joinWake (d : Dev) (cs : List Nat) : Dev :=
  let d := d.wr Reg.ROOSTER_WAKE_PEND (d.rd Reg.ROOSTER_WAKE_PEND ||| maskOf (cs.map (· - 1)))
  d.setF Fld.ROOSTER_WAKE_SRC_SRC (cs.foldl min (d.f Fld.ROOSTER_WAKE_SRC_SRC))

/-- R356: a drop before its decision is undone once its domain is needed again; after it the need is remembered. -/
def Dev.dropCheck (d : Dev) : Dev :=
  match d.pwr.drop with
  | some q =>
    if !d.wanted q.dom then d
    else if q.decided then { d with pwr.drop := some { q with again := true } }
    else d.abortDrop
  | none => d

/-- R354: the return to RUN_NORMAL begins, with slot 5 on the wake domains. -/
def Dev.startWake (d : Dev) : Dev :=
  let d := { d with pwr.waking := some true }
  (Dom.all.foldl (fun d x => if x != .aon && bit (d.rd Reg.PWR_WAKE_CFG) x.num then d.hwSlot x 5 true else d) d).dropCheck

/-- R354: a wake from OFF calls for a cold start. -/
def Dev.startColdWake (d : Dev) : Dev := { d with pwr.cold := .due, pwr.coldWake := true }

/-- The wake that is recorded is complete. -/
def Dev.wakeShut (d : Dev) : Dev := { d with pwr.wakeOpen := false }

/-- R354: IDLE ends, where the chip is in it. -/
def Dev.idleOver (d : Dev) : Dev := if d.cur == .idle then d.leaveIdle else d

/-- R367: whether a wake request acts now: where the state has a way back, and no request is recorded for it yet. -/
def Dev.wakeActs (d : Dev) : Bool :=
  match d.pwr.entry with
  | some e => !(e.passed && d.pwr.wakeOpen)
  | none =>
    !d.pwr.wakeOpen && match d.cur with
      | .runNormal | .runHigh => false
      | .idle | .sleep => d.pwr.cold != .rising
      | .deep | .watch => d.pwr.cold == .no
      | .off => d.pwr.cold == .no || (d.pwr.cold == .due && d.pwr.coldWake)

/-- R367, R353: a request of the enabled sources `cs` acts. -/
def Dev.wakeAct (d : Dev) (cs : List Nat) : Dev :=
  match d.pwr.entry with
  | some e =>
    if e.passed then { d.recordWake cs e.target.code with pwr.entry := some { e with rewake := true } }
    else
      let frm := if d.cur == .idle then d.pwr.idleFrom.code else d.cur.code
      (d.recordWake cs frm).wakeShut.abortEntry.idleOver.raise Ev.ROOSTER_WOKE
  | none =>
    let e := d.recordWake cs d.cur.code
    match d.cur with
    | .runNormal | .runHigh => d
    | .idle => (e.wakeShut.leaveIdle).raise Ev.ROOSTER_WOKE
    | .sleep | .deep => e.startWake
    | .off => e.startColdWake
    | .watch => if d.watch.checking then { e with watch.wakeAfter := true } else e.startWake

/-- R368: whether this is still the LFXO period of the last record. -/
def Dev.wakePeriod (d : Dev) : Bool × Dev :=
  match d.pwr.wakeAt with
  | none => (false, d)
  | some t => (d.uptimeNow.1 == t, d.uptimeNow.2)

/-- R367, R368: the enabled sources among `cs` request a wake; where the request cannot act, sources of the LFXO period of
the last record join it. -/
def Dev.wakeRequest (d : Dev) (cs : List Nat) : Dev :=
  let cs := cs.filter d.wakeEnabled
  if cs.isEmpty then d
  else if d.wakeActs then d.wakeAct cs
  else match d.wakePeriod with
    | (true, d) => d.joinWake cs
    | (false, d) => d

/-- R369: the WAKE ball requests while it is accepted as active. -/
def Dev.pinRequest (d : Dev) : Dev := if d.pwr.pin then d.wakeRequest [1] else d

/-! ### State requests (R352, R353) -/

/-- The RWU bits of the register at `a`: a check image leaves them (R358, R376). -/
def rwuMask (a : Nat) : Nat := fieldMask (fun f => f.ty == .rwu) (fieldsOf a)

/-- The registers a check image holds, for path `n`, shot set `s` and RTD channel `m` (R376). -/
def imageRegs (n s m : Nat) : List Nat :=
  [Reg.UFE_DRV_PATH_CFG n, Reg.UFE_DRV_DRV_THR, Reg.UFE_DRV_SET_DRV s,
   Reg.UFE_RX_PATH_GAIN n, Reg.UFE_RX_AGC_CFG, Reg.UFE_RX_SET_RX s, Reg.UFE_RX_SET_HIT s,
   Reg.UFE_TOF_SET_WIN s, Reg.UFE_TOF_SET_CAP s, Reg.UFE_TOF_SET_GAP s, Reg.UFE_TOF_CORR_CFG,
   Reg.FLOW_GEOM_X n, Reg.FLOW_DT0 n, Reg.FLOW_AREA n, Reg.FLOW_EMPTY n, Reg.FLOW_NPTS n, Reg.FLOW_FLOW_CFG]
  ++ ((List.range 16).flatMap fun j => [Reg.FLOW_KF_Q n j, Reg.FLOW_KF_K n j])
  ++ [Reg.RTD_RTD_CFG m]

/-- R376: the capture of the check image, while UFA and UFD are both on. -/
def Dev.watchCapture (d : Dev) : Dev :=
  if d.domOn .ufa && d.domOn .ufd then
    let n := d.f Fld.WATCH_CTRL_PATH
    let m := d.f Fld.WATCH_CTRL_RTD_CH
    let img := (imageRegs n (d.f Fld.WATCH_CTRL_SET) m).map fun a => (a, BitVec.ofNat 32 (d.rd a - (d.rd a &&& rwuMask a)))
    (({ d with watch.img := img, watch.path := n, watch.chan := m }).setF Fld.WATCH_STAT_IMG_VALID 1).raise
      Ev.WATCH_CAPTURED
  else d

/-- R352: a request is refused with a reason. -/
def Dev.cmdReject (d : Dev) (reason dom : Nat) : Dev :=
  ((d.setF Fld.PWR_STATE_REASON reason).setF Fld.PWR_STATE_REJ_DOM dom).raise Ev.PWR_CMD_REJ

/-- R352 VOTED: the lowest domain that the target does not allow and on which a slot 0, 1, 2 or 8–15 is set. -/
def Dev.votedDom (d : Dev) (t : PState) : Option Dom :=
  Dom.all.find? fun x => !t.allows x && (d.slots x &&& 0xFF07) != 0

/-- R363: the change of body bias to RUN point `t` begins, unless the chip is there. -/
def Dev.runTo (d : Dev) (t : PState) : Dev :=
  if d.cur == t then d.clearRequest
  else ({ d with pwr.bias := some t }.setF Fld.PWR_STATE_TARGET t.code).setF Fld.PWR_STATE_BUSY 1

/-- R353: an entry ends when every domain the target does not allow is off: the rail changes, the hardware votes are
withdrawn, the state is entered, and a wake that came too late acts at once. -/
def Dev.entryTryComplete (d : Dev) : Dev :=
  match d.pwr.entry with
  | none => d
  | some e =>
    if d.pwr.drop.isSome || Dom.all.any (fun x => !e.target.allows x && d.domStat x ≥ 2 && x != .aon) then d
    else
      let d := Dom.all.foldl
        (fun d x => if e.target.allows x then d else d.setSlots x (d.slots x &&& 0xFFC7)) d
      let d := { d with pwr.entry := none }
      let d := d.clearRequest.enter e.target
      let d := match e.target with
        | .sleep => { d with pwr.buck := .low, pwr.pllS := false }
        | .deep => { d with pwr.buck := .retention, pwr.hfxo := false, pwr.pllS := false, pwr.pllM := false }.inc
            Reg.PWR_DEEP_CNT
        | .watch =>
          let due := (d.uptimeNow.1 + min 3600 (max 1 (d.f Fld.WATCH_PERIOD_S)) * 32768) % 2 ^ 48
          (({ d.uptimeNow.2 with pwr.buck := .retention, pwr.hfxo := false, pwr.pllS := false, pwr.pllM := false,
                                   watch.due := due } : Dev).setF Fld.WATCH_STAT_RUN_C 0).setF Fld.WATCH_STAT_RUN_T 0
        | _ =>
          let d := { d with pwr.buck := .off, pwr.hfxo := false, pwr.pllS := false, pwr.pllM := false }
          let d := d.setF Fld.PWR_SAVE_STAT_VALID 0
          d.resetRegs .lose (Dom.all.filter (· != .aon))
      if e.rewake then
        let d := (d.setF Fld.PWR_SEQ_DOM 15).raise Ev.PWR_DROP_REWAKE
        if e.target == .off then d.startColdWake else d.startWake
      else d

/-- A CMD for RUN point `t` at work: from IDLE and from SLEEP by the way back that they have (R354, R355), else by a
change of body bias (R363). -/
def Dev.toRun (d : Dev) (t : PState) : Dev :=
  match d.cur with
  | .idle => d.leaveIdle.runTo t
  | .sleep =>
    ({ d with pwr.waking := some false, pwr.owed := some t }.setF Fld.PWR_STATE_TARGET t.code).setF Fld.PWR_STATE_BUSY 1
  | _ => d.runTo t

/-- R352, R353: an accepted request for state `t` starts. -/
def Dev.requestStart (d : Dev) (t : PState) : Dev :=
  match t with
  | .runNormal | .runHigh => d.toRun t
  | .idle =>
    if d.cur == .idle then d.clearRequest else ({ d.clearRequest with pwr.idleFrom := d.cur }.enter .idle).pinRequest
  | _ =>
    let d := if t == .watch then d.watchCapture else d
    let d := { d with pwr.entry := some { target := t } }
    let d := (d.setF Fld.PWR_STATE_TARGET t.code).setF Fld.PWR_STATE_BUSY 1
    if (d.votedDom t).isSome then d.abortEntry else d.pinRequest.entryTryComplete

/-- R352: a domain sequence runs: a drop or a power-up that has begun. -/
def Dev.seqRuns (d : Dev) : Bool := d.pwr.drop.isSome || d.pwr.up.isSome

/-- R352: the request that waits for the end of a domain sequence starts; a wake that has begun meanwhile goes first. -/
def Dev.pendStart (d : Dev) : Dev :=
  match d.pwr.pend with
  | none => d
  | some t =>
    if d.seqRuns || d.pwr.waking.isSome || d.pwr.bias.isSome || d.pwr.cold != .no then d
    else { d with pwr.pend := none }.requestStart t

/-- R352, R353, R375: a request for state code `code`. -/
def Dev.cmdState (d : Dev) (code : Nat) : Dev :=
  match PState.ofCode code with
  | none => d.cmdReject 4 0
  | some t =>
    let toRun := t == .runNormal || t == .runHigh
    match d.pwr.entry, toRun with
    | some e, true =>
      if e.passed then { d with pwr.entry := some { e with rewake := true }, pwr.owed := some t }
      else
        d.abortEntry.toRun t
    | _, _ =>
      if d.pwr.entry.isSome || d.pwr.pend.isSome || d.pwr.waking.isSome || d.pwr.bias.isSome || d.pwr.cold != .no then
        d.cmdReject 1 0
      else match d.votedDom t with
        | some x => d.cmdReject 2 x.num
        | none =>
          if d.on Fld.PWR_SUPPLY_PFW && t != .off then d.cmdReject 3 0
          else if (t == .idle && d.cur == .sleep) || t == d.cur then d.cmdReject 4 0
          else if d.seqRuns then
            ({ d with pwr.pend := some t }.setF Fld.PWR_STATE_TARGET t.code).setF Fld.PWR_STATE_BUSY 1
          else d.requestStart t

/-! ### Vote writes (R348) -/

/-- R347: the slots that a requester may set and clear. -/
def Requester.slotMask : Requester → Nat
  | .lc | .lcDbg | .bootRom => 0x0F01
  | .ac | .acDbg => 0xF002
  | .hspi | .i2ct => 0xF004
  | _ => 0

/-- R354: a vote on a domain SLEEP does not allow acts as a wake request; R353: so does one during an entry; R356: a need
before the decision aborts the drop. -/
def Dev.needArose (d : Dev) (x : Dom) : Dev :=
  match d.pwr.entry with
  | some e =>
    if e.target.allows x then
      d.dropCheck
    else if e.passed then { d with pwr.entry := some { e with rewake := true } }
    else
      let d := d.abortEntry
      if d.cur == .sleep && !PState.sleep.allows x then d.startWake else d
  | none =>
    if d.cur == .sleep && !PState.sleep.allows x && d.pwr.waking.isNone then d.startWake
    else d.dropCheck

/-- R348: a write of VOTE_SET_d. -/
def Dev.voteSet (d : Dev) (r : Requester) (x : Dom) (s : Nat) : Dev :=
  let m := s &&& r.slotMask
  if m == 0 then d
  else (d.setSlots x (d.slots x ||| m)).needArose x

/-- R348: a write of VOTE_CLR_d. -/
def Dev.voteClr (d : Dev) (r : Requester) (x : Dom) (s : Nat) : Dev :=
  let m := s &&& r.slotMask
  d.setSlots x (d.slots x - (d.slots x &&& m))

end Sys2Proof.Machine
end

