-- ==== Sys2Proof/Machine/Flags.lean ====
section
/-! DEFINITION. What the rise of an event does: the pending bit, forwarding, the fault log, the capture units
(R30, R56, R355, R370, R431–R433); the interrupt lines; and the settling of events. -/

namespace Sys2Proof.Machine

/-- The events of page CRYPTO, which stay inside the legal island (R431). -/
def hiddenEvent (e : Nat) : Bool := 270 ≤ e && e ≤ 273

/-- R30: the event's pending bit and its enable bit are both set. -/
def Dev.pendEn (d : Dev) (e : Nat) : Bool :=
  match eventPlace e with
  | some (p, k) => bit (d.rd (Reg.EVT_PEND p)) k && bit (d.rd (Reg.EVT_EN p)) k
  | none => false

/-- R30, R431: whether an event is routed to target `t` (0 LC, 1 AC, 2 HOST, 3 WAKE). -/
def Dev.routed (d : Dev) (e t : Nat) : Bool :=
  match eventPlace e with
  | some (p, _) => bit (d.rd (Reg.EVT_ROUTE p)) t && !(hiddenEvent e && (t == 1 || t == 2))
  | none => false

/-- R432: the lowest-numbered event pending, enabled and routed to target `t`. -/
def Dev.nextEvent (d : Dev) (t : Nat) : Option Nat := (List.range 320).find? fun e => d.pendEn e && d.routed e t

/-- Whether a page forwards anything to target `t`; the same as a `nextEvent`, looked up by page. -/
def Dev.pageForwards (d : Dev) (t : Nat) (p : Page) : Bool :=
  let m := d.rd (Reg.EVT_PEND p) &&& d.rd (Reg.EVT_EN p)
  m != 0 && bit (d.rd (Reg.EVT_ROUTE p)) t && !(p == .crypto && (t == 1 || t == 2))

/-- The interrupt line to target `t`: the OR of the forwarded events (R30, R233, R418). -/
def Dev.line (d : Dev) (t : Nat) : Bool := Page.all.any fun p => d.pageForwards t p

/-- R433: the fault-log entry of event `e`. -/
def Dev.faultLog (d : Dev) (e : Nat) : Dev :=
  if d.domOn .sys && bit (d.rd (Reg.EVTMX_FLT_EN (e / 32))) (e % 32) then
    let n := d.f Fld.EVTMX_FLOG_WR_IDX
    let known := d.mae.running || d.mae.hasRun
    let ovr := d.on (Fld.EVTMX_FLOG_EVT_VALID n)
    let d := d.wr (Reg.EVTMX_FLOG_EVT n)
      (e + 2 ^ 16 + b2n ovr * 2 ^ 17 + b2n (!d.mae.running) * 2 ^ 18 + (if known then d.mae.tick else 0) * 2 ^ 24)
    let d := d.wr (Reg.EVTMX_FLOG_CYC n) (if known then d.mae.cyc.toNat else 0)
    (d.setF Fld.EVTMX_FLOG_WR_IDX (n + 1)).inc Reg.EVTMX_FLOG_CNT
  else d

/-- R56: whether capture unit `n` has missed an edge since it recorded one. -/
def Dev.setMissed (d : Dev) (n : Nat) (b : Bool) : Dev := { d with mae.capMissed := vSet d.mae.capMissed n b }

/-- R56: capture unit `n` records the mains time of an edge of its event. -/
def Dev.captureNow (d : Dev) (n : Nat) : Dev :=
  let d := d.wr (Reg.MAE_CAP_CYC n) d.mae.cyc.toNat
  let d := ((d.setF (Fld.MAE_CAP_ANG_ANG n) d.mae.angle).setF (Fld.MAE_CAP_ANG_STATE n) (d.f Fld.MAE_STATUS_STATE)).setF
    (Fld.MAE_CAP_ANG_FULL n) 1
  (d.setMissed n false).raise (Ev.MAE_CAP n)

/-- R56: capture unit `n` meets an edge of event `e`; the first that it misses sets OVR and raises CAP_OVR. -/
def Dev.capture (d : Dev) (e n : Nat) : Dev :=
  if d.on (Fld.MAE_CAP_SEL_EN n) && d.f (Fld.MAE_CAP_SEL_EVT n) == e then
    if d.on (Fld.MAE_CAP_ANG_FULL n) then
      if vGet d.mae.capMissed n false then d
      else ((d.setF (Fld.MAE_CAP_ANG_OVR n) 1).setMissed n true).raise Ev.MAE_CAP_OVR
    else d.captureNow n
  else d

/-- R30, R370: a pending and enabled event is forwarded: a wake request where it is routed TO_WAKE. -/
def Dev.forward (d : Dev) (e : Nat) : Dev :=
  if d.pendEn e && d.routed e 3 then d.wakeRequest [8] else d

/-- What the rise of event `e` does. -/
def Dev.settleOne (d : Dev) (e : Nat) : Dev :=
  match eventPlace e with
  | none => d
  | some (p, k) =>
    if d.domOn p.dom then
      let d := d.wr (Reg.EVT_PEND p) (d.rd (Reg.EVT_PEND p) ||| 2 ^ k)
      let d := d.faultLog e
      let d := if d.domOn .met then forUpto 4 (fun n d => d.capture e n) d else d
      d.forward e
    else d

/-- `e` put into a rising list without repeats. -/
def insertNat (e : Nat) : List Nat → List Nat
  | [] => [e]
  | x :: t => if e < x then e :: x :: t else if e = x then x :: t else x :: insertNat e t

/-- A list in rising order without repeats. -/
def sortNat (l : List Nat) : List Nat := l.foldr insertNat []

/-- R433: the edges of one step settle in ascending order; what they raise settles after them. -/
def Dev.settleRounds : Nat → Dev → Dev
  | 0, d => { d with edges := [] }
  | n + 1, d =>
    match d.edges with
    | [] => d
    | es => Dev.settleRounds n ((sortNat es).foldl Dev.settleOne { d with edges := [] })

/-- R355: IDLE is left while an enabled pending event is routed TO_LC or TO_AC. -/
def Dev.idleExit (d : Dev) : Dev := if d.cur == .idle && (d.line 0 || d.line 1) then d.leaveIdle else d

/-- Every event of a command settled (at most sixteen rounds: the capture units and the wake record raise no more), and
IDLE left where an event calls for it. -/
def Dev.settle (d : Dev) : Dev :=
  Dev.settleRounds 4 (Dev.settleRounds 16 d).idleExit

/-- What has been raised so far is settled, before time goes on (R30, R56). -/
def Dev.settleNow (d : Dev) : Dev := if d.edges.isEmpty then d else d.settle

end Sys2Proof.Machine
end

