-- ==== Sys2Proof/Machine/Aes.lean ====
section
/-! DEFINITION. AES-128, CMAC (SP 800-38B) and AES key wrap (SP 800-38F), on lists of bytes as numbers (R241). -/

namespace Sys2Proof.Machine

/-- Multiplication by x in GF(2⁸). -/
def xtime (a : Nat) : Nat := if a < 128 then 2 * a else (2 * a - 256) ^^^ 0x1B

/-- The product of the low `n` bits of `b` with `a` in GF(2⁸). -/
def gmulGo : Nat → Nat → Nat → Nat
  | 0, _, _ => 0
  | n + 1, a, b => (if b % 2 == 1 then a else 0) ^^^ gmulGo n (xtime a) (b / 2)

def gmul (a b : Nat) : Nat := gmulGo 8 a b

/-- a to the power 2^n - 1, times `r` raised along with it: with n = 7, r = 1 and squares at the end, a²⁵⁴. -/
def gpow : Nat → Nat → Nat → Nat
  | 0, _, r => r
  | n + 1, a, r => let a2 := gmul a a; gpow n a2 (gmul r a2)

/-- The inverse in GF(2⁸), 0 for 0: a² · a⁴ · … · a¹²⁸ = a²⁵⁴. -/
def ginv (a : Nat) : Nat := gpow 7 a 1

def rotl8 (a n : Nat) : Nat := a * 2 ^ n % 256 + a / 2 ^ (8 - n)

/-- The S-box and its inverse. -/
def sbox (a : Nat) : Nat :=
  let b := ginv a
  b ^^^ rotl8 b 1 ^^^ rotl8 b 2 ^^^ rotl8 b 3 ^^^ rotl8 b 4 ^^^ 0x63

def invSbox (a : Nat) : Nat := ginv (rotl8 a 1 ^^^ rotl8 a 3 ^^^ rotl8 a 6 ^^^ 0x05)

def xorBytes (a b : List Nat) : List Nat := List.zipWith (· ^^^ ·) a b

/-- The next round key, from the one before and the round constant. -/
def nextRoundKey (k : List Nat) (rc : Nat) : List Nat :=
  let t := (k.drop 13 ++ (k.drop 12).take 1).map sbox
  let t := xorBytes t [rc, 0, 0, 0]
  let w0 := xorBytes (k.take 4) t
  let w1 := xorBytes ((k.drop 4).take 4) w0
  let w2 := xorBytes ((k.drop 8).take 4) w1
  w0 ++ w1 ++ w2 ++ xorBytes (k.drop 12) w2

/-- The `n` round keys after `k`. -/
def roundKeys : Nat → List Nat → Nat → List (List Nat)
  | 0, _, _ => []
  | n + 1, k, rc => let k' := nextRoundKey k rc; k' :: roundKeys n k' (xtime rc)

/-- Bytes of a block rearranged: place i takes the byte at `f i`. -/
def permute (f : Nat → Nat) (s : List Nat) : List Nat := (List.range 16).map fun i => (s[f i]?).getD 0

def shiftRows (s : List Nat) : List Nat := permute (fun i => (i + 4 * (i % 4)) % 16) s

def invShiftRows (s : List Nat) : List Nat := permute (fun i => (i + 12 * (i % 4)) % 16) s

/-- Each column multiplied by the circulant matrix with first row `m`. -/
def mixWith (m : List Nat) (s : List Nat) : List Nat :=
  (List.range 16).map fun i =>
    (List.range 4).foldl (fun x j => x ^^^ gmul ((m[(j + 4 - i % 4) % 4]?).getD 0) ((s[i / 4 * 4 + j]?).getD 0)) 0

def mixColumns (s : List Nat) : List Nat := mixWith [2, 3, 1, 1] s

def invMixColumns (s : List Nat) : List Nat := mixWith [14, 11, 13, 9] s

/-- The rounds of encryption; the last one mixes no columns. -/
def encRounds : List (List Nat) → List Nat → List Nat
  | [], s => s
  | [k], s => xorBytes (shiftRows (s.map sbox)) k
  | k :: ks, s => encRounds ks (xorBytes (mixColumns (shiftRows (s.map sbox))) k)

/-- AES-128 encryption of one block. -/
def aesEnc (key blk : List Nat) : List Nat := encRounds (roundKeys 10 key 1) (xorBytes blk key)

/-- The rounds of decryption over the round keys from the last down; the first key is already added. -/
def decRounds : List (List Nat) → List Nat → List Nat
  | [], s => s
  | [k], s => xorBytes ((invShiftRows s).map invSbox) k
  | k :: ks, s => decRounds ks (invMixColumns (xorBytes ((invShiftRows s).map invSbox) k))

/-- AES-128 decryption of one block. -/
def aesDec (key blk : List Nat) : List Nat :=
  match (key :: roundKeys 10 key 1).reverse with
  | k :: ks => decRounds ks (xorBytes blk k)
  | [] => blk

/-- `f` on each block of 16 bytes, `n` of them. -/
def ecb (f : List Nat → List Nat) : Nat → List Nat → List Nat
  | 0, _ => []
  | n + 1, s => f (s.take 16) ++ ecb f n (s.drop 16)

/-! ### CMAC -/

/-- A block doubled in GF(2¹²⁸). -/
def dbl (b : List Nat) : List Nat :=
  let x := b.foldl (fun n y => 256 * n + y) 0
  let y := 2 * x % 2 ^ 128 ^^^ (if 2 ^ 127 ≤ x then 0x87 else 0)
  (beBytes 16 y).map (·.toNat)

/-- CBC-MAC over `n` blocks of 16 bytes. -/
def cbcMac (key : List Nat) : Nat → List Nat → List Nat → List Nat
  | 0, c, _ => c
  | n + 1, c, s => cbcMac key n (aesEnc key (xorBytes c (s.take 16))) (s.drop 16)

/-- The CMAC tag of a message. -/
def cmac (key msg : List Nat) : List Nat :=
  let k1 := dbl (aesEnc key (List.replicate 16 0))
  let n := max 1 (ceilDiv msg.length 16)
  let last := msg.drop (16 * (n - 1))
  let fin := if last.length = 16 then xorBytes last k1
    else xorBytes (last ++ 0x80 :: List.replicate (15 - last.length) 0) (dbl k1)
  aesEnc key (xorBytes (cbcMac key (n - 1) (List.replicate 16 0) msg) fin)

/-! ### Key wrap -/

def wrapIv : List Nat := List.replicate 8 0xA6

/-- The step counter as eight bytes, big-endian. -/
def be8 (t : Nat) : List Nat := (beBytes 8 t).map (·.toNat)

/-- `fuel` wrapping steps from step `t`, over the `n` semiblocks `r`. -/
def wrapSteps (key : List Nat) (n : Nat) : Nat → Nat → List Nat → List (List Nat) → List Nat × List (List Nat)
  | 0, _, a, r => (a, r)
  | f + 1, t, a, r =>
    let i := (t - 1) % n
    let b := aesEnc key (a ++ (r[i]?).getD [])
    wrapSteps key n f (t + 1) (xorBytes (b.take 8) (be8 t)) (r.set i (b.drop 8))

/-- `fuel` unwrapping steps, `fuel` being also the number of the step. -/
def unwrapSteps (key : List Nat) (n : Nat) : Nat → List Nat → List (List Nat) → List Nat × List (List Nat)
  | 0, a, r => (a, r)
  | t + 1, a, r =>
    let i := t % n
    let b := aesDec key (xorBytes a (be8 (t + 1)) ++ (r[i]?).getD [])
    unwrapSteps key n t (b.take 8) (r.set i (b.drop 8))

/-- `n` semiblocks of a byte string. -/
def semiblocks : Nat → List Nat → List (List Nat)
  | 0, _ => []
  | n + 1, s => s.take 8 :: semiblocks n (s.drop 8)

/-- The wrapped form of a key of a whole number of semiblocks. -/
def keyWrap (kek plain : List Nat) : List Nat :=
  let n := plain.length / 8
  match wrapSteps kek n (6 * n) 1 wrapIv (semiblocks n plain) with
  | (a, r) => a ++ r.flatten

/-- The key a wrapped string holds; none where the check value does not come out. -/
def keyUnwrap (kek wrapped : List Nat) : Option (List Nat) :=
  let n := wrapped.length / 8 - 1
  match unwrapSteps kek n (6 * n) (wrapped.take 8) (semiblocks n (wrapped.drop 8)) with
  | (a, r) => if a = wrapIv then some r.flatten else none

end Sys2Proof.Machine
end

