-- ==== Sys2Proof/Machine/Trig.lean ====
section
/-! DEFINITION. Sine, cosine and the angle of a vector in fixed point (the DFT of R164, with far more than the 64 bits of
mantissa that R162 asks for). -/

namespace Sys2Proof.Machine

/-- One, in the fixed point of this file. -/
def fpOne : Int := 2 ^ 96

/-- π in that fixed point, rounded to nearest. -/
def fpPi : Int := 248902613312231085230521944622

/-- Adds the terms `t·(−x²)/((k+1)(k+2))`, … of a series, `fuel` of them. -/
def fpSeries (x2 : Int) : Nat → Int → Int → Int → Int
  | 0, _, _, s => s
  | f + 1, k, t, s =>
    let t := -(t * x2 / fpOne) / ((k + 1) * (k + 2))
    fpSeries x2 f (k + 2) t (s + t)

/-- The sine and the cosine of an angle from 0 to π. -/
def fpSin (x : Int) : Int := fpSeries (x * x / fpOne) 24 1 x x
def fpCos (x : Int) : Int := fpSeries (x * x / fpOne) 24 0 fpOne fpOne

/-- cos and sin of k/256 of a turn. -/
def turnCos (k : Nat) : Int :=
  let k := k % 256
  if k ≤ 128 then fpCos (fpPi * k / 128) else fpCos (fpPi * (256 - k : Nat) / 128)

def turnSin (k : Nat) : Int :=
  let k := k % 256
  if k ≤ 128 then fpSin (fpPi * k / 128) else -fpSin (fpPi * (256 - k : Nat) / 128)

/-- Whether the vector (`re`, `im`), with `im ≥ 0`, stands at `h` times 0.005° or beyond. -/
def angleReaches (re im : Int) (h : Nat) : Bool :=
  let t := fpPi * h / 36000
  0 ≤ im * fpCos t - re * fpSin t

/-- The greatest `a` from `lo` to `lo + 2^fuel − 1`, at most 18,000, that the vector reaches when rounded. -/
def angleSearch (re im : Int) : Nat → Nat → Nat
  | 0, lo => lo
  | f + 1, lo =>
    let a := lo + 2 ^ f
    angleSearch re im f (if a ≤ 18000 && angleReaches re im (2 * a - 1) then a else lo)

/-- The angle of a vector in 0.01°, −18,000 to 17,999, rounded to nearest; none for the zero vector. -/
def angleOf (re im : Int) : Option Int :=
  if re = 0 ∧ im = 0 then none
  else
    let a : Int := angleSearch re im.natAbs 15 0
    let a := if im < 0 then -a else a
    some (if a = 18000 then -18000 else a)

end Sys2Proof.Machine
end

