-- ==== Sys2Proof/Machine/Mem.lean ====
section
/-! DEFINITION. The SRAM banks: ownership, the SECDED code, reads, writes and read-modify-writes, the clear, the stores
(R178–R197). -/

namespace Sys2Proof.Machine

/-! ### Banks (R178) -/

def bankWords (b : Nat) : Nat := if b < 16 then 8192 else if b < 20 then 4096 else if b = 20 then 2048 else if b = 21 then 4096 else 1024

def bankDom (b : Nat) : Dom :=
  if b < 8 then .sha else if b < 16 then .shb else if b < 20 then .lgl else if b = 20 then .per else if b = 21 then .sys else .aon

/-- The bus address of a word; the word index for L3, which has no address (R23, ERR_ADDR). -/
def bankAddr (b w : Nat) : Nat :=
  if b < 16 then 0x30000000 + b * 0x8000 + 4 * w
  else if b < 19 then 0x20000000 + (b - 16) * 0x4000 + 4 * w
  else if b = 19 then w
  else if b = 20 then 0x38000000 + 4 * w
  else if b = 21 then 0x39000000 + 4 * w
  else 0x3A000000 + 4 * w

/-- The key of a word in `Mem.sram`. -/
def sramKey (b w : Nat) : Nat := b * 8192 + w

/-- What an unlisted SRAM word reads as: lost where its bank was powered without retention and not cleared since, else
all zeros (R194, R195). -/
def sramDflt (undef : List (Nat × Nat)) (key : Nat) : Stored :=
  match undef.lookup (key / 8192) with
  | some g => .lost g
  | none => .known 0

/-- The codeword an SRAM word holds. -/
def Dev.codeword (d : Dev) (b w : Nat) : Codeword :=
  match d.mem.sram.get (sramDflt d.mem.undef) (sramKey b w) with
  | .known c => c
  | .lost g => Config.sramLost g b w

/-- Stores a codeword as it is; a reservation of the AC on the word ends (R418, A 2.1). -/
def Dev.putCode (d : Dev) (b w : Nat) (c : Codeword) : Dev :=
  { d with
    mem.sram := d.mem.sram.set (sramDflt d.mem.undef) (sramKey b w) (.known c)
    ac.resv := if d.ac.resv == some (sramKey b w) then none else d.ac.resv }

/-- R194, R359: the banks `bs` lose their contents. -/
def Dev.loseBanks (d : Dev) (bs : List Nat) : Dev :=
  let sram := bs.foldl (fun m b => SMap.clear m (b * 8192) (b * 8192 + 8192)) d.mem.sram
  let undef := d.mem.undef.filter (fun p => !bs.contains p.1) ++ bs.map fun b => (b, d.free)
  { d with mem.sram := sram, mem.undef := undef, free := d.free + 1 }

/-- R195: the clear sets every word of banks 0 to 21 to 0. -/
def Dev.clearBanks (d : Dev) : Dev :=
  { d with mem.sram := SMap.clear d.mem.sram 0 (22 * 8192), mem.undef := d.mem.undef.filter fun p => 22 ≤ p.1 }

/-! ### The code (R186–R188) -/

/-- R187: the columns of the data bits. -/
def dataCols : List Nat :=
  [0x07, 0x0B, 0x13, 0x15, 0x16, 0x1C, 0x23, 0x29, 0x2A, 0x2C, 0x34, 0x38, 0x43, 0x45, 0x46, 0x49,
   0x4A, 0x51, 0x52, 0x54, 0x61, 0x62, 0x68, 0x1F, 0x2F, 0x37, 0x3B, 0x3D, 0x3E, 0x57, 0x5D, 0x5E]

/-- R187: the columns of the address bits a0–a7, repeated for a8–a15. -/
def addrCols : List Nat := [0x0D, 0x0E, 0x31, 0x32, 0x58, 0x5B, 0x64, 0x67]

/-- The XOR of the columns of the bits set in `x`, from bit `i` on. -/
def xorCols (x : Nat) : Nat → List Nat → Nat
  | _, [] => 0
  | i, c :: cs => (if bit x i then c else 0) ^^^ xorCols x (i + 1) cs

/-- R186: the address code of a word. -/
def addrCode (b w : Nat) : Nat := w % 8192 + b % 8 * 8192

/-- R187: the check bits of data `x` at bank `b`, word `w`. -/
def checkBits (b w x : Nat) : Nat := xorCols x 0 dataCols ^^^ xorCols (addrCode b w) 0 (addrCols ++ addrCols) ^^^ 0x14

/-- R186: the codeword of data `x`. -/
def encodeWord (b w x : Nat) : Codeword := BitVec.ofNat 39 (x % 2 ^ 32 + checkBits b w (x % 2 ^ 32) * 2 ^ 32)

/-- The classes of R188. -/
inductive EccClass where
  | clean | ceData (i : Nat) | ceCheck | addr | unc
deriving DecidableEq, Repr

def EccClass.code : EccClass → Nat
  | .clean => 0 | .ceData _ => 1 | .ceCheck => 2 | .addr => 3 | .unc => 4

/-- R188: the syndrome of a codeword read at bank `b`, word `w`. -/
def syndrome (b w : Nat) (c : Codeword) : Nat := checkBits b w (bits c.toNat 0 32) ^^^ bits c.toNat 32 7

/-- R188: the class of a syndrome. -/
def classify (σ : Nat) : EccClass :=
  if σ = 0 then .clean
  else match dataCols.findIdx? (· == σ) with
    | some i => .ceData i
    | none =>
      if (List.range 7).any (fun k => σ == 2 ^ k) then .ceCheck
      else if addrCols.contains σ then .addr
      else .unc

/-! ### Groups (R179, R182) -/

/-- The owner group a requester belongs to; 7 for the host, which has none. -/
def Requester.group : Requester → Nat
  | .lc | .lcDbg | .bootRom => 1
  | .ac | .acDbg => 2
  | .hostDma | .uart => 6
  | .hspi | .i2ct => 7

/-- The group that ERR_INFO names: 7 for a bank without ownership. -/
def errGroup (b g : Nat) : Nat := if b < 20 then g else 7

/-- R182: whether group `g` may use bank `b`. -/
def Dev.owns (d : Dev) (g b : Nat) : Bool := 20 ≤ b || (d.f (Fld.MEMCTL_BANK_OWN_OWNER b) == g && g != 0)

/-- R182: a non-owner access is recorded. -/
def Dev.nonOwner (d : Dev) (g b w : Nat) : Dev :=
  let d := d.wr Reg.MEMCTL_NONOWN_ADDR (bankAddr b w)
  (d.wr Reg.MEMCTL_NONOWN_INFO (b + g * 32 + 256)).raise Ev.MEMCTL_NONOWNER

/-! ### Reads and writes -/

/-- ERR_ADDR and ERR_INFO of an ECC event (R189–R191). -/
def Dev.eccRecord (d : Dev) (g b w : Nat) (cls : EccClass) (σ : Nat) (rmw : Bool) : Dev :=
  let older := d.on Fld.MEMCTL_ERR_INFO_VALID
  let ovr := older || d.on Fld.MEMCTL_ERR_INFO_OVR
  let d := d.wr Reg.MEMCTL_ERR_ADDR (bankAddr b w)
  let d := d.wr Reg.MEMCTL_ERR_INFO
    (cls.code + σ * 8 + errGroup b g * 2 ^ 10 + b * 2 ^ 13 + b2n rmw * 2 ^ 18 + 2 ^ 19 + b2n ovr * 2 ^ 20)
  d.raiseIf older Ev.MEMCTL_LOG_OVR

/-- R189, R192: a correction is counted and recorded. -/
def Dev.corrected (d : Dev) (g b w : Nat) (cls : EccClass) (σ : Nat) (rmw : Bool) : Dev :=
  let d := (d.incF (Fld.MEMCTL_ECC_CNT_CE b)).eccRecord g b w cls σ rmw
  let d := d.raise Ev.MEMCTL_CE
  let thr := d.f Fld.MEMCTL_CE_THR_THR
  if thr != 0 && thr ≤ d.f (Fld.MEMCTL_ECC_CNT_CE b) && !d.mem.ceThrDone then
    { d with mem.ceThrDone := true }.raise Ev.MEMCTL_CE_THR
  else d

/-- R190: an uncorrectable word is counted and recorded. -/
def Dev.uncorrectable (d : Dev) (g b w : Nat) (cls : EccClass) (σ : Nat) (rmw : Bool) : Dev :=
  let d := (d.incF (Fld.MEMCTL_ECC_CNT_UE b)).eccRecord g b w cls σ rmw
  (d.raise Ev.MEMCTL_UE).raiseIf (cls == .addr) Ev.MEMCTL_ADDR_ERR

/-- R188–R190: a granted read of word `w`, for which the array returns the word at `row`; no data where the word is
uncorrectable. -/
def Dev.readRow (d : Dev) (g b w row : Nat) (rmw : Bool) : Option Nat × Dev :=
  let c := d.codeword b row
  let σ := syndrome b w c
  let x := bits c.toNat 0 32
  match classify σ with
  | .clean => (some x, d)
  | .ceData i =>
    let x' := x ^^^ 2 ^ i
    (some x', (d.putCode b row (encodeWord b w x')).corrected g b w (.ceData i) σ rmw)
  | .ceCheck => (some x, (d.putCode b row (encodeWord b w x)).corrected g b w .ceCheck σ rmw)
  | .addr => (none, d.uncorrectable g b w .addr σ rmw)
  | .unc => (none, d.uncorrectable g b w .unc σ rmw)

/-- A read of word `w` of bank `b` by group `g` (R182, R188). -/
def Dev.memRead (d : Dev) (g b w : Nat) : Option Nat × Dev :=
  if d.owns g b then d.readRow g b w w false else (none, d.nonOwner g b w)

/-- A full-word write by group `g` (R182, R186); whether it was performed. -/
def Dev.memWrite (d : Dev) (g b w x : Nat) : Bool × Dev :=
  if d.owns g b then (true, d.putCode b w (encodeWord b w x)) else (false, d.nonOwner g b w)

/-- The word `old` with the bytes of `new` that `be` selects. -/
def mergeBytes (be old new : Nat) : Nat :=
  sumN ((List.range 4).map fun i => (if bit be i then bits new (8 * i) 8 else bits old (8 * i) 8) * 2 ^ (8 * i))

/-- R191: a write of the bytes `be` by group `g`. -/
def Dev.memPartial (d : Dev) (g b w be x : Nat) : Bool × Dev :=
  if d.owns g b then
    match d.readRow g b w w true with
    | (some old, d) => (true, d.putCode b w (encodeWord b w (mergeBytes be old x)))
    | (none, d) => (false, d.raise Ev.MEMCTL_RMW_FAIL)
  else (false, d.nonOwner g b w)

/-- What a word reads as, found without an access (none: it is uncorrectable). -/
def Dev.memPeek (d : Dev) (b w : Nat) : Option Nat :=
  let c := d.codeword b w
  let x := bits c.toNat 0 32
  match classify (syndrome b w c) with
  | .clean | .ceCheck => some x
  | .ceData i => some (x ^^^ 2 ^ i)
  | _ => none

/-- Words read one after another by group `g`; stops at the first that cannot be read. -/
def Dev.memReadMany (d : Dev) (g b w : Nat) : Nat → Option (List Nat) × Dev
  | 0 => (some [], d)
  | n + 1 =>
    match d.memRead g b w with
    | (none, d) => (none, d)
    | (some x, d) =>
      match Dev.memReadMany d g b (w + 1) n with
      | (some xs, d) => (some (x :: xs), d)
      | (none, d) => (none, d)

/-- Words written one after another by group `g`; stops at the first that is refused. -/
def Dev.memWriteMany (d : Dev) (g b w : Nat) : List Nat → Bool × Dev
  | [] => (true, d)
  | x :: xs =>
    match d.memWrite g b w x with
    | (true, d) => Dev.memWriteMany d g b (w + 1) xs
    | (false, d) => (false, d)

/-! ### The waveform and sample stores (R185) -/

/-- R181: the granted accesses of bank `b`'s old owner have drained. -/
def Dev.handoverDone (d : Dev) (b : Nat) : Dev :=
  if d.on (Fld.MEMCTL_BANK_OWN_IN_TRANSIT b) then
    (d.setF (Fld.MEMCTL_BANK_OWN_IN_TRANSIT b) 0).raise Ev.MEMCTL_HANDOVER_DONE
  else d

/-- R181: an access by hardware of the group that owns the bank now waits until the old owner's have drained. -/
def Dev.drained (d : Dev) (g b : Nat) : Dev := if b < 16 && d.owns g b then d.handoverDone b else d

/-- Group code of store `g`: UFD 4, MET 5. -/
def storeGroup (g : Nat) : Nat := if g = 0 then 4 else 5

/-- R185: one word into the area of store `g`. -/
def Dev.storeWord (d : Dev) (g x : Nat) : Dev :=
  if d.on (Fld.MEMCTL_STORE_CFG_EN g) && d.f (Fld.MEMCTL_STORE_LEN_NWORDS g) != 0 then
    let b := d.f (Fld.MEMCTL_STORE_CFG_BANK g)
    let p := d.f (Fld.MEMCTL_STORE_PTR_PTR g)
    let ok := d.domOn (bankDom b)
    match (if ok then (d.drained (storeGroup g) b).memWrite (storeGroup g) b p x else (false, d)) with
    | (false, d) => (d.setF (Fld.MEMCTL_STORE_CFG_EN g) 0).raise Ev.MEMCTL_STORE_ERR
    | (true, d) =>
      let w0 := d.f (Fld.MEMCTL_STORE_CFG_WORD0 g)
      let last := w0 + min (d.f (Fld.MEMCTL_STORE_LEN_NWORDS g)) 8192
      if p + 1 < last && p + 1 < 8192 then d.setF (Fld.MEMCTL_STORE_PTR_PTR g) (p + 1)
      else
        let d := d.setF (Fld.MEMCTL_STORE_PTR_PTR g) w0
        if d.on (Fld.MEMCTL_STORE_CFG_WRAP g) then d
        else (d.setF (Fld.MEMCTL_STORE_CFG_EN g) 0).raise Ev.MEMCTL_STORE_FULL
  else d

/-- R185: a length of 0 stops store `g` at once. -/
def Dev.storeStop (d : Dev) (g : Nat) : Dev :=
  if d.f (Fld.MEMCTL_STORE_LEN_NWORDS g) = 0 then d.setF (Fld.MEMCTL_STORE_CFG_EN g) 0 else d

/-- R185: words into the area of store `g`, in order. -/
def Dev.storeWords (d : Dev) (g : Nat) (xs : List Nat) : Dev := xs.foldl (fun d x => d.storeWord g x) d

/-! ### Ownership writes (R180, R181) -/

/-- R179: whether requester `r` is the handover writer for group `g`. -/
def handoverWriter (r : Requester) (g : Nat) : Bool :=
  if g = 1 || g = 3 || g = 5 then r.legal
  else if g = 2 || g = 4 || g = 6 then r == .ac || r == .acDbg
  else false

/-- R180, R181: a write of BANK_OWN_n.OWNER. -/
def Dev.bankOwnWrite (d : Dev) (r : Requester) (n owner : Nat) : Dev :=
  let cur := d.f (Fld.MEMCTL_BANK_OWN_OWNER n)
  if n < 16 then
    if owner == cur then d
    else if owner != 7 && (if cur == 0 then handoverWriter r owner else handoverWriter r cur) then
      ((d.setF (Fld.MEMCTL_BANK_OWN_OWNER n) owner).setF (Fld.MEMCTL_BANK_OWN_PREV n) cur).setF
        (Fld.MEMCTL_BANK_OWN_IN_TRANSIT n) 1
    else d.raise Ev.MEMCTL_OWN_REFUSED
  else d

end Sys2Proof.Machine
end

