-- ==== Sys2Proof/Machine/Mae.lean ====
section
/-! DEFINITION. The Mains Angle Engine by itself: accumulator, references, states, slewing, splice, start (R32–R58).  What
other blocks do at angle 0x0000 is passed in as `onZero`; Cycle.lean supplies it. -/

namespace Sys2Proof.Machine

/-- The states of R41 by their codes. -/
def maeAcquire : Nat := 1
def maeLocked : Nat := 2
def maeCoast : Nat := 3
def maeSynth : Nat := 4

def Dev.maeState (d : Dev) : Nat := d.f Fld.MAE_STATUS_STATE

/-- The MAE follows a reference (LOCKED or ACQUIRE). -/
def Dev.following (d : Dev) : Bool := d.maeState == maeAcquire || d.maeState == maeLocked

/-- R33: INC for a FREQ, halves up. -/
def incOf (freq : Nat) : Nat := (freq * 4096 * 2 + 1000) / 2000

def Dev.setFreq (d : Dev) (freq : Nat) : Dev := (d.wr Reg.MAE_FREQ freq).wr Reg.MAE_INC (incOf freq)

/-- R47: S is set, for one cycle. -/
def Dev.setSlew (d : Dev) (s : Int) : Dev :=
  let d := { d with mae.slew := s, mae.slewLeft := if s = 0 then 0 else 2 ^ 40 }
  (d.setB Fld.MAE_STATUS_SLEWING (s != 0)).level Ev.MAE_SLEWING (s != 0)

/-- R41: the state and the events that follow it; a state is entered with no runs. -/
def Dev.setMaeState (d : Dev) (st : Nat) : Dev :=
  let d := d.setF Fld.MAE_STATUS_STATE st
  let d := { d with
    mae.lockRun := 0, mae.confirm := []
    mae.cycNoref := d.mae.cycNoref || st == maeCoast || st == maeSynth }
  (((d.level Ev.MAE_LOCKED (st == maeLocked)).level Ev.MAE_COAST (st == maeCoast)).level Ev.MAE_SYNTH
    (st == maeSynth)).level Ev.MAE_ACQUIRE (st == maeAcquire)

/-- A state entered with no slew. -/
def Dev.setMae (d : Dev) (st : Nat) : Dev := (d.setSlew 0).setMaeState st

/-- COAST_MAX as it acts. -/
def Dev.coastMax (d : Dev) : Nat := max 1 (d.f Fld.MAE_COAST_MAX_COAST_MAX)

/-- SLEW_LIMIT as it acts (clamped). -/
def Dev.slewLimit (d : Dev) : Nat := min 0x2000 (max 0x0100 (d.f Fld.MAE_SLEW_LIMIT_SLEW_LIMIT))

/-- CROSS_WIN as a register value acts (clamped). -/
def clampWin (w : Nat) : Nat := min 0x4000 (max 0x0400 w)

/-! ### The accumulator (R32) -/

/-- What one modulator clock adds while S is in force. -/
def Dev.slewRate (d : Dev) : Nat := ((d.rd Reg.MAE_INC : Int) + d.mae.slew).toNat

/-- Modulator clocks for which S is still in force. -/
def Dev.slewClks (d : Dev) : Nat := if d.mae.slew = 0 then 0 else ceilDiv d.mae.slewLeft (max 1 d.slewRate)

/-- Modulator clocks until the accumulator has added `u`. -/
def Dev.clksFor (d : Dev) (u : Nat) : Nat :=
  let r := max 1 d.slewRate
  let k := d.slewClks
  if k ≠ 0 && u ≤ k * r then ceilDiv u r else k + ceilDiv (u - k * r) (max 1 (d.rd Reg.MAE_INC))

/-- `n` modulator clocks pass (R32, R42: every reference's span counts what is added). -/
def Dev.maeRun (d : Dev) (n : Nat) : Dev :=
  let k := min n d.slewClks
  let u := k * d.slewRate + (n - k) * d.rd Reg.MAE_INC
  let ended := d.mae.slew ≠ 0 && d.slewClks ≤ n
  let d := { d with
    mae.acc := d.mae.acc + u
    mae.modClk := d.mae.modClk + n
    mae.slewLeft := d.mae.slewLeft - k * d.slewRate
    mae.det := d.mae.det.map fun t => { t with span := t.span + u } }
  if ended then d.setSlew 0 else d

/-- R32: the cycle count goes up by one, with CYC_HI and CYC_WRAP on its carry. -/
def Dev.maeCount (d : Dev) : Dev :=
  let d := { d with
    mae.acc := d.mae.acc % 2 ^ 40
    mae.cyc := d.mae.cyc + 1
    mae.nextTick := 0 }
  let d := d.wr Reg.MAE_LAST_CYC_CLK (d.mae.modClk - d.mae.cycStartClk)
  let d := { d with mae.cycStartClk := d.mae.modClk }
  if d.mae.cyc = 0 then (d.wr Reg.MAE_CYC_HI ((d.rd Reg.MAE_CYC_HI + 1) % 65536)).raise Ev.MAE_CYC_WRAP else d

/-! ### References -/

/-- The reference with index `n`. -/
def Dev.det (d : Dev) (n : Nat) : RefDet := (d.mae.det.toList[n]?).getD {}

def Dev.setDet (d : Dev) (n : Fin 3) (t : RefDet) : Dev := { d with mae.det := d.mae.det.set n t }

/-- R39: the lowest-numbered valid reference. -/
def Dev.lowestValid (d : Dev) : Option Nat := (List.range 3).find? fun n => (d.det n).valid

/-- The reference that the setting in effect names, among the valid ones. -/
def Dev.namedValid (d : Dev) (sel : Nat) : Option Nat :=
  if sel = 3 then d.lowestValid else if (d.det sel).valid then some sel else none

/-- R39: the reference followed; a change of it raises REF_SWITCH. -/
def Dev.follow (d : Dev) (n : Nat) : Dev :=
  if d.f Fld.MAE_STATUS_REF_ACT == n then d else (d.setF Fld.MAE_STATUS_REF_ACT n).raise Ev.MAE_REF_SWITCH

/-- R44: the synthetic frequency that CTRL.SYNTH_FREQ chooses, NEAREST from `near`. -/
def Dev.synthFreq (d : Dev) (near : Nat) : Nat :=
  match d.f Fld.MAE_CTRL_SYNTH_FREQ with
  | 0 => 50 * 65536
  | 1 => 60 * 65536
  | _ => if near ≤ 55 * 65536 then 50 * 65536 else 60 * 65536

def Dev.enterSynth (d : Dev) : Dev := (d.setMae maeSynth).setFreq (d.synthFreq d.mae.coastFreq)

/-- R45: FREQ from one interval in modulator clocks; R46 takes the mean of several. -/
def freqOf (ivals : List Nat) : Nat := roundDivN (4096000 * 65536 * ivals.length) (max 1 (sumN ivals))

/-- R40, R45: ACQUIRE is entered on reference `n` with the frequency between its last two accepted crossings. -/
def Dev.acquireOn (d : Dev) (n : Nat) : Dev :=
  let d := (d.follow n).setMae maeAcquire
  match (d.det n).ivals with
  | i :: _ => d.setFreq (freqOf [i])
  | [] => d

/-- R38: the expected angle of a crossing on reference `n`. -/
def Dev.expected (d : Dev) (n : Nat) : Nat := (d.mae.zcOfs + (d.mae.refOfs.toList[n]?).getD 0) % 65536

/-- R37: the RMS of reference `n` over the last cycle of its sample words is at least `thr` × 0.1 V; it is 0 where the
channel has no scale. -/
def Dev.refOver (d : Dev) (n thr : Nat) : Bool :=
  let sq := vGet d.qty.refSq n []
  d.rd (Reg.MET_QTY_SCALE n) != 0 && max 1 sq.length * (thr * 100 * 2 ^ 23) ^ 2 ≤ sumN sq

/-- The references L1, L2 and L3. -/
def allRefs : List (Fin 3) := [0, 1, 2]

/-- The MAE follows reference `n`. -/
def Dev.followed (d : Dev) (n : Nat) : Bool := d.following && d.f Fld.MAE_STATUS_REF_ACT == n

/-- R42: a reference that can be lost: it is valid, or it is followed. -/
def Dev.watched (d : Dev) (n : Nat) : Bool := (d.det n).valid || d.followed n

/-- Steps of the accumulator until the time for a crossing of reference `n` is over (R42): in LOCKED the angle passes the
window of an expected crossing in which none was accepted; otherwise one cycle and CROSS_WIN au have been added since the
last one. -/
def Dev.lossDist (d : Dev) (n : Nat) : Option Nat :=
  if !d.watched n then none
  else
    let span := (d.det n).span
    if d.maeState == maeLocked && d.f Fld.MAE_STATUS_REF_ACT == n then
      let win := (2 * d.mae.crossWin + 1) * 2 ^ 24
      let past := (d.mae.acc + 2 ^ 40 - (d.expected n + d.mae.crossWin + 1) * 2 ^ 24 % 2 ^ 40) % 2 ^ 40
      if past + win < span then some 0
      else if span + (2 ^ 40 - past) ≤ win then some (2 ^ 41 - past)
      else some (2 ^ 40 - past)
    else some ((65536 + d.mae.crossWin) * 2 ^ 24 - span)

/-- R42: the clocks until the next reference is lost by its span, and which; `spare` is left out. -/
def Dev.nextLoss (d : Dev) (spare : Option (Fin 3)) : Option (Nat × Fin 3) :=
  allRefs.foldl (fun best n =>
    if spare == some n then best
    else match d.lossDist n.val with
      | none => best
      | some u => if best.all (d.clksFor u < ·.1) then some (d.clksFor u, n) else best) none

/-- R42: a reference that is not valid any more, with no previous crossing. -/
def RefDet.lose (t : RefDet) : RefDet := { t with last := none, run := 0, valid := false, validCyc := 0 }

/-- R39, R42, R43: the reference followed is lost. -/
def Dev.loseRef (d : Dev) (n : Fin 3) : Dev :=
  let d := (d.setDet n (d.det n).lose).raise Ev.MAE_REF_LOST
  match (if d.mae.refSel = 3 then d.lowestValid else none) with
  | some m => (d.follow m).setMae maeAcquire
  | none =>
    let d := { d with mae.coastFreq := d.rd Reg.MAE_FREQ }
    ((d.setMae maeCoast).setF Fld.MAE_STATUS_COAST_LEFT d.coastMax).inc Reg.MAE_COAST_CNT

/-- R42: reference `n` is lost, or stops being valid. -/
def Dev.refLost (d : Dev) (n : Fin 3) : Dev :=
  if d.followed n then d.loseRef n else d.setDet n (d.det n).lose

/-! ### Angle 0x0000 -/

/-- R40: changed reference settings take effect. -/
def Dev.applyRefSettings (d : Dev) : Dev :=
  let sel := d.f Fld.MAE_CTRL_REF_SEL
  let zc := d.f Fld.MAE_ZC_CFG_ZC_OFFSET
  let ofs : Vector Nat 3 := #v[d.f (Fld.MAE_REF_OFS_OFS 0), d.f (Fld.MAE_REF_OFS_OFS 1), d.f (Fld.MAE_REF_OFS_OFS 2)]
  let changed := sel != d.mae.refSel || zc != d.mae.zcOfs || ofs != d.mae.refOfs
  let d := { d with
    mae.refSel := sel, mae.zcOfs := zc, mae.refOfs := ofs
    mae.crossWin := clampWin (d.f Fld.MAE_ZC_CFG_CROSS_WIN) }
  if !changed then d
  else if d.maeState == maeLocked then (if sel = 3 then d else d.follow sel).setMae maeAcquire
  else if d.maeState == maeAcquire then (if sel = 3 then d else d.follow sel)
  else match d.namedValid sel with
    | some n => d.acquireOn n
    | none => d

/-- R53: the masks written take effect. -/
def Dev.commitQwm (d : Dev) : Dev :=
  let d := forUpto 4 (fun m d =>
    match (d.mae.qwmNext.toList[m]?).getD none with
    | some (lo, hi) => (d.wr (Reg.MAE_QWM_LO m) lo.toNat).wr (Reg.MAE_QWM_HI m) hi.toNat
    | none => d) d
  { d with mae.qwmNext := Vector.replicate 4 none }

/-- R43: COAST counts down, and ends in SYNTH. -/
def Dev.coastStep (d : Dev) : Dev :=
  if d.maeState == maeCoast then
    let d := d.setF Fld.MAE_STATUS_COAST_LEFT (d.f Fld.MAE_STATUS_COAST_LEFT - 1)
    if d.f Fld.MAE_STATUS_COAST_LEFT = 0 then d.enterSynth else d
  else d

/-- R39: a lower-numbered reference valid for 50 consecutive cycles is followed again; the first angle 0x0000 at which it
is valid begins the first of them. -/
def Dev.returnLower (d : Dev) : Dev :=
  let d := { d with mae.det := d.mae.det.map fun t => { t with validCyc := if t.valid then t.validCyc + 1 else 0 } }
  if d.mae.refSel = 3 && d.following then
    match (List.range (d.f Fld.MAE_STATUS_REF_ACT)).find? fun n => 50 < (d.det n).validCyc with
    | some n => (d.follow n).setMae maeAcquire
    | none => d
  else d

/-- R42: the references whose RMS is below VREF.MIN at the end of the cycle are lost, the one followed after the others. -/
def Dev.rmsLosses (d : Dev) : Dev :=
  let lose := fun (act : Bool) (d : Dev) (n : Fin 3) =>
    if d.watched n && d.followed n == act && !d.refOver n (d.f Fld.MAE_VREF_MIN) then d.refLost n else d
  let was := allRefs.filter fun n => d.followed n.val
  was.foldl (lose true) ((allRefs.filter fun n => !was.contains n).foldl (lose false) d)

/-- What the MAE itself does at angle 0x0000 (R39, R40, R42, R43, R44, R53); COAST entered there has all its cycles before
it. -/
def Dev.maeZero (d : Dev) : Dev :=
  let was := d.maeState
  let d := d.rmsLosses
  let d := if was == maeSynth then d.inc Reg.MAE_SYNTH_CYC else d
  let d := d.commitQwm.applyRefSettings
  let d := if was == maeCoast then d.coastStep else d
  let d := if d.maeState == maeSynth then d.setFreq (d.synthFreq d.mae.coastFreq) else d
  let d := d.returnLower
  { d with mae.cycSpliced := false, mae.cycNoref := d.maeState == maeCoast || d.maeState == maeSynth }

/-- A carry out of the angle: the count, then what is due at angle 0x0000. -/
def Dev.maeCarry (d : Dev) (onZero : Dev → Dev) : Dev := onZero d.maeCount

/-! ### Crossings (R37, R42, R45–R49) -/

/-- `x` au wrapped to −32,768 … 32,767. -/
def wrapAu (x : Int) : Int := (x + 32768) % 65536 - 32768

/-- R37: an interval of `i` modulator clocks stands for 42.000 to 68.000 Hz. -/
def intervalOk (i : Nat) : Bool := 42 * i ≤ 4096000 && 4096000 ≤ 68 * i

/-- R49: the splice by `e` au. -/
def Dev.splice (onZero : Dev → Dev) (d : Dev) (e : Int) : Dev :=
  let fc := d.mae.cyc
  let fa := d.mae.angle
  let jump := if 0 < e then e.toNat else (65536 + e).toNat
  let acc := d.mae.acc + jump * 2 ^ 24
  let d := d.wr Reg.MAE_SPL_CYC fc.toNat
  let d := d.wr Reg.MAE_SPL_INFO (b2n (e < 0) + unsgn 16 e * 2 ^ 16)
  let d := { d with mae.cycSpliced := true }
  let d : Dev := { d with mae.acc := acc }
  let d := if e < 0 || 2 ^ 40 ≤ acc then d.maeCarry onZero else d
  let d := { d with
    mae.nextTick := ceilDiv d.mae.angle 256
    mae.splices := d.mae.splices ++ [Splice.mk fc fa d.mae.cyc d.mae.angle] }
  let d := d.wr Reg.MAE_SPL_ANG (fa + d.mae.angle * 65536)
  ((d.inc Reg.MAE_SPL_CNT).setMae maeAcquire).raise Ev.MAE_SPLICE

/-- R47: S for a phase error. -/
def slewFor (inc : Nat) (e : Int) : Int := clamp (-((inc / 64 : Nat) : Int)) ((inc / 64 : Nat) : Int) (roundDiv (inc * e) 65536)

/-- R41, R47, R48: what the phase error at an accepted crossing of the reference followed does. -/
def Dev.phase (onZero : Dev → Dev) (d : Dev) (e : Int) : Dev :=
  let d := d.wr Reg.MAE_PHASE_ERR (unsgn 16 e)
  let tol := d.f Fld.MAE_LOCK_CFG_LOCK_TOL
  let errs := d.mae.confirm
  let d := { d with mae.lockRun := if e.natAbs ≤ tol then d.mae.lockRun + 1 else 0 }
  let d :=
    if d.maeState == maeAcquire && max 1 (d.f Fld.MAE_LOCK_CFG_LOCK_CYCLES) ≤ d.mae.lockRun then d.setMaeState maeLocked
    else d
  if e.natAbs ≤ d.slewLimit then { d.setSlew (slewFor (d.rd Reg.MAE_INC) e) with mae.confirm := [] }
  else
    let agree := errs.all fun x => (wrapAu (x - e)).natAbs ≤ tol
    let run := if agree then errs ++ [e] else [e]
    let d := { d.setSlew 0 with mae.confirm := run }
    if max 1 (d.f Fld.MAE_LOCK_CFG_SPLICE_CONFIRM) ≤ run.length then d.splice onZero e else d

/-- R42, R46: an accepted crossing of reference `n` at modulator clock `tc`. -/
def Dev.acceptCrossing (d : Dev) (n : Fin 3) (tc late : Nat) : Dev :=
  let t := d.det n
  let ivals := match t.last with
    | some l => ((tc - l) :: t.ivals).take 8
    | none => t.ivals
  let run := if d.refOver n (d.f Fld.MAE_VREF_MIN + d.f Fld.MAE_VREF_HYST) then t.run + 1 else 0
  let valid := t.valid || 2 ≤ run
  d.setDet n { t with last := some tc, ivals := ivals, run := run, valid := valid, span := late * d.rd Reg.MAE_INC }

/-- R37–R49: a crossing of reference `n` that lay `late` modulator clocks before now. -/
def Dev.crossing (onZero : Dev → Dev) (d : Dev) (n : Fin 3) (late : Nat) : Dev :=
  let t := d.det n
  let tc := d.mae.modClk - late
  let rate := if d.mae.slew = 0 then d.rd Reg.MAE_INC else d.slewRate
  let θ : Nat := (d.mae.acc + 2 ^ 40 - late * rate) % 2 ^ 40 / 2 ^ 24
  let e : Int := wrapAu ((d.expected n : Int) - (θ : Int))
  let act := d.f Fld.MAE_STATUS_REF_ACT == n.val
  let followed := act && d.following
  let freqOk := match t.last with
    | some l => intervalOk (tc - l)
    | none => true
  let rmsOk := d.refOver n (d.f Fld.MAE_VREF_MIN)
  let winOk := !(followed && d.maeState == maeLocked) || e.natAbs ≤ d.mae.crossWin
  if freqOk && rmsOk && winOk then
    let limit := (65536 + d.mae.crossWin) * 2 ^ 24
    let span := t.span - late * rate
    let late' := followed && d.maeState == maeAcquire && limit ≤ span && span < limit + rate
    let was := t.valid
    let d := d.acceptCrossing n tc late
    let d := if late' then d.setF Fld.MAE_STATUS_AT_LIMIT 1 else d
    if followed then
      let k := 2 ^ d.f Fld.MAE_CTRL_FREQ_AVG
      let iv := (d.det n).ivals.take k
      let d := if t.last.isSome && iv ≠ [] then d.setFreq (freqOf iv) else d
      d.phase onZero e
    else if !d.following && !was && (d.det n).valid && (d.mae.refSel = 3 || d.mae.refSel = n.val) then
      let limit := d.maeState == maeCoast && d.f Fld.MAE_STATUS_COAST_LEFT == 1
      let d := if limit then d.setF Fld.MAE_STATUS_AT_LIMIT 1 else d
      (d.acquireOn n).phase onZero e
    else d
  else
    let d := d.setDet n { t with last := none, run := 0 }
    if freqOk then d
    else
      let d := d.raiseIf (act || d.mae.refSel == n.val) Ev.MAE_FREQ_OOR
      if followed then d.loseRef n else d.setDet n (d.det n).lose

/-! ### Start (R57, R58) -/

/-- The MAE starts in SYNTH at angle 0x0000 of cycle `cyc`, FREQ following `near`; the registers stand as reset or
restored, and so do the masks in effect. -/
def Dev.maeStart (d : Dev) (cyc : Word) (cycHi near : Nat) (resumed : Bool) : Dev :=
  let ofs : Vector Nat 3 := #v[d.f (Fld.MAE_REF_OFS_OFS 0), d.f (Fld.MAE_REF_OFS_OFS 1), d.f (Fld.MAE_REF_OFS_OFS 2)]
  let d := { d with mae := {
    running := true, hasRun := true, cyc := cyc, coastFreq := near
    refSel := d.f Fld.MAE_CTRL_REF_SEL, zcOfs := d.f Fld.MAE_ZC_CFG_ZC_OFFSET, refOfs := ofs
    crossWin := clampWin (d.f Fld.MAE_ZC_CFG_CROSS_WIN)
    qwmLo := #v[0, 1, 2, 3].map fun m => BitVec.ofNat 32 (d.rd (Reg.MAE_QWM_LO m))
    modClk := d.mae.modClk, cycStartClk := d.mae.modClk, splices := d.mae.splices } }
  let d := (d.wr Reg.MAE_CYC_HI cycHi).setB Fld.MAE_STATUS_START_CAUSE resumed
  (d.enterSynth).raiseIf resumed Ev.MAE_RESUMED

/-- R58: the cycle at which the MAE resumes, `t` LFXO periods after MET dropped at cycle `cyc`. -/
def resumeCycle (cyc t fsynth : Nat) : Nat := cyc + ceilDiv (t * fsynth) (32768 * 65536) + 1

end Sys2Proof.Machine
end

