-- ==== Sys2Proof/Machine/Operands.lean ====
section
/-! DEFINITION. Where a bus address leads, who may go there, and what a refusal on legal grounds records
(R20–R27, R231). -/

namespace Sys2Proof.Machine

/-- What a bus address names (R23). -/
inductive Target where
  | bootRom (off : Nat)
  | lfl (off : Nat)
  | afl (off : Nat)
  | sram (bank word : Nat)
  | window (off : Nat)
  | reg (p : Page) (off : Nat)
deriving DecidableEq, Repr

/-- R23: the address map; none outside it. -/
def decodeAddr (a : Nat) : Option Target :=
  if a < 0x8000 then some (.bootRom a)
  else if 0x08000000 ≤ a && a < 0x08040000 then some (.lfl (a - 0x08000000))
  else if 0x0C000000 ≤ a && a < 0x0C200000 then some (.afl (a - 0x0C000000))
  else if 0x20000000 ≤ a && a < 0x2000C000 then some (.sram (16 + (a - 0x20000000) / 0x4000) (a % 0x4000 / 4))
  else if 0x20100000 ≤ a && a < 0x20140000 then some (.window (a - 0x20100000))
  else if 0x30000000 ≤ a && a < 0x30080000 then some (.sram ((a - 0x30000000) / 0x8000) (a % 0x8000 / 4))
  else if 0x38000000 ≤ a && a < 0x38002000 then some (.sram 20 (a % 0x2000 / 4))
  else if 0x39000000 ≤ a && a < 0x39004000 then some (.sram 21 (a % 0x4000 / 4))
  else if 0x3A000000 ≤ a && a < 0x3A001000 then some (.sram 22 (a % 0x1000 / 4))
  else match regPlace a with
    | some (p, off) => some (.reg p off)
    | none => none

/-- R25: the bus address that a host address stands for; none outside the host view. -/
def hostAddr (h : Nat) : Option Nat :=
  if h < 0x2000 then some (0x38000000 + h)
  else if 0x100000 ≤ h && h < 0x127000 then some (0x40000000 + (h - 0x100000))
  else none

/-- R21: the domain a target stands in. -/
def Target.dom : Target → Dom
  | .bootRom _ => .sys
  | .lfl _ | .window _ => .lgl
  | .afl _ => .app
  | .sram b _ => bankDom b
  | .reg p _ => p.dom

/-- A core, or debug access to it. -/
def Requester.isLc : Requester → Bool
  | .lc | .lcDbg | .bootRom => true
  | _ => false

def Requester.isAc : Requester → Bool
  | .ac | .acDbg => true
  | _ => false

/-- R24: whether a requester reaches a target, `write` telling loads from stores.  `some true`: the refusal is one of a
region listed for the LC only (R231 KIND 4). -/
def reach (r : Requester) (t : Target) (write : Bool) : Except Bool Unit :=
  let app := !r.legal
  match t with
  | .bootRom _ => if r.isLc && !write then .ok () else .error app
  | .lfl _ => if r.isLc && !write then .ok () else .error app
  | .afl _ => if (r.isLc || r.isAc) && !write then .ok () else .error false
  | .window _ => if r.isLc then .ok () else .error app
  | .sram b w =>
    if b < 16 then (if r.isLc || r.isAc || r == .hostDma || r == .uart then .ok () else .error false)
    else if b < 20 then (if r.isLc then .ok () else .error app)
    else if b = 20 then .ok ()
    else if b = 21 then (if r.isLc || r.isAc then .ok () else .error false)
    else if w < 512 then (if r.isLc then .ok () else .error app)
    else (if r.isLc || r.isAc then .ok () else .error false)
  | .reg _ _ => if r == .hostDma || r == .uart then .error false else .ok ()

/-- VIOL_INFO.SRC of a requester on the application side. -/
def Requester.violSrc : Requester → Nat
  | .hspi => 1 | .i2ct => 2 | .uart => 3 | .hostDma => 4 | .acDbg => 5 | _ => 0

/-- R231: FWALL records a refusal (nothing is recorded while LGL is off). -/
def Dev.violation (d : Dev) (r : Requester) (kind addr : Nat) (write : Bool) : Dev :=
  if d.domOn .lgl then
    let ovr := d.on Fld.FWALL_VIOL_INFO_VALID || d.on Fld.FWALL_VIOL_INFO_OVR
    let d := d.wr Reg.FWALL_VIOL_ADDR addr
    let d := d.wr Reg.FWALL_VIOL_INFO (kind + r.violSrc * 8 + b2n write * 64 + 128 + b2n ovr * 256)
    (d.inc Reg.FWALL_VIOL_CNT).raise Ev.FWALL_FW_VIOL
  else d

/-- The answer of the access is set. -/
def Dev.answer (d : Dev) (b : BusResp) : Dev := { d with bus := b }

/-- R21: whether the fabric reaches a domain now; a domain being quiesced holds new accesses, which then go ahead or end
in a bus error as the drop does (R356). -/
def Dev.reaches (d : Dev) (x : Dom) : Bool := d.domOn .sys && d.domOn x

/-- R231: VIOL records hold the bus address of the request. -/
def regAddr (p : Page) (off : Nat) : Nat := pageBase p + off

end Sys2Proof.Machine
end

