-- ==== Sys2Proof/Machine/Flow.lean ====
section
/-! DEFINITION. FLOW: flow, volume, speed of sound, coolant temperature, validity, empty pipes, leaks (R111–R123). -/

namespace Sys2Proof.Machine

/-! ### State -/

def Dev.flowPath (d : Dev) (n : Nat) : FlowPath := vGet d.flow.paths n {}

def Dev.setFlowPath (d : Dev) (n : Nat) (p : FlowPath) : Dev := { d with flow.paths := vSet d.flow.paths n p }

def Dev.outlet (d : Dev) (k : Nat) : Outlet := vGet d.therm k {}

def Dev.setOutlet (d : Dev) (k : Nat) (o : Outlet) : Dev := { d with therm := vSet d.therm k o }

/-- The supply path of outlet `k`, if it has one; then its return path. -/
def Dev.supPath (d : Dev) (k : Nat) : Option Nat :=
  if d.on (Fld.FLOW_OUT_CFG_SUP_EN k) then some (d.f (Fld.FLOW_OUT_CFG_SUP_PATH k)) else none

def Dev.retPath (d : Dev) (k : Nat) : Option Nat :=
  if d.on (Fld.FLOW_OUT_CFG_RET_EN k) then some (d.f (Fld.FLOW_OUT_CFG_RET_PATH k)) else none

/-- R119, R136: a path's flow is unknown. -/
def Dev.flowUnknown (d : Dev) (n : Nat) : Bool := !d.domOn .ufd || (d.flowPath n).causes != 0

/-- VOL_n. -/
def Dev.volume (d : Dev) (n : Nat) : Int := sgn 64 (d.rd (Reg.FLOW_VOL_LO n) + d.rd (Reg.FLOW_VOL_HI n) * 2 ^ 32)

/-- FLOW_n. -/
def Dev.flowQ (d : Dev) (n : Nat) : Int := sgn 32 (d.rd (Reg.FLOW_FLOW n))

/-- COOL_T_n; none while it is invalid. -/
def Dev.coolT (d : Dev) (n : Nat) : Option Int :=
  if d.flowUnknown n || d.on (Fld.FLOW_FLOW_STAT_COOL_OOR n) || d.rd (Reg.FLOW_COOL_T n) == 0x8000 then none
  else some (sgn 16 (d.rd (Reg.FLOW_COOL_T n)))

/-- R123: BILL_VALID of a path. -/
def Dev.flowBill (d : Dev) (n : Nat) : Bool :=
  d.mae.running && (d.coolT n).isSome && (match (d.flowPath n).lastOk with
    | some c => let a := cycDiff d.mae.cyc c; 0 ≤ a && a ≤ 50
    | none => false)

/-! ### Validity -/

/-- R129: the validity of an input of outlet `k` has changed. -/
def Dev.touchOutlet (d : Dev) (k : Nat) : Dev := d.setOutlet k { d.outlet k with due := true }

/-- The same for every outlet that path `n` feeds. -/
def Dev.touchPath (d : Dev) (n : Nat) : Dev :=
  forUpto 4 (fun k d => if d.supPath k == some n || d.retPath k == some n then d.touchOutlet k else d) d

/-- R119: the code CAUSE shows: the lowest that holds. -/
def causeOf (m : Nat) : Nat := ((List.range 6).find? fun c => bit m c).getD 0

/-- R119, R122: the causes of path `n` become `m`. -/
def Dev.setCauses (d : Dev) (n m : Nat) : Dev :=
  let p := d.flowPath n
  let d := d.setFlowPath n { p with causes := m }
  let d := (d.setB (Fld.FLOW_FLOW_STAT_UNKNOWN n) (m != 0)).setF (Fld.FLOW_FLOW_STAT_CAUSE n) (causeOf m)
  if (p.causes != 0) == (m != 0) then d
  else
    let d := (d.raise (if m != 0 then Ev.FLOW_FLOW_UNKNOWN else Ev.FLOW_FLOW_OK)).touchPath n
    if m == 0 then d
    else { d with flow.leaks := d.flow.leaks.map fun w => match w with
      | some w => some { w with void := w.void || w.sup == n || w.ret == n }
      | none => none }

/-! ### Formulas (R112–R117): exact fractions, rounded once -/

/-- R114: the points in use: those up to the last before the first that does not rise. -/
def inUse : List (Nat × Int) → List (Nat × Int)
  | p :: q :: t => if p.1 < q.1 then p :: inUse (q :: t) else [p]
  | l => l

/-- The piecewise linear table at `p / q`, as a fraction; the end values beyond the ends (not for an empty table). -/
def interp : List (Nat × Int) → Nat → Nat → Int × Nat
  | [], _, _ => (0, 1)
  | [a], _, _ => (a.2, 1)
  | a :: b :: t, p, q =>
    if p ≤ a.1 * q then (a.2, 1)
    else if p ≤ b.1 * q then
      (a.2 * ((b.1 - a.1) * q : Nat) + (b.2 - a.2) * ((p : Int) - (a.1 * q : Nat)), (b.1 - a.1) * q)
    else interp (b :: t) p q

/-- The K-factor and sound-speed tables of a path as they are in use. -/
def Dev.kfTable (d : Dev) (n : Nat) : List (Nat × Int) :=
  inUse ((List.range (min 16 (d.f (Fld.FLOW_NPTS_KF_NPTS n)))).map fun j =>
    (d.rd (Reg.FLOW_KF_Q n j), (d.f (Fld.FLOW_KF_K_K n j) : Int)))

def Dev.sosTable (d : Dev) (n : Nat) : List (Nat × Int) :=
  inUse ((List.range (min 16 (d.f (Fld.FLOW_NPTS_SOS_NPTS n)))).map fun j =>
    (d.f (Fld.FLOW_SOS_TBL_C n j), sgn 14 (d.f (Fld.FLOW_SOS_TBL_T n j))))

/-- What a pair gives FLOW (R87, R111). -/
structure PairResult where
  path : Nat
  seq : Nat
  pair : Nat
  tofDn : Nat
  tofUp : Nat
  dt : Int
  ampDn : Nat
  ampUp : Nat
  cyc : Word
  /-- PATH_STAT.STATE was not OK when the result came (R119). -/
  wasBad : Bool
deriving DecidableEq, Repr

/-- R112: a time of flight less T0, in 1/2,048 ps. -/
def Dev.travel (d : Dev) (n tof : Nat) : Int := (tof * 15625 : Nat) - (d.rd (Reg.FLOW_T0 n) * 2048 : Nat)

/-- R119: the geometry of path `n` is set. -/
def Dev.geomOk (d : Dev) (n : Nat) : Bool :=
  d.f (Fld.FLOW_GEOM_L_L n) != 0 && d.f (Fld.FLOW_GEOM_X_X n) != 0 && d.rd (Reg.FLOW_AREA n) != 0

/-- R113, R114: flow in µL/s, as a fraction. -/
def Dev.flowFrac (d : Dev) (r : PairResult) : Int × Nat :=
  let n := r.path
  let l := d.f (Fld.FLOW_GEOM_L_L n)
  let dt := 256 * r.dt - sgn 32 (d.rd (Reg.FLOW_DT0 n))
  let num : Int := dt * (d.rd (Reg.FLOW_AREA n) * l * l * 7812500000 : Nat)
  let den := d.f (Fld.FLOW_GEOM_X_X n) * (d.travel n r.tofDn).toNat * (d.travel n r.tofUp).toNat
  match d.kfTable n with
  | [] => (num, den)
  | t =>
    let k := interp t num.natAbs den
    (num * k.1, den * k.2 * 65536)

/-- R115: the speed of sound in 0.01 m/s. -/
def Dev.soundSpeed (d : Dev) (r : PairResult) : Nat :=
  let a := (d.travel r.path r.tofDn).toNat
  let b := (d.travel r.path r.tofUp).toNat
  roundDivN (d.f (Fld.FLOW_GEOM_L_L r.path) * (a + b) * 102400000000) (max 1 (a * b))

/-- R116: the coolant temperature at speed `c`; none out of range. -/
def Dev.coolAt (d : Dev) (n c : Nat) : Option Int :=
  match d.sosTable n with
  | [] => none
  | a :: t =>
    let z := (a :: t).getLast?.getD a
    if a.1 ≤ c && c ≤ z.1 then
      let x := interp (a :: t) c 1
      some (roundDiv (10 * x.1) x.2)
    else none

/-- R118: volume is added over `clks` modulator clocks at flow `q`. -/
def Dev.addVolume (d : Dev) (n clks : Nat) (q : Int × Nat) : Dev :=
  let add : Int := q.1 * (clks * 2 ^ 64 : Nat) / ((q.2 * 4096000 : Nat) : Int)
  let s := d.volume n * 2 ^ 64 + ((vGet d.flow.volRes n 0 : Nat) : Int) + add
  let v := unsgn 64 (s / 2 ^ 64)
  let d := { d with flow.volRes := vSet d.flow.volRes n (s % 2 ^ 64).toNat }
  (d.wr (Reg.FLOW_VOL_LO n) v).wr (Reg.FLOW_VOL_HI n) (v / 2 ^ 32)

/-! ### A result (R111, R119–R121) -/

/-- R121: the empty test on the smaller amplitude. -/
def Dev.emptyTest (d : Dev) (n amp : Nat) : Dev :=
  let p := d.flowPath n
  let lo := if amp < d.f (Fld.FLOW_EMPTY_EMPTY_AMP n) then p.loRun + 1 else 0
  let hi := if lo = 0 && d.f (Fld.FLOW_EMPTY_EMPTY_REL n) ≤ amp then p.hiRun + 1 else 0
  let need := max 1 (d.f Fld.FLOW_FLOW_CFG_EMPTY_N)
  let was := d.on (Fld.FLOW_FLOW_STAT_EMPTY n)
  let d := d.setFlowPath n { p with loRun := min lo 15, hiRun := min hi 15 }
  let d :=
    if !was && need ≤ lo then ((d.setF (Fld.FLOW_FLOW_STAT_EMPTY n) 1).raise Ev.FLOW_EMPTY).touchPath n
    else if was && need ≤ hi then ((d.setF (Fld.FLOW_FLOW_STAT_EMPTY n) 0).raise Ev.FLOW_EMPTY_CLR).touchPath n
    else d
  d.setF (Fld.FLOW_FLOW_STAT_EMPTY_RUN n) (if d.on (Fld.FLOW_FLOW_STAT_EMPTY n) then min hi 15 else min lo 15)

/-- R120: an OK result ends the stale count. -/
def Dev.staleArrival (d : Dev) (n : Nat) : Dev :=
  let p := d.flowPath n
  let d := d.setFlowPath n { p with stale := 0 }
  if p.stale = max 1 (d.f Fld.FLOW_FLOW_CFG_STALE_TICKS) then
    (d.setF (Fld.FLOW_FLOW_STAT_AT_LIMIT n) 1).raise Ev.FLOW_AT_LIMIT
  else d

/-- R116: COOL_T and its range flag. -/
def Dev.setCool (d : Dev) (n c : Nat) : Dev :=
  let was := d.on (Fld.FLOW_FLOW_STAT_COOL_OOR n)
  match d.coolAt n c with
  | none =>
    let d := (d.wr (Reg.FLOW_COOL_T n) 0x8000).setF (Fld.FLOW_FLOW_STAT_COOL_OOR n) 1
    (if was then d else d.touchPath n).raise Ev.FLOW_COOL_OOR
  | some t =>
    let d := d.setF (Fld.FLOW_FLOW_STAT_COOL_OOR n) 0
    let d := if was then d.touchPath n else d
    d.wrS (Reg.FLOW_COOL_T n) 16 t

/-- R111, R113–R118: what an OK result with a valid configuration gives; `known`: the path was known before and is. -/
def Dev.flowCompute (d : Dev) (r : PairResult) (known : Bool) (unknownNow : Bool) : Dev :=
  let n := r.path
  let q := d.flowFrac r
  let d := match known, (d.flowPath n).lastClk with
    | true, some t => d.addVolume n (d.mae.modClk - t) q
    | _, _ => d
  let d := if unknownNow then d
    else d.wr (Reg.FLOW_FLOW n) (unsgn 32 (clamp (-2147483647) 2147483647 (roundDiv q.1 q.2)))
  let c := d.soundSpeed r
  let c := d.fitU 18 c
  (c.2.wr (Reg.FLOW_SOS n) c.1).setCool n c.1

/-- R111, R118: FLOW processes a result; an interval of volume begins anew once the path has been unknown. -/
def Dev.flowResult (d : Dev) (r : PairResult) : Dev :=
  if d.domOn .ufd then
    let n := r.path
    let p := d.flowPath n
    let ok := r.pair == 0
    let counted := r.pair == 1 || r.pair == 2 || r.pair == 3
    let bad := d.f (Fld.UFE_DRV_PATH_STAT_STATE n) != 0
    let d := (d.setF (Fld.FLOW_FLOW_STAT_SEQ n) r.seq).wr (Reg.FLOW_RES_CYC n) r.cyc.toNat
    let d := if ok then d.staleArrival n else d
    let inv := if ok then 0 else if counted then min 15 (d.f (Fld.FLOW_FLOW_STAT_INV_RUN n) + 1) else d.f (Fld.FLOW_FLOW_STAT_INV_RUN n)
    let d := d.setF (Fld.FLOW_FLOW_STAT_INV_RUN n) inv
    let d := if ok || counted then d.emptyTest n (min r.ampDn r.ampUp) else d
    let valid := d.geomOk n && (!ok || (decide (0 < d.travel n r.tofDn) && decide (0 < d.travel n r.tofUp)))
    let cfg := if r.pair == 4 || !valid then true else if ok then false else bit p.causes 5
    let path := if bad then true else if ok && !r.wasBad then false else bit p.causes 1
    let invalid := if ok then false else bit p.causes 2 || (counted && decide (max 1 (d.f Fld.FLOW_FLOW_CFG_N_INV) ≤ inv))
    let stale := !ok && bit p.causes 3
    let m := b2n path * 2 + b2n invalid * 4 + b2n stale * 8 + b2n (d.on (Fld.FLOW_FLOW_STAT_EMPTY n)) * 16 + b2n cfg * 32
    let d := if ok then d.setFlowPath n { d.flowPath n with lastOk := some r.cyc } else d
    let d := if ok && valid then d.flowCompute r (p.causes == 0 && m == 0) (m != 0) else d
    let d := d.setFlowPath n { d.flowPath n with
      lastClk := if m != 0 then none else if ok then some d.mae.modClk else p.lastClk }
    d.setCauses n m
  else d

/-! ### Ticks and cycles -/

/-- R119: the stale counts go up at a sample tick. -/
def Dev.flowTick (d : Dev) : Dev :=
  if d.domOn .ufd then
    let top := max 1 (d.f Fld.FLOW_FLOW_CFG_STALE_TICKS) + 1
    { d with flow.paths := d.flow.paths.map fun p => { p with stale := min top (p.stale + 1) } }
  else d

/-- R119, R120: the tick in which STALE_TICKS expired has ended without an OK result. -/
def Dev.flowStale (d : Dev) (n : Nat) : Dev :=
  let p := d.flowPath n
  if d.domOn .ufd && decide (max 1 (d.f Fld.FLOW_FLOW_CFG_STALE_TICKS) ≤ p.stale) then d.setCauses n (p.causes ||| 8)
  else d

def Dev.leakWin (d : Dev) (k : Nat) : Option LeakWin := vGet d.flow.leaks k none

def Dev.setLeakWin (d : Dev) (k : Nat) (w : Option LeakWin) : Dev := { d with flow.leaks := vSet d.flow.leaks k w }

/-- R122: a leak window of outlet `k` starts. -/
def Dev.leakStart (d : Dev) (k : Nat) : Dev :=
  match d.supPath k, d.retPath k with
  | some s, some r =>
    let w : LeakWin :=
      { sup := s, ret := r, vSup := d.volume s, vRet := d.volume r, void := d.flowUnknown s || d.flowUnknown r }
    (d.setLeakWin k (some w)).setF (Fld.FLOW_LEAK_STAT_WIN_LEFT k) (max 1 (d.f (Fld.FLOW_LEAK_WIN_WIN k)))
  | _, _ => (d.setLeakWin k none).setF (Fld.FLOW_LEAK_STAT_WIN_LEFT k) 0

/-- R122: angle 0x0000 counts every window down; an outlet without one starts it. -/
def Dev.flowZero (d : Dev) : Dev :=
  if d.domOn .ufd then
    forUpto 4 (fun k d =>
      match d.leakWin k with
      | some w =>
        if d.supPath k == some w.sup && d.retPath k == some w.ret then
          d.setF (Fld.FLOW_LEAK_STAT_WIN_LEFT k) (d.f (Fld.FLOW_LEAK_STAT_WIN_LEFT k) - 1)
        else d.leakStart k
      | none => d.leakStart k) d
  else d

/-- R122: the window of outlet `k` ends. -/
def Dev.leakEnd (d : Dev) (k : Nat) : Dev :=
  match d.leakWin k with
  | some w =>
    if d.f (Fld.FLOW_LEAK_STAT_WIN_LEFT k) = 0 then
      let d :=
        if w.void then (d.setF (Fld.FLOW_LEAK_STAT_VOID k) 1).raise Ev.FLOW_LEAK_VOID
        else
          let diff := (d.volume w.sup - w.vSup) - (d.volume w.ret - w.vRet)
          let d := d.setF (Fld.FLOW_LEAK_STAT_VOID k) 0
          let d := d.wrS (Reg.FLOW_LEAK_DIFF k) 32 diff
          if d.rd (Reg.FLOW_LEAK_THR k) < diff.natAbs then
            let was := d.on (Fld.FLOW_LEAK_STAT_LEAK k)
            let d := (d.setF (Fld.FLOW_LEAK_STAT_LEAK k) 1).raise Ev.FLOW_LEAK
            if was then d else d.touchOutlet k
          else d
      d.leakStart k
    else d
  | none => d

/-! ### Registers -/

/-- FLOW_STAT_n as it reads (R123). -/
def Dev.flowStat (d : Dev) (n : Nat) : Nat := setBits (d.rd (Reg.FLOW_FLOW_STAT n)) 7 1 (b2n (d.flowBill n))

/-- FLOW as a reset of UFD leaves it: the residues stand in retention flops unless those are lost (R118). -/
def Dev.flowReset (d : Dev) (k : ResetKind) : Dev :=
  { d with flow := { volRes := if k == .lose then Vector.replicate 4 0 else d.flow.volRes } }

end Sys2Proof.Machine
end

