-- ==== Sys2Proof/Machine/Rtd.lean ====
section
/-! DEFINITION. RTD: conversions, resistance to temperature, wire faults (R124–R128). -/

namespace Sys2Proof.Machine

/-- R126: the resistance ratio of IEC 60751 at `h` times 0.005 °C, times 1.6 × 10²⁴. -/
def iecRatio (h : Int) : Int :=
  16 * 10 ^ 23 + 39083 * (8 * 10 ^ 14) * h - 5775 * (4 * 10 ^ 9) * h * h
    - (if h < 0 then 4183 * (h - 20000) * h * h * h else 0)

/-- R126: whether ratio `r` (in the scale of `iecRatio`) reaches what rounds to `t` times 0.01 °C. -/
def iecReaches (r t : Int) : Bool := if 0 < t then iecRatio (2 * t - 1) ≤ r else iecRatio (2 * t - 1) < r

/-- The greatest `t` from `lo` to `lo + 2^fuel - 1` that `r` reaches, where `r` reaches `lo`. -/
def iecSearch (r : Int) : Nat → Int → Int
  | 0, lo => lo
  | f + 1, lo => iecSearch r f (if iecReaches r (lo + 2 ^ f) then lo + 2 ^ f else lo)

/-- R126: the temperature in 0.01 °C for a calibrated resistance in nΩ; none out of −50.00 to +250.00 °C. -/
def iecTemp (rnom : Nat) (nohm : Int) : Option Int :=
  let r := nohm * (16 * 10 ^ 14) / (rnom : Int)
  if iecReaches r (-5000) && !iecReaches r 25001 then some (iecSearch r 15 (-5000)) else none

/-- R128: BILL_VALID of a channel. -/
def Dev.rtdBill (d : Dev) (n : Nat) : Bool :=
  d.mae.running && d.f (Fld.RTD_RTD_STAT_CODE n) == 0 && (match vGet d.rtd.done n none with
    | some c => let a := cycDiff d.mae.cyc c; 0 ≤ a && a ≤ 50
    | none => false)

/-- A channel's temperature where its last code is OK; none while UFA is not on (R136, R360). -/
def Dev.rtdTemp (d : Dev) (n : Nat) : Option Int :=
  if d.domOn .ufa && d.f (Fld.RTD_RTD_STAT_CODE n) == 0 then some (sgn 16 (d.f (Fld.RTD_RTD_TEMP_T n))) else none

/-- RTD_STAT_n as it reads. -/
def Dev.rtdStat (d : Dev) (n : Nat) : Nat := setBits (d.rd (Reg.RTD_RTD_STAT n)) 13 1 (b2n (d.rtdBill n))

/-- RTD_STATUS as it reads. -/
def Dev.rtdStatus (d : Dev) : Nat :=
  match d.rtd.conv with
  | some c => c.ch + 8
  | none => 0

/-- Outlets whose enabled connector channels include `n`. -/
def Dev.touchChannel (d : Dev) (n : Nat) : Dev :=
  forUpto 4 (fun k d =>
    if (d.on (Fld.THERM_OUT_EN_CONN_A_EN k) && d.f (Fld.THERM_OUT_EN_CONN_A k) == n)
      || (d.on (Fld.THERM_OUT_EN_CONN_B_EN k) && d.f (Fld.THERM_OUT_EN_CONN_B k) == n) then d.touchOutlet k else d) d

/-- A result of channel `n` is written: code, calibrated resistance in mΩ, lead, temperature, wires.  R132: it ends the
channel's run of evaluations without a result. -/
def Dev.rtdWrite (d : Dev) (n code : Nat) (slow : Bool) (rcal lead : Nat) (t : Option Int) (wires : Nat) : Dev :=
  let was := d.f (Fld.RTD_RTD_STAT_CODE n)
  let seq := (d.f (Fld.RTD_RTD_STAT_SEQ n) + 1) % 256
  let cyc := if d.mae.running then d.mae.cyc else 0
  let d := d.wr (Reg.RTD_RTD_STAT n) (seq + code * 256 + 2 ^ 11 + b2n slow * 2 ^ 12 + wires * 2 ^ 16)
  let d := (d.wr (Reg.RTD_RTD_RES n) rcal).wr (Reg.RTD_RTD_LEAD n) (lead % 2 ^ 24)
  let d := d.wr (Reg.RTD_RTD_TEMP n) ((match t with
    | some t => unsgn 16 t
    | none => 0x8000) + cyc.toNat % 65536 * 65536)
  let d := { d with
    rtd.done := vSet d.rtd.done n (if d.mae.running then Option.some d.mae.cyc else Option.none)
    therm := d.therm.map fun o : Outlet => ({ o with stale := vSet o.stale n 0 } : Outlet) }
  let d := d.raise Ev.RTD_CONV_DONE
  let d := (d.raiseIf (code == 1) Ev.RTD_BROKEN).raiseIf (code == 2) Ev.RTD_SHORT
  let d := d.raiseIf (code == 3) Ev.RTD_OOR
  if (was == 0) != (code == 0) then d.touchChannel n else d

/-- A result without a measurement (ABORT, NONE): its resistances are not stated. -/
def Dev.rtdNoResult (d : Dev) (n code : Nat) (slow : Bool) : Dev :=
  match d.fresh with
  | (a, d) => match d.fresh with
    | (b, d) => d.rtdWrite n code slow a.toNat b.toNat none 0

/-- R124: a conversion of channel `n` starts (a disabled channel completes with code NONE). -/
def Dev.rtdStart (d : Dev) (n : Nat) (slow : Bool) : Dev :=
  if d.on (Fld.RTD_RTD_CFG_EN n) then
    let discard := d.rtd.prev != some n || bit d.rtd.dirty n
    { d with
      rtd.conv := some { ch := n, slow := slow, discard := discard }
      rtd.prev := some n
      rtd.dirty := setBits d.rtd.dirty n 1 0 }
  else d.rtdNoResult n 7 slow

/-- R125–R127: what measurement `m` of channel `n` gives: code, calibrated resistance in mΩ, lead, temperature, wires. -/
def Dev.rtdJudge (d : Dev) (n : Nat) (m : RtdMeas) : (Nat × Nat × Nat × Option Int × Nat) × Dev :=
  let three := d.on (Fld.RTD_RTD_CFG_WIRES n)
  let wires := if three then m.openWires.toNat else m.openWires.toNat % 4
  let rnom := if d.on (Fld.RTD_RTD_CFG_TYPE n) then 1000 else 100
  match (if three && wires = 0 then (m.rLead, d) else match d.fresh with
    | (v, d) => (v.toNat, d)) with
  | (lead, d) =>
    if wires != 0 then
      match d.fresh with
      | (v, d) => ((1, v.toNat, lead, none, wires), d)
    else
      let rt : Int := m.rLoop - (if three then (2 * m.rLead : Nat) else d.f (Fld.RTD_LEAD2_LEAD n) : Nat)
      let gain := sgn 16 (d.f (Fld.RTD_CAL_GAIN n))
      let nohm := rt * (1000000 + gain) + sgn 16 (d.f (Fld.RTD_CAL_OFS n)) * 1000000
      let rcal := unsgn 32 (roundDiv nohm 1000000)
      if rt * 10 < (6000 * rnom : Nat) then ((2, rcal, lead, none, 0), d)
      else match iecTemp rnom nohm with
        | some t => ((0, rcal, lead, some t, 0), d)
        | none => ((3, rcal, lead, none, 0), d)

/-- R127: the conversion in progress has measured `m` and its result is written. -/
def Dev.rtdResult (d : Dev) (c : RtdConv) (m : RtdMeas) : Dev :=
  match d.rtdJudge c.ch m with
  | ((code, rcal, lead, t, wires), d) => { d.rtdWrite c.ch code c.slow rcal lead t wires with rtd.conv := none }

/-- R124, R127: the discarded conversion ends: with the fault it found, or going on to the one that counts. -/
def Dev.rtdDiscardDone (d : Dev) (m : RtdMeas) : Dev :=
  match d.rtd.conv with
  | some c =>
    if c.discard then
      if (d.rtdJudge c.ch m).1.1 == 1 || (d.rtdJudge c.ch m).1.1 == 2 then d.rtdResult c m
      else { d with rtd.conv := some { c with discard := false } }
    else d
  | none => d

/-- R125–R127: the conversion that counts ends. -/
def Dev.rtdConvDone (d : Dev) (m : RtdMeas) : Dev :=
  match d.rtd.conv with
  | some c => if c.discard then d else d.rtdResult c m
  | none => d

/-- R124: a write of MAN_CONV. -/
def Dev.rtdManual (d : Dev) (v : Nat) : Dev :=
  if bit v 31 then
    if d.rtd.conv.isSome then d.raise Ev.RTD_MAN_REJ else d.rtdStart (bits v 0 3) (bit v 3)
  else d

/-- R124: a write to the configuration of channel `n` is done; a conversion of it stops with code ABORT. -/
def Dev.rtdConfigured (d : Dev) (n : Nat) : Dev :=
  let d := { d with rtd.dirty := setBits d.rtd.dirty n 1 1 }
  match d.rtd.conv with
  | some c => if c.ch == n then { d.rtdNoResult n 4 c.slow with rtd.conv := none } else d
  | none => d

end Sys2Proof.Machine
end

