-- ==== Sys2Proof/Machine/Therm.lean ====
section
/-! DEFINITION. THERM: the current limit of each DC outlet (R129–R136). -/

namespace Sys2Proof.Machine

/-! ### Inputs (R130, R132) -/

/-- The enabled connector channels of outlet `k`. -/
def Dev.connChannels (d : Dev) (k : Nat) : List Nat :=
  (if d.on (Fld.THERM_OUT_EN_CONN_A_EN k) then [d.f (Fld.THERM_OUT_EN_CONN_A k)] else [])
  ++ (if d.on (Fld.THERM_OUT_EN_CONN_B_EN k) then [d.f (Fld.THERM_OUT_EN_CONN_B k)] else [])

/-- The paths the COOL input of outlet `k` is taken from: supply, return or both. -/
def Dev.coolSrc (d : Dev) (k : Nat) : Nat := if d.f (Fld.THERM_OUT_EN_COOL_SRC k) = 3 then 0 else d.f (Fld.THERM_OUT_EN_COOL_SRC k)

/-- The coolant temperature of a path that may be absent. -/
def Dev.coolOf (d : Dev) (p : Option Nat) : Option Int := p.bind d.coolT

/-- R130: the input of criterion `c` (0 CONN, 1 COOL in 0.01 °C or K, 2 FLOW in µL/s); none while it is invalid. -/
def Dev.thermInput (d : Dev) (k c : Nat) : Option Int :=
  match c with
  | 0 =>
    match (d.connChannels k).map d.rtdTemp with
    | [some a] => some a
    | [some a, some b] => some (max a b)
    | _ => none
  | 1 =>
    match d.coolSrc k with
    | 0 => d.coolOf (d.supPath k)
    | 1 => d.coolOf (d.retPath k)
    | _ =>
      match d.coolOf (d.supPath k), d.coolOf (d.retPath k) with
      | some a, some b => some (b - a)
      | _, _ => none
  | _ =>
    match d.supPath k with
    | some n => if d.flowUnknown n then none else some (d.flowQ n)
    | none => none

def Dev.unknownOf (d : Dev) (p : Option Nat) : Bool := p.any d.flowUnknown

def Dev.oorOf (d : Dev) (p : Option Nat) : Bool := p.any fun n => d.on (Fld.FLOW_FLOW_STAT_COOL_OOR n)

/-- R132: the condition of fault `c` (0 FU, 1 RTDF, 2 DRY). -/
def Dev.faultCond (d : Dev) (k c : Nat) : Bool :=
  match c with
  | 0 =>
    let s := d.supPath k
    let r := d.retPath k
    let src := d.coolSrc k
    d.unknownOf s || (src != 0 && d.unknownOf r) || (src != 1 && d.oorOf s) || (src != 0 && d.oorOf r)
  | 1 =>
    let need := max 1 (d.f Fld.THERM_THERM_CFG_STALE_EVALS)
    (d.connChannels k).any fun n => (d.rtdTemp n).isNone || decide (need < vGet (d.outlet k).stale n 0)
  | _ =>
    d.on (Fld.FLOW_LEAK_STAT_LEAK k)
    || (d.supPath k).any (fun n => d.on (Fld.FLOW_FLOW_STAT_EMPTY n))
    || (d.retPath k).any (fun n => d.on (Fld.FLOW_FLOW_STAT_EMPTY n))

/-! ### Criteria (R130, R131) -/

/-- The row register of criterion `c`, row `j`. -/
def rowReg (k c j : Nat) : Nat := if c = 0 then Reg.THERM_TC k j else if c = 1 then Reg.THERM_TW k j else Reg.THERM_FL k j

/-- R130: whether row `j` of criterion `c` is crossed by `x`, and whether it is released. -/
def Dev.rowState (d : Dev) (k c j : Nat) (x : Int) : Bool × Bool :=
  let thr := sgn 16 (bits (d.rd (rowReg k c j)) 0 16) * 10
  if c = 2 then (x ≤ thr, thr + (d.f Fld.THERM_THERM_CFG_FLOW_HYST * 10 : Nat) < x)
  else (thr ≤ x, x < thr - (max 5 (d.f Fld.THERM_THERM_CFG_HYST) * 10 : Nat))

/-- R131: the highest enabled row for which `p` holds; 0 for none. -/
def Dev.topRow (d : Dev) (k c : Nat) (p : Nat → Bool) : Nat :=
  [1, 2, 3].foldl (fun m j => if bit (d.rd (rowReg k c j)) 31 && p j then j else m) 0

def levelField (k c : Nat) : Field :=
  if c = 0 then Fld.THERM_ILIM_LVL_CONN k else if c = 1 then Fld.THERM_ILIM_LVL_COOL k else Fld.THERM_ILIM_LVL_FLOW k

/-- RUN_k: the worse and the better run of criterion `c`. -/
def worseField (k c : Nat) : Field := ⟨Reg.THERM_RUN k, 8 * c, 4⟩
def betterField (k c : Nat) : Field := ⟨Reg.THERM_RUN k, 8 * c + 4, 4⟩

def Dev.dwell (d : Dev) : Nat := max 1 (d.f Fld.THERM_THERM_CFG_DWELL)

def Dev.setCrit (d : Dev) (k c : Nat) (x : Criterion) : Dev :=
  d.setOutlet k { d.outlet k with crit := vSet (d.outlet k).crit c x }

/-- R131: a task evaluation of criterion `c` with input `x`. -/
def Dev.critStep (d : Dev) (k c : Nat) (x : Int) : Dev :=
  let cr := vGet (d.outlet k).crit c {}
  let u := d.topRow k c fun j => (d.rowState k c j x).1
  let dn := d.topRow k c fun j => !(d.rowState k c j x).2
  let l := d.f (levelField k c)
  if l < u then
    let w := d.f (worseField k c) + 1
    let su := if w = 1 then u else min cr.su u
    let d := d.setF (betterField k c) 0
    if d.dwell ≤ w then
      ((d.setF (levelField k c) su).setF (worseField k c) 0).setCrit k c { cr with su := 0, sd := 0 }
    else (d.setF (worseField k c) w).setCrit k c { cr with su := su, sd := 0 }
  else if dn < l then
    let b := d.f (betterField k c) + 1
    let sd := if b = 1 then dn else max cr.sd dn
    let d := d.setF (worseField k c) 0
    if d.dwell ≤ b then
      ((d.setF (levelField k c) sd).setF (betterField k c) 0).setCrit k c { cr with su := 0, sd := 0 }
    else (d.setF (betterField k c) b).setCrit k c { cr with su := 0, sd := sd }
  else (d.setF (worseField k c) 0).setF (betterField k c) 0

/-- R131: criterion `c` in an evaluation: frozen while its input is invalid, from zero when it is valid again. -/
def Dev.critEval (d : Dev) (k c : Nat) (task : Bool) : Dev :=
  let cr := vGet (d.outlet k).crit c {}
  match d.thermInput k c with
  | none => d.setCrit k c { cr with valid := false }
  | some x =>
    let d :=
      if cr.valid then d
      else (((d.setF (levelField k c) 0).setF (worseField k c) 0).setF (betterField k c) 0).setCrit k c { valid := true }
    if task then d.critStep k c x else d

/-! ### An evaluation (R129–R135) -/

def faultField (k c : Nat) : Field :=
  if c = 0 then Fld.THERM_ILIM_FU k else if c = 1 then Fld.THERM_ILIM_RTDF k else Fld.THERM_ILIM_DRY k

/-- R132: fault limit `c` comes into force, or lifts after DWELL task evaluations without its condition. -/
def Dev.faultEval (d : Dev) (k c : Nat) (task : Bool) : Dev :=
  let o := d.outlet k
  if d.faultCond k c then
    let d := d.setOutlet k { o with absent := vSet o.absent c 0 }
    let was := d.on (faultField k c)
    (d.setF (faultField k c) 1).raiseIf (!was) (if c = 2 then Ev.THERM_DRY else Ev.THERM_FAULT_LIM)
  else if task && d.on (faultField k c) then
    let n := vGet o.absent c 0 + 1
    if d.dwell ≤ n then (d.setOutlet k { o with absent := vSet o.absent c 0 }).setF (faultField k c) 0
    else d.setOutlet k { o with absent := vSet o.absent c n }
  else d

/-- The current that criterion `c` allows at its level. -/
def Dev.critLimit (d : Dev) (k c : Nat) : Nat :=
  let l := d.f (levelField k c)
  if l = 0 then d.f (Fld.THERM_ILIM_MAX_I k) else bits (d.rd (rowReg k c l)) 16 15

/-- The limit of fault `c`. -/
def Dev.faultLimit (d : Dev) (k c : Nat) : Nat :=
  if c = 0 then d.f (Fld.THERM_ILIM_FAULT_ILIM_FU k) else if c = 1 then d.f (Fld.THERM_ILIM_FAULT_ILIM_RTDF k)
  else d.f (Fld.THERM_ILIM_DRY_I k)

/-- R133: the limit in force. -/
def Dev.ilim (d : Dev) (k : Nat) : Nat :=
  let crit := [0, 1, 2].map (d.critLimit k)
  let fault := ([0, 1, 2].filter fun c => d.on (faultField k c)).map (d.faultLimit k)
  (crit ++ fault).foldl min (d.f (Fld.THERM_ILIM_MAX_I k))

/-- R135: HEAT_k. -/
def Dev.heatEval (d : Dev) (k : Nat) : Dev :=
  match d.supPath k, d.coolOf (d.supPath k), d.coolOf (d.retPath k) with
  | some n, some a, some b =>
    let w := roundDiv (d.flowQ n * (d.f Fld.THERM_VHC_VHC : Nat) * (b - a)) 100000000
    (d.wrS (Reg.THERM_HEAT k) 31 w).setF (Fld.THERM_HEAT_HEAT_VALID k) 1
  | _, _, _ => d.wr (Reg.THERM_HEAT k) 0

/-- R135: HEAT_k as it reads: what the last task evaluation found, while both paths are valid. -/
def Dev.heatWord (d : Dev) (k : Nat) : Nat :=
  if (d.coolOf (d.supPath k)).isSome && (d.coolOf (d.retPath k)).isSome then d.rd (Reg.THERM_HEAT k) else 0

/-- Whether any HOT ball is driven high by its outlet. -/
def Dev.anyHot (d : Dev) : Bool := [0, 1, 2, 3].any fun k => d.on (Fld.THERM_ILIM_HOT k)

/-- R135: the outlet current in mA against the limit, in a task evaluation. -/
def Dev.overEval (d : Dev) (k cur : Nat) : Dev :=
  let o := d.outlet k
  if d.f (Fld.THERM_ILIM_I k) * 102 + 1000 < cur then
    (d.setOutlet k { o with above := min 16 (o.above + 1) }).raiseIf (o.above + 1 == d.dwell) Ev.THERM_OVER_ILIM
  else d.setOutlet k { o with above := 0 }

/-- R129–R135: an evaluation of outlet `k`, a task evaluation with the outlet's current in mA or a fault evaluation. -/
def Dev.thermEval (d : Dev) (k : Nat) (task : Option Nat) : Dev :=
  if d.domOn .ufd && d.on (Fld.THERM_OUT_EN_EN k) then
    let t := task.isSome
    let lvls := [0, 1, 2].map fun c => d.f (levelField k c)
    let was := d.f (Fld.THERM_ILIM_I k)
    let d := d.setOutlet k { d.outlet k with due := false }
    let d :=
      if t then
        let o := d.outlet k
        let ch := d.connChannels k
        let st := forUpto 8 (fun n s => if ch.contains n then vSet s n (min 17 (vGet s n 0 + 1)) else s) o.stale
        (d.setOutlet k { o with stale := st }).inc (Reg.THERM_EVAL_CNT k)
      else d
    let d := forUpto 3 (fun c d => d.faultEval k c t) d
    let d := forUpto 3 (fun c d => d.critEval k c t) d
    let i := d.ilim k
    let d := d.setF (Fld.THERM_ILIM_I k) i
    let d := d.setB (Fld.THERM_ILIM_HOT k) (decide (i < d.f (Fld.THERM_ILIM_MAX_I k)))
    let now := [0, 1, 2].map fun c => d.f (levelField k c)
    let d := d.raiseIf (i != was) Ev.THERM_ILIM_CHG
    let d := d.raiseIf ((lvls.zip now).any fun p => p.1 < p.2) Ev.THERM_LVL_UP
    let d := d.raiseIf ((lvls.zip now).any fun p => p.2 < p.1) Ev.THERM_LVL_DOWN
    let d := d.heatEval k
    let d := match task with
      | some cur => d.overEval k cur
      | none => d
    d.level Ev.THERM_HOT_ANY d.anyHot
  else d

/-- R129: a fault evaluation of outlet `k`, where one is due. -/
def Dev.thermFault (d : Dev) (k : Nat) : Dev := if (d.outlet k).due then d.thermEval k none else d

/-- R129: a THERM_EVAL task with mask `mask`; a fault evaluation that is due runs first. -/
def Dev.thermTask (d : Dev) (mask : Nat) (cur : Nat → Nat) : Dev :=
  forUpto 4 (fun k d => if bit mask k then (d.thermFault k).thermEval k (some (cur k)) else d) d

/-- R133: a write has changed OUT_EN_k.EN or other settings; while EN = 0 the ball is low. -/
def Dev.thermEnable (d : Dev) (k : Nat) : Dev :=
  let d := if d.on (Fld.THERM_OUT_EN_EN k) then d.touchOutlet k else d.setF (Fld.THERM_ILIM_HOT k) 0
  d.level Ev.THERM_HOT_ANY d.anyHot

end Sys2Proof.Machine
end

