-- ==== Sys2Proof/Machine/Ufe.lean ====
section
/-! DEFINITION. The ultrasonic front end: pairs, shots, correlation, results, path states (R82–R110). -/

namespace Sys2Proof.Machine

/-! ### The values loaded at acceptance (R85, R86, R91–R95, R100) -/

def Pair.extDrv (p : Pair) : Bool := bit p.drv 13
def Pair.extStart (p : Pair) : Bool := bit p.drv 14
def Pair.minTof (p : Pair) : Nat := max 1 (bits p.win 0 12)
def Pair.winEnd (p : Pair) : Nat := max p.minTof (bits p.win 12 12)
def Pair.capStart (p : Pair) : Nat := min 3071 (bits p.cap 0 12)
def Pair.capLen (p : Pair) : Nat := if bits p.cap 12 4 = 0 then 1024 else 64 * bits p.cap 12 4
def Pair.lagMax (p : Pair) : Nat := min 16 (max 1 (bits p.cap 16 5))
/-- R89: half a period of the burst, in coarse clocks, and its periods. -/
def Pair.halfPer (p : Pair) : Nat := min 128 (max 16 (bits p.drv 0 8))
def Pair.nPer (p : Pair) : Nat := max 1 (bits p.drv 8 5)
def Pair.rstRel (p : Pair) : Nat := min 3071 (bits p.rx 8 12)
/-- R91: the feedback capacitor, in pF. -/
def Pair.cf (p : Pair) : Nat := 2 ^ bits p.rx 0 2
/-- R95: the threshold of the comparator, in mV at the PGA output. -/
def Pair.hitThr (p : Pair) : Nat := 4 * max 1 (bits p.hit 0 8)
/-- R86: SHOT_END, and the samples from the downstream fire edge to the upstream one. -/
def Pair.shotEnd (p : Pair) : Nat := max (p.winEnd + 1) (p.capStart + p.capLen)
def Pair.spacing (p : Pair) : Nat := max (min 16000 (max 2400 (bits p.gap 0 14))) (p.shotEnd + 16)

/-- R92: the PGA gain at sample `k` of a shot, in dB. -/
def Pair.pga (p : Pair) (k : Nat) : Nat := if k < bits p.rx 20 12 then p.gain - min 40 (bits p.rx 2 6) else p.gain

/-- R91–R93: whether sample `k` is masked. -/
def Pair.masked (p : Pair) (k : Nat) : Bool :=
  let gsw := bits p.rx 20 12
  (p.rstRel ≤ k && k < p.rstRel + 32) || (p.pga 0 != p.pga gsw && gsw ≤ k && k < gsw + 16)

/-- R93: a masked index lies in the capture. -/
def Pair.captureMasked (p : Pair) : Bool := (List.range p.capLen).any fun i => p.masked (p.capStart + i)

/-! ### Acceptance -/

/-- R60, R84, R87: a pair is in flight, or the 128 MHz clock is not there. -/
def Dev.ufeBusy (d : Dev) : Bool := d.ufe.pair.isSome || !d.pwr.pllS || !d.on Fld.CLK_OUT_EN_TDC128

/-- R82: the upstream shot, with the balls exchanged or not, is transmitted by ball B. -/
def Pair.byB (p : Pair) (up : Bool) : Bool := up != p.swap

/-- The ball of the path that transmits a shot, and the one that receives it. -/
def Pair.txBall (p : Pair) (up : Bool) : Nat := 2 * p.path + b2n (p.byB up)
def Pair.rxBall (p : Pair) (up : Bool) : Nat := 2 * p.path + b2n !(p.byB up)

/-- R85, R88: until the fire edge of a shot the reset switch is closed, and the ball that is to receive it is connected to
the path's charge amplifier. -/
def Dev.ufeArm (d : Dev) (p : Pair) (up : Bool) : Dev :=
  { d with ufe.open_ := false, ufe.burst := none, ufe.rx := some (p.rxBall up, p.cf) }

/-- No pair is in flight: no burst, and no ball on a charge amplifier. -/
def Dev.ufeRest (d : Dev) : Dev := { d with ufe.pair := none, ufe.open_ := false, ufe.burst := none, ufe.rx := none }

/-- R83, R85: a pair on path `n` with shot set `s` is accepted. -/
def Dev.pairStart (d : Dev) (n s src task : Nat) (late deferred atLimit : Bool) : Dev :=
  let p : Pair := {
      path := n, src := src, task := task, late := late, deferred := deferred, atLimit := atLimit
      en := d.on (Fld.UFE_DRV_PATH_CFG_EN n), swap := d.on (Fld.UFE_DRV_PATH_CFG_SWAP n)
      drv := d.rd (Reg.UFE_DRV_SET_DRV s), rx := d.rd (Reg.UFE_RX_SET_RX s), hit := d.rd (Reg.UFE_RX_SET_HIT s)
      win := d.rd (Reg.UFE_TOF_SET_WIN s), cap := d.rd (Reg.UFE_TOF_SET_CAP s), gap := d.rd (Reg.UFE_TOF_SET_GAP s)
      gain := min 40 (d.f (Fld.UFE_RX_PATH_GAIN_GAIN n))
      openThr := d.f Fld.UFE_DRV_DRV_THR_OPEN_THR
      shortThr := min 200 (max 20 (d.f Fld.UFE_DRV_DRV_THR_SHORT_THR))
      peakMin := d.f Fld.UFE_TOF_CORR_CFG_PEAK_MIN }
  let d : Dev := { d with ufe.pair := some p }
  if p.en then d.ufeArm p false else d

/-! ### The shots -/

/-- The shot in flight: `some false` downstream, `some true` upstream. -/
def Pair.flying (p : Pair) : Option Bool :=
  if p.dn.fired && !p.dn.ended then some false
  else if p.up.fired && !p.up.ended then some true
  else none

def Pair.shot (p : Pair) (up : Bool) : Shot := if up then p.up else p.dn

def Pair.setShot (p : Pair) (up : Bool) (s : Shot) : Pair := if up then { p with up := s } else { p with dn := s }

/-- The shot whose fire edge is next. -/
def Pair.nextFire (p : Pair) : Option Bool :=
  if !p.en then none
  else if !p.dn.fired then some false
  else if p.dn.ended && !p.up.fired then some true
  else none

def ipkField (n : Nat) (b : Bool) : Field := if b then Fld.UFE_DRV_IPK_IPK_B n else Fld.UFE_DRV_IPK_IPK_A n

/-- R89, R90, R104: the burst of a shot; `short`: the coarse clock in which the driver's current passed SHORT_THR. -/
def Pair.burst (p : Pair) (up : Bool) (short : Option Nat) : Burst :=
  let whole := 2 * p.halfPer * p.nPer
  { ball := p.txBall up, half := p.halfPer, ext := p.extDrv
    stop := match short with
      | some c => min whole ((c / p.halfPer + 1) * p.halfPer)
      | none => whole }

/-- R86, R89, R104, R107: the fire edge of the next shot, with peak driver current `ipk` in mA, which passes SHORT_THR, if
it does, `past` coarse clocks after the edge. -/
def Dev.shotFire (d : Dev) (ipk past : Nat) : Dev :=
  match d.ufe.pair with
  | none => d
  | some p =>
    match p.nextFire with
    | none => d
    | some up =>
      let drive := if p.extDrv then 0 else if p.shortThr < ipk then 3 else if ipk < p.openThr then 2 else 0
      let known := d.mae.running
      let p := p.setShot up { fired := true, drive := drive }
      let p := if up then p else { p with
        cyc := if known then d.mae.cyc else 0, ang := if known then d.mae.angle else 0 }
      let d : Dev := { d with
        ufe.pair := some p, ufe.burst := some (p.burst up (if drive == 3 then some past else none)) }
      if p.extDrv then d else d.setF (ipkField p.path (p.byB up)) ipk

/-- R89, R91: the shot in flight has come to `t` ticks after its fire edge: the reset switch opens at RST_REL and closes at
SHOT_END, and the burst ends. -/
def Dev.shotAt (d : Dev) (p : Pair) (t : Nat) : Dev :=
  { d with
    ufe.open_ := p.rstRel ≤ t / 8192 && t / 8192 < p.shotEnd
    ufe.burst := d.ufe.burst.filter fun b => t / 1024 < b.stop }

/-- R95: the PGA output of `mv` mV lies beyond the threshold on the side that POL chooses. -/
def Pair.crosses (p : Pair) (mv : Int) : Bool :=
  if bit p.hit 8 then mv ≤ -(p.hitThr : Int) else (p.hitThr : Int) ≤ mv

/-- R95, R97: the PGA output passes `mv` mV at `t` ticks after the fire edge; the first unmasked hit in the window stops
the TDC. -/
def Dev.firstHit (d : Dev) (t : Nat) (mv : Int) : Dev :=
  match d.ufe.pair with
  | none => d
  | some p =>
    match p.flying with
    | none => d
    | some up =>
      let k := t / 8192
      let d := d.shotAt p t
      if p.crosses mv && (p.shot up).hit.isNone && p.minTof ≤ k && k ≤ p.winEnd && !p.masked k then
        { d with ufe.pair := some (p.setShot up { p.shot up with hit := some t }) }
      else d

/-- R98: the first UFE_XSTART edge after the fire edge, at `t` ticks. -/
def Dev.xstart (d : Dev) (t : Nat) : Dev :=
  match d.ufe.pair with
  | none => d
  | some p =>
    match p.flying with
    | none => d
    | some up =>
      let d := d.shotAt p t
      if p.extStart && (p.shot up).start.isNone && t < (p.winEnd + 1) * 8192 then
        { d with ufe.pair := some (p.setShot up { p.shot up with start := some t }) }
      else d

/-- R93, R100: the capture of `samples` with the masks. -/
def Pair.capture (p : Pair) (samples : List (BitVec 12)) : List Int :=
  (List.range p.capLen).map fun i =>
    let k := p.capStart + i
    if 4095 < k || p.masked k then 0 else ((samples[i]?).getD 0).toInt

/-- R86, R88, R100: the shot in flight ends; between the shots the balls stand as for the upstream one. -/
def Dev.shotEnd (d : Dev) (samples : List (BitVec 12)) : Dev :=
  match d.ufe.pair with
  | none => d
  | some p =>
    match p.flying with
    | none => d
    | some up =>
      let xs := p.capture samples
      let clip := xs.any fun x => x == -2048 || x == 2047
      let p := p.setShot up { p.shot up with ended := true, capt := xs, clip := clip }
      ({ d with ufe.pair := some p }.ufeArm p true).raiseIf clip Ev.UFE_RX_CLIP

/-- R99: the code of a shot: 0 OK, 1 NOHIT, 2 OPEN, 3 SHORT, 4 ORDER, 5 SUB_TICK, 6 NOSTART, 7 ABORT; R96, R98: and its
time of flight (a DISABLED pair has no codes). -/
def Pair.code (p : Pair) (s : Shot) : Nat × Nat :=
  if !s.ended then (7, 0)
  else if s.drive != 0 then (s.drive, 0)
  else match p.extStart, s.start, s.hit with
    | true, none, _ => (6, 0)
    | _, _, none => (1, 0)
    | true, some a, some b => if b < a then (4, 0) else if b = a then (5, 0) else (0, b - a)
    | false, _, some b => (0, b)

/-- R97: the stopping hit lies within sample WIN_END. -/
def Pair.shotAtLimit (p : Pair) (s : Shot) : Bool := s.hit.any fun t => t / 8192 == p.winEnd

/-- R100: the largest magnitude of a capture. -/
def Shot.amp (s : Shot) : Nat := s.capt.foldl (fun m x => max m x.natAbs) 0

/-! ### Correlation (R101, R102) -/

def dot (xs ys : List Int) : Int := sumI (List.zipWith (· * ·) xs ys)

/-- C(d): captures count as 0 outside. -/
def corr (dn up : List Int) (d : Int) : Int := if 0 ≤ d then dot dn (up.drop d.toNat) else dot (dn.drop (-d).toNat) up

/-- The lags in the order in which equal values win: nearer 0 first, then the negative one. -/
def lagOrder : Nat → List Int
  | 0 => [0]
  | n + 1 => lagOrder n ++ [-((n + 1 : Nat) : Int), ((n + 1 : Nat) : Int)]

/-- The lag of the largest C, with its value. -/
def bestLag (dn up : List Int) (lagMax : Nat) : Int × Int :=
  (lagOrder lagMax).foldl (fun b l => if b.2 < corr dn up l then (l, corr dn up l) else b) (0, corr dn up 0)

/-- R102: PEAK; none where the rule states no value (no energy, or a negative largest C). -/
def peakOf (dn up : List Int) (c : Int) : Option Nat :=
  let e := (dot dn dn * dot up up).toNat
  if e = 0 || c < 0 then none else some (min 32767 (isqrt ((32768 * c.toNat) ^ 2 / e)))

/-- R101: DT at lag `l`; none where the interpolation has no value (a flat peak). -/
def dtOf (dn up : List Int) (l c : Int) : Option Int :=
  let a := corr dn up (l - 1)
  let b := corr dn up (l + 1)
  let den := -(2 * (a - 2 * c + b))
  if den = 0 then none else some (roundDiv (65536 * (l * den - (a - b))) den)

/-- R101–R103: pair code, DT and PEAK. -/
def Dev.correlate (d : Dev) (p : Pair) (codeDn codeUp : Nat) (abort : Bool) : (Nat × Nat × Nat) × Dev :=
  if abort then ((5, 0, 0), d)
  else if !p.en then ((4, 0, 0), d)
  else if codeDn != 0 || codeUp != 0 then ((1, 0, 0), d)
  else
    let x := p.dn.capt
    let y := p.up.capt
    let b := bestLag x y p.lagMax
    match (match peakOf x y b.2 with
      | some k => (k, d)
      | none => (match d.fresh with
        | (v, d) => (v.toNat % 2 ^ 15, d))) with
    | (peak, d) =>
      if b.1.natAbs = p.lagMax then ((3, 0, peak), d)
      else if peak < p.peakMin then ((2, 0, peak), d)
      else match dtOf x y b.1 b.2 with
        | some t => ((0, unsgn 32 t, peak), d)
        | none => (match d.fresh with
          | (v, d) => ((0, v.toNat, peak), d))

/-! ### The result (R87, R94, R105, R107) -/

/-- R105: the runs of the ball that transmitted a shot. -/
def Dev.shotStat (d : Dev) (p : Pair) (up : Bool) : Dev :=
  let s := p.shot up
  let n := p.path
  let run := if p.byB up then Fld.UFE_DRV_PATH_STAT_RUN_B n else Fld.UFE_DRV_PATH_STAT_RUN_A n
  if !s.ended || p.extDrv then d
  else if s.drive = 0 then d.setF run 0
  else
    let short := s.drive == 3
    let was := d.f run
    let d := (d.setF run (min 3 (was + 1))).incF (Fld.UFE_DRV_PATH_STAT_FAULT_CNT n)
    let d := d.raise (if short then Ev.UFE_DRV_SHOT_SHORT else Ev.UFE_DRV_SHOT_OPEN)
    if was = 2 then
      (d.setF (Fld.UFE_DRV_PATH_STAT_STATE n) (if short then 2 else 1)).raise
        (if short then Ev.UFE_DRV_PATH_SHORT else Ev.UFE_DRV_PATH_OPEN)
    else d

/-- R105: the good runs and the return to OK. -/
def Dev.pathStat (d : Dev) (p : Pair) (aborted : Bool) : Dev :=
  if p.en then
    let n := p.path
    let d := (d.shotStat p false).shotStat p true
    let bad := (p.dn.ended && p.dn.drive != 0) || (p.up.ended && p.up.drive != 0)
    if bad then d.setF (Fld.UFE_DRV_PATH_STAT_GOOD_RUN n) 0
    else if aborted then d
    else
      let g := min 3 (d.f (Fld.UFE_DRV_PATH_STAT_GOOD_RUN n) + 1)
      let d := d.setF (Fld.UFE_DRV_PATH_STAT_GOOD_RUN n) g
      if g = 3 && d.on (Fld.UFE_DRV_PATH_STAT_STATE n) then
        (d.setF (Fld.UFE_DRV_PATH_STAT_STATE n) 0).raise Ev.UFE_DRV_PATH_OK
      else d
  else d

/-- R94: one step of the automatic gain; `keep`: firmware writes PATH_GAIN_n in the clock of the step, which is discarded. -/
def Dev.agc (d : Dev) (n amp : Nat) (keep : Bool) : Dev :=
  let step := fun (d : Dev) (g : Nat) => if keep then d else (d.setF (Fld.UFE_RX_PATH_GAIN_GAIN n) g).raise Ev.UFE_RX_GAIN_CHG
  let g := min 40 (d.f (Fld.UFE_RX_PATH_GAIN_GAIN n))
  if !d.on (Fld.UFE_RX_PATH_GAIN_AGC_EN n) then d
  else if d.f Fld.UFE_RX_AGC_CFG_AMP_HI < amp then
    if g = 0 then d.raise Ev.UFE_RX_AGC_MIN else step d (g - 1)
  else if amp < d.f Fld.UFE_RX_AGC_CFG_AMP_LO then
    if g = 40 then d.raise Ev.UFE_RX_AGC_MAX else step d (g + 1)
  else d

/-- Two samples of a capture in one word (the WAVE registers). -/
def packSamples : List Int → List Nat
  | a :: b :: t => (unsgn 16 a + unsgn 16 b * 65536) :: packSamples t
  | [a] => [unsgn 16 a]
  | [] => []

/-- The result block's registers in order, RES_TOF_DN to RES_ANG (R108). -/
def resultRegs (n : Nat) : List Nat :=
  [Reg.UFE_TOF_RES_TOF_DN n, Reg.UFE_TOF_RES_TOF_UP n, Reg.UFE_TOF_RES_DT n, Reg.UFE_TOF_RES_AMP n,
   Reg.UFE_TOF_RES_PEAK n, Reg.UFE_TOF_RES_CYC n, Reg.UFE_TOF_RES_ANG n]

/-- The stamp of a result: undefined where the downstream shot never fired. -/
def Dev.pairStamp (d : Dev) (p : Pair) : (Nat × Nat) × Dev :=
  if p.dn.fired then ((p.cyc.toNat, p.ang), d)
  else match d.fresh with
    | (a, d) => match d.fresh with
      | (b, d) => ((a.toNat, b.toNat % 65536), d)

/-- R87, R93, R103, R107, R111, R185: the result of pair `p` is written; `keep`: see `agc`. -/
def Dev.writeResult (d : Dev) (p : Pair) (abort keep : Bool) : Dev :=
  let n := p.path
  let a := if !p.en && !abort then (0, 0) else p.code p.dn
  let b := if !p.en && !abort then (0, 0) else p.code p.up
  match d.correlate p a.1 b.1 abort with
  | ((pc, dt, peak), d) => match d.pairStamp p with
    | ((cyc, ang), d) =>
      let st := d.rd (Reg.UFE_TOF_RES_STAT n)
      let seq := (bits st 0 8 + 1) % 256
      let older := bit st 19
      let ran := pc != 4 && pc != 5
      let masked := (ran || p.dn.ended) && p.captureMasked
      let lim := p.shotAtLimit p.dn || p.shotAtLimit p.up
      let d := d.wr (Reg.UFE_TOF_RES_STAT n)
        (seq + a.1 * 2 ^ 8 + b.1 * 2 ^ 12 + pc * 2 ^ 16 + 2 ^ 19 + b2n (older || bit st 20) * 2 ^ 20
          + b2n (p.shotAtLimit p.dn) * 2 ^ 21 + b2n (p.shotAtLimit p.up) * 2 ^ 22 + b2n p.dn.clip * 2 ^ 23
          + b2n p.up.clip * 2 ^ 24 + b2n masked * 2 ^ 25 + b2n p.late * 2 ^ 26 + b2n p.deferred * 2 ^ 27
          + b2n p.atLimit * 2 ^ 28 + p.src * 2 ^ 29)
      let d := d.wrs [
        (Reg.UFE_TOF_RES_TOF_DN n, a.2), (Reg.UFE_TOF_RES_TOF_UP n, b.2), (Reg.UFE_TOF_RES_DT n, dt),
        (Reg.UFE_TOF_RES_AMP n, p.dn.amp + p.up.amp * 2 ^ 16), (Reg.UFE_TOF_RES_PEAK n, peak + p.gain * 2 ^ 16),
        (Reg.UFE_TOF_RES_CYC n, cyc), (Reg.UFE_TOF_RES_ANG n, ang + p.task * 2 ^ 16)]
      let has := fun c => a.1 == c || b.1 == c
      let d := (d.raise Ev.UFE_TOF_PAIR_DONE).raiseIf (pc != 0) Ev.UFE_TOF_DT_INVALID
      let d := (d.raiseIf (has 1) Ev.UFE_TOF_NOHIT).raiseIf (has 4) Ev.UFE_TOF_ORDER
      let d := (d.raiseIf (has 5) Ev.UFE_TOF_SUB_TICK).raiseIf lim Ev.UFE_TOF_AT_LIMIT
      let d := (d.raiseIf (pc == 2) Ev.UFE_TOF_LOWCORR).raiseIf (pc == 3) Ev.UFE_TOF_LAG_EDGE
      let d := (d.raiseIf (has 6) Ev.UFE_TOF_NOSTART).raiseIf (pc == 5) Ev.UFE_TOF_ABORT
      let d := (d.raiseIf older Ev.UFE_TOF_RES_OVR).raiseIf masked Ev.UFE_RX_MASKED
      let d := d.storeWords 0
        ((n + seq * 2 ^ 8 + pc * 2 ^ 16) :: (packSamples p.dn.capt ++ packSamples p.up.capt))
      let d : Dev := if ran then { d with ufe.wave := some { path := n, dn := p.dn.capt, up := p.up.capt } } else d
      let wasBad := d.on (Fld.UFE_DRV_PATH_STAT_STATE n)
      let d := d.pathStat p abort
      let d := if ran && p.dn.drive == 0 && p.up.drive == 0 then d.agc n (max p.dn.amp p.up.amp) keep else d
      d.flowResult { path := n, seq := seq, pair := pc, tofDn := a.2, tofUp := b.2, dt := sgn 32 dt,
                     ampDn := p.dn.amp, ampUp := p.up.amp, cyc := BitVec.ofNat 32 cyc, wasBad := wasBad }

/-- The pair that is ready for its result: both shots have ended, or its path is not in use. -/
def Dev.pairReady (d : Dev) : Option Pair :=
  d.ufe.pair.filter fun p => !p.en || (p.dn.ended && p.up.ended)

/-- R86, R107: the result of the pair in flight is due. -/
def Dev.pairResult (d : Dev) (keep : Bool) : Dev :=
  match d.pairReady with
  | some p => d.ufeRest.writeResult p false keep
  | none => d

/-- R83, R85: a pair is accepted; on a path not in use it completes at once. -/
def Dev.pairOffer (d : Dev) (n s src task : Nat) (late deferred atLimit : Bool) : Dev :=
  let d := d.pairStart n s src task late deferred atLimit
  if d.on (Fld.UFE_DRV_PATH_CFG_EN n) then d else d.pairResult false

/-- R109: a write of MAN_FIRE; `herdNow`: HERD has a pair accepted in the same clock. -/
def Dev.manFire (d : Dev) (v : Nat) (herdNow : Bool) : Dev :=
  if bit v 31 then
    if herdNow || d.ufeBusy || !d.domOn .ufa || !d.domOn .ufd then d.raise Ev.UFE_DRV_MAN_REJ
    else d.pairOffer (bits v 0 2) (bits v 8 4) 1 0x3FF false false false
  else d

/-- R110: UFA or UFD (`x`) begins to drop. -/
def Dev.pairAbort (d : Dev) (x : Dom) : Dev :=
  match d.ufe.pair with
  | none => d
  | some p =>
    let d := d.ufeRest
    if x == .ufa && d.domOn .ufd then d.writeResult p true false else d

/-! ### Registers -/

/-- The captures that the waveform window shows. -/
def Dev.shownWave (d : Dev) : Option Wave := if d.on Fld.UFE_TOF_WAVE_CTRL_FREEZE then d.ufe.frozen else d.ufe.wave

/-- WAVE_w. -/
def Dev.waveWord (d : Dev) (w : Nat) : Nat :=
  match d.shownWave with
  | some v => ((packSamples (if d.on Fld.UFE_TOF_WAVE_CTRL_SEL then v.up else v.dn))[w]?).getD 0
  | none => 0

/-- WAVE_CTRL as it reads. -/
def Dev.waveCtrl (d : Dev) : Nat :=
  setBits (d.rd Reg.UFE_TOF_WAVE_CTRL) 2 2 ((d.shownWave.map (·.path)).getD 0)

/-- A write of WAVE_CTRL: setting FREEZE keeps the captures shown. -/
def Dev.waveCtrlWrite (d : Dev) (v : Nat) : Dev :=
  let was := d.on Fld.UFE_TOF_WAVE_CTRL_FREEZE
  let d := d.wr Reg.UFE_TOF_WAVE_CTRL (v % 4)
  if bit v 1 then (if was then d else { d with ufe.frozen := d.ufe.wave }) else { d with ufe.frozen := none }

end Sys2Proof.Machine
end

