-- ==== Sys2Proof/Machine/MetFe.lean ====
section
/-! DEFINITION. The metrology front end: channel settings, ranging, sample words, temperature correction, snapshots and
pulse inputs (R137–R158).  The decimated values of a channel's input arrive with the command. -/

namespace Sys2Proof.Machine

/-! ### Channel settings (R137–R142) -/

/-- R137: whether mode code `m` is allowed on channel `n`. -/
def modeAllowed (n m : Nat) : Bool :=
  if n = 15 then m ≤ 4
  else if n < 3 || n = 7 || n = 9 || n = 11 || n = 13 then m = 0
  else if n < 7 then 1 ≤ m && m ≤ 3
  else 1 ≤ m && m ≤ 4

/-- The fields of CH_CFG as they act. -/
def cfgEn (c : Nat) : Bool := bit c 0
def cfgMode (c : Nat) : Nat := bits c 1 3
def cfgPga (c : Nat) : Nat := min 5 (bits c 4 3)
def cfgPgaLo (c : Nat) : Nat := min 5 (bits c 8 3)
def cfgRup (c : Nat) : Nat := max 1 (bits c 16 4)
def cfgLeak (c : Nat) : Nat := max 8 (bits c 20 4)

/-- R139: whether the mode has its high-pass filter on. -/
def cfgHpf (c : Nat) : Bool :=
  match cfgMode c with
  | 0 | 1 => bit c 13
  | 2 | 3 => true
  | _ => false

/-- R143: automatic ranging acts. -/
def cfgRanging (c : Nat) : Bool := bit c 11 && (cfgMode c == 1 || cfgMode c == 4) && cfgPgaLo c < cfgPga c

/-- R143: the ratio of the two ranges (a power of two). -/
def cfgRatio (c : Nat) : Nat := 2 ^ (cfgPga c - cfgPgaLo c)

def Dev.feChan (d : Dev) (n : Nat) : FeChan := vGet d.fe.chans n {}

def Dev.setFeChan (d : Dev) (n : Nat) (c : FeChan) : Dev := { d with fe.chans := vSet d.fe.chans n c }

/-- R138, R143, R150: a write of CH_CFG_n is performed, its RWU fields as `v` has them after the seal rule. -/
def Dev.chCfgWrite (d : Dev) (n v : Nat) : Dev :=
  { d.wr (Reg.MET_FE_CH_CFG n) v with fe.wrote := setBits d.fe.wrote n 1 1 }

/-! ### Ticks (R34, R148, R150) -/

/-- A sample tick takes the settings in force; its words follow 531.25 µs later. -/
def Dev.feTick (d : Dev) (k clk : Nat) : Dev :=
  if d.domOn .met then
    let t : TickIn :=
      { cyc := d.mae.cyc, tick := k, clk := clk
        cfg := (List.range 16).map fun n => d.rd (Reg.MET_FE_CH_CFG n)
        wrote := d.fe.wrote
        gc := (List.range 16).map fun n => sgn 24 (d.f (Fld.MET_CAL_GC_NOW_GC n))
        pd := (List.range 16).map fun n => sgn 18 (d.f (Fld.MET_CAL_PD_NOW_PD n)) }
    { d with fe.ticks := d.fe.ticks ++ [t], fe.wrote := 0 }
  else d

/-! ### The chain to the interpolated sample (R139, R140, R142, R145) -/

/-- R142: a decimated value of `v` nV at gain code `pga`, in LSB, and whether it lies beyond full scale. -/
def adcValue (pga : Nat) (v : Int) : Int × Bool :=
  let x := roundDiv (v * (2 ^ pga * 8388607 : Nat)) 600000000
  (clamp (-8388607) 8388607 x, decide (8388607 < x.natAbs))

/-- R139: one step of the high-pass filter, whose corner of 0.5 Hz makes its coefficient 2π · 0.5 / 32,000. -/
def hpfStep (y last x : Int) : Int := y - roundDiv (y * 3141592653589793) (32000 * 10 ^ 15) + (x - last) * 2 ^ 32

/-- R140: one step of the integrator on `x` in 2⁻³² LSB. -/
def intStep (y x : Int) (leak : Nat) : Int := y - roundDiv y (2 ^ leak) + roundDiv (x * 3141592653589793) (320 * 10 ^ 15)

/-- R139, R140: the channel with settings `c` takes the decimated value `x` through its sensor mode's stage. -/
def FeChan.take (h : FeChan) (c : Nat) (x : Int) : FeChan :=
  let hp := hpfStep h.hpf h.dec x
  let a := if cfgHpf c then hp else x * 2 ^ 32
  let y := intStep h.int a (cfgLeak c)
  let out := if cfgMode c == 3 then y else a
  { h with dec := x, hpf := hp, int := y, stream := (roundDiv out (2 ^ 32) :: h.stream).take 32 }

/-- R145: the stream at `pos` 1/256 modulator clocks, where its newest value stands at `newest` samples of 128 clocks, on
the straight line between its two values there. -/
def streamAt (xs : List Int) (newest : Nat) (pos : Int) : Int :=
  let i := ((newest : Int) - pos / 32768).toNat
  let a := (xs[i]?).getD 0
  let b := (xs[i - 1]?).getD 0
  roundDiv (a * 32768 + (b - a) * (pos % 32768)) 32768

/-- R145, R146: the interpolated sample S of a channel for tick `t`, of which the stream reaches 531.25 µs beyond. -/
def FeChan.sample (h : FeChan) (t : TickIn) (n : Nat) (fir : Int) : Int :=
  clamp (-8388608) 8388607 (streamAt h.stream ((t.clk + 2176) / 128) (t.clk * 256 + (t.pd[n]?).getD 0) + fir)

/-! ### Sample words (R143, R149–R154) -/

/-- R150: how many samples a change from `old` (none: since power-up) to `c`, or of the gain, makes invalid. -/
def settleCount (old : Option Nat) (c : Nat) (gainChanged : Bool) : Nat :=
  let g := if gainChanged then 4 else 0
  match old with
  | none => 12
  | some o =>
    let coil := (cfgMode o == 3) != (cfgMode c == 3) || (cfgMode c == 3 && cfgLeak o != cfgLeak c)
    let filt := cfgMode o != cfgMode c || bit o 12 != bit c 12 || bit o 13 != bit c 13
    max (max g (if coil then 16 else if filt then 8 else 0)) (if cfgEn o then 0 else 12)

/-- R154: the corrected value and whether it saturated. -/
def Dev.correctSample (d : Dev) (n : Nat) (s gc : Int) (low : Bool) : Int × Bool :=
  let g := gc + (if low then sgn 24 (d.f (Fld.MET_CAL_GTRIM_LO_G n)) else 0)
  let v := roundDiv (s * (4194304 + g)) 4194304 + sgn 24 (d.f (Fld.MET_CAL_OFS_OFS n))
  (clamp (-8388607) 8388607 v, decide (v < -8388607 ∨ 8388607 < v))

/-- R149: the sample word. -/
def sampleWord (v : Int) (settle ovl hold low : Bool) (n : Nat) : Nat :=
  unsgn 24 v * 256 + b2n settle * 128 + b2n ovl * 64 + b2n hold * 32 + b2n low * 16 + n

/-- R143: a switch of range. -/
def Dev.rangeChg (d : Dev) (n : Nat) : Dev := (d.incF (Fld.MET_FE_CH_STAT_RCHG_CNT n)).raise Ev.MET_FE_RANGE_CHG

/-- The channel as a tick's settings leave it before its word: a write returns to the high range; a new cycle. -/
def FeChan.begin (h : FeChan) (t : TickIn) (c n : Nat) : FeChan :=
  let h := if bit t.wrote n then { h with low := false, run := 0 } else h
  let h := match h.cfg with
    | some o => if cfgEn o then h else { cfg := h.cfg }
    | none => {}
  let h := if h.cyc = t.cyc && h.cnt != 0 then h
    else { h with cyc := t.cyc, cnt := 0, ok := true, closed := false, run := if h.closed && t.cyc = h.cyc + 1 then h.run else 0 }
  let gain := if h.low then cfgPgaLo c else cfgPga c
  let k := settleCount h.cfg c (h.gain.any (· != gain))
  { h with cfg := some c, gain := some gain, rem := max h.rem k }

/-- R143: the runs after a word; `good`: it is a valid low-range word within the threshold; `spliced`: its cycle holds a
splice. -/
def FeChan.count (h : FeChan) (tick : Nat) (good spliced : Bool) : FeChan :=
  let h := { h with cnt := h.cnt + 1, ok := h.ok && good }
  if tick = 255 then
    { h with closed := true, run := if h.ok && h.cnt = 256 && !spliced then min 16 (h.run + 1) else 0 }
  else h

/-- R139–R154: channel `n`'s word for tick `t`, from what it has taken in since the tick before, with the overload flag
`ov` of its modulator. -/
def Dev.feWord (d : Dev) (t : TickIn) (n : Nat) (a : AdcIn) (ov : Bool) : Dev :=
  let c := (t.cfg[n]?).getD 0
  let h0 := d.feChan n
  if !cfgEn c then
    let d := (d.wr (Reg.MET_FE_LAST n) 0).setF (Fld.MET_FE_CH_STAT_SETTLE_LEFT n) 0
    (d.setF (Fld.MET_FE_CH_STAT_RNG n) 0).setFeChan n { cfg := some c }
  else
    let h := h0.begin t c n
    let xs := a.x.map (adcValue (if h.low then cfgPgaLo c else cfgPga c))
    let h := xs.foldl (fun h x => h.take c x.1) h
    let s := h.sample t n a.fir
    let ov := ov || xs.any (·.2)
    let spliced := d.qty.recs.any fun r => r.cyc == t.cyc && r.spliced
    let d := d.raiseIf (h0.rem == 0 && h.rem != 0) Ev.MET_FE_SETTLE
    let firstOvl := fun (o : Bool) (d : Dev) =>
      if o then (d.raiseIf (!d.on (Fld.MET_FE_CH_STAT_OVL n)) Ev.MET_FE_OVL).setF (Fld.MET_FE_CH_STAT_OVL n) 1 else d
    let out := if h.rem != 0 then
        let w := match h.held with
          | some (v, r) => sampleWord v true ov true r n
          | none => sampleWord 0 true ov false h.low n
        let h := FeChan.count { h with rem := h.rem - 1 } t.tick false spliced
        (h, w, firstOvl ov d)
      else
        let vo := d.correctSample n s ((t.gc[n]?).getD 0) h.low
        let o := ov || vo.2
        let w := sampleWord vo.1 false o false h.low n
        let down := !h.low && cfgRanging c && (decide (7549747 ≤ vo.1.natAbs) || o)
        let good := h.low && decide (vo.1.natAbs * cfgRatio c ≤ 6291456)
        let h := FeChan.count { h with held := some (vo.1, h.low) } t.tick good spliced
        let d := firstOvl o d
        if down then ({ h with low := true, run := 0 }, w, d.rangeChg n) else (h, w, d)
    let h := out.1
    let d := out.2.2.wr (Reg.MET_FE_LAST n) out.2.1
    ((d.setF (Fld.MET_FE_CH_STAT_SETTLE_LEFT n) h.rem).setB (Fld.MET_FE_CH_STAT_RNG n) h.low).setFeChan n h

/-- R146, R185: the words of tick `t` are emitted, and the sample store takes those in its mask. -/
def Dev.feEmit (d : Dev) (t : TickIn) (s : List AdcIn) (ov : Nat) : Dev :=
  let d := forUpto 16 (fun n d => d.feWord t n ((s[n]?).getD ⟨[], 0⟩) (bit ov n)) d
  let d := { d with fe.last := (t.cyc, t.tick) }
  let ch := (List.range 16).filter fun n => cfgEn ((t.cfg[n]?).getD 0) && bit (d.rd (Reg.MEMCTL_STORE_CHMASK 1)) n
  d.storeWords 1 (ch.map fun n => d.rd (Reg.MET_FE_LAST n))

/-- R143: the qualifying cycles have ended and channel `n` goes back to the high range. -/
def Dev.rangeUp (d : Dev) (n : Nat) : Dev :=
  let h := d.feChan n
  match h.cfg with
  | some c =>
    if cfgEn c && h.low && cfgRanging c && h.closed && cfgRup c ≤ h.run then
      ((d.setFeChan n { h with low := false, run := 0 }).rangeChg n).setF (Fld.MET_FE_CH_STAT_RNG n) 0
    else d
  | none => d

/-! ### Temperature correction (R153) -/

/-- R153: the points of the temperature table in use. -/
def Dev.tcPoints (d : Dev) : List Int :=
  let ts := (List.range (min 8 (d.f Fld.MET_CAL_TC_CFG_NPTS))).map fun j => sgn 16 (d.f (Fld.MET_CAL_TC_T_T j))
  ts.take (1 + ((List.zip ts (ts.drop 1)).takeWhile fun p => p.1 < p.2).length)

/-- R153: the table with temperatures `ts` and values `vs` at `t`, rounded. -/
def tcInterp : List Int → List Int → Int → Int
  | [], _, _ => 0
  | [_], vs, _ => vs.headD 0
  | a :: b :: ts, vs, t =>
    if t ≤ a then vs.headD 0
    else if t < b then roundDiv (vs.headD 0 * (b - a) + ((vs.drop 1).headD 0 - vs.headD 0) * (t - a)) (b - a)
    else tcInterp (b :: ts) (vs.drop 1) t

/-- R153: the recomputation at angle 0x0000, from a new measurement of DIE_T. -/
def Dev.calZero (d : Dev) (dieT : Int) : Dev :=
  if d.domOn .met then
    let d := d.wr Reg.MET_CAL_DIE_T (unsgn 16 dieT + d.mae.cyc.toNat % 65536 * 65536)
    let t := sgn 16 (d.f Fld.MET_CAL_DIE_T_T)
    let ts := d.tcPoints
    let js := List.range ts.length
    let d := d.setF Fld.MET_CAL_TC_STAT_NPTS_USED ts.length
    let d := d.raiseIf (decide (ts.length < d.f Fld.MET_CAL_TC_CFG_NPTS) && decide (ts.length < 8)) Ev.MET_CAL_TBL_TRUNC
    let d := forUpto 16 (fun n d =>
      let g := tcInterp ts (js.map fun j => sgn 24 (d.f (Fld.MET_CAL_TC_G_GC n j))) t
      let p := clamp (-131071) 131071 (tcInterp ts (js.map fun j => sgn 18 (d.f (Fld.MET_CAL_TC_P_PD n j))) t)
      (d.setF (Fld.MET_CAL_GC_NOW_GC n) (unsgn 24 g)).setF (Fld.MET_CAL_PD_NOW_PD n) (unsgn 18 p)) d
    d.raise Ev.MET_CAL_TC_UPD
  else d

/-! ### Snapshots (R155) -/

/-- A snapshot of the channels in `mask`. -/
def Dev.feSnap (d : Dev) (mask : Nat) : Dev :=
  let ch := (List.range 16).filter fun n =>
    bit mask n && d.on (Fld.MET_FE_CH_CFG_EN n) && (d.feChan n).cfg.any cfgEn
  let new := d.f Fld.MET_FE_SNAP_STAT_NEW
  let d := ch.foldl (fun d n =>
    (d.wr (Reg.MET_FE_SNAP n) (d.rd (Reg.MET_FE_LAST n))).wr (Reg.MET_FE_SNAP_AT n)
      (d.fe.last.2 + d.fe.last.1.toNat % 2 ^ 24 * 256)) d
  let older := new &&& maskOf ch
  let d := (d.setF Fld.MET_FE_SNAP_STAT_NEW (new ||| maskOf ch)).setF Fld.MET_FE_SNAP_STAT_OVR
    (d.f Fld.MET_FE_SNAP_STAT_OVR ||| older)
  (d.raiseIf (older != 0) Ev.MET_FE_SNAP_OVR).raise Ev.MET_FE_SNAP_DONE

/-! ### Pulse inputs (R156–R158) -/

/-- R157: a CNT_IN ball changes level; its debounce starts. -/
def Dev.cntChange (d : Dev) (n : Nat) (level : Bool) : Dev := { d with fe.pins := vSet d.fe.pins n level }

/-- R158, R370: one count of input `n`. -/
def Dev.cntUp (d : Dev) (n : Nat) : Dev :=
  let v := (d.rd (Reg.MET_FE_CNT n) + 1) % 2 ^ 32
  let d := (d.wr (Reg.MET_FE_CNT n) v).raise (Ev.MET_FE_CNT_EDGE n)
  let d := d.raiseIf (v == 0) (Ev.MET_FE_CNT_WRAP n)
  let d :=
    if d.mae.running then d.wr (Reg.MET_FE_CNT_AT n) (d.mae.tick * 256 + d.mae.cyc.toNat % 65536 * 65536)
    else d.setF (Fld.MET_FE_CNT_AT_NOTIME n) 1
  if bit (d.f Fld.ROOSTER_SRC_EN_CNT_MASK) n then d.wakeRequest [5] else d

/-- R157: the level of input `n` has been stable for its debounce time: it is accepted, and counted where it matches. -/
def Dev.cntAccept (d : Dev) (n : Nat) : Dev :=
  let lvl := vGet d.fe.pins n false
  if d.on (Fld.MET_FE_CNT_CFG_LEVEL n) == lvl then d
  else
    let d := d.setB (Fld.MET_FE_CNT_CFG_LEVEL n) lvl
    let e := d.f (Fld.MET_FE_CNT_CFG_EDGE n)
    if d.on (Fld.MET_FE_CNT_CFG_EN n) && (e == 2 || lvl != (e == 1)) then d.cntUp n else d

end Sys2Proof.Machine
end

