-- ==== Sys2Proof/Machine/MetQty.lean ====
section
/-! DEFINITION. Per-cycle quantities, energy and pulse outputs (R159–R177). -/

namespace Sys2Proof.Machine

/-! ### Power sets (R163) -/

/-- Voltage and current channel of set `s` (set 3 is the sum of sets 0 to 2). -/
def setChans (s : Nat) : Nat × Nat := if s < 3 then (s, s + 3) else (7 + 2 * (s - 4), 8 + 2 * (s - 4))

/-- The energy remainders' denominator: products of scaled samples, Δτ and nΩ, in mWh (R168). -/
def energyDen : Nat := 2 ^ 46 * (256 * 4096000) * 3600000 * 10 ^ 9

/-! ### Assembly (R159, R160, R168) -/

/-- The value of channel `n` in a row. -/
def QRow.at (r : QRow) (n : Nat) : Option Int := (r.x[n]?).getD none

/-- The product of two channels in a row; 0 where one has no word. -/
def QRow.prod (r : QRow) (v i : Nat) : Int :=
  match r.at v, r.at i with
  | some a, some b => a * b
  | _, _ => 0

/-- The cycle in hand closes. -/
def Dev.closeCycle (d : Dev) : Dev :=
  match d.qty.cyc with
  | none => d
  | some c =>
    let all := d.qty.before ++ d.qty.rows
    { d with
      qty.closed := d.qty.closed ++ [{ cyc := c, rows := d.qty.rows, before := d.qty.before, freq := d.rd Reg.MAE_FREQ }]
      qty.cyc := none
      qty.rows := []
      qty.before := all.drop (all.length - 64) }

/-- What channel `n`'s latest word adds: its scaled value (R144, R159), and whether it is held. -/
def Dev.wordValue (d : Dev) (t : TickIn) (n : Nat) : Option Int × Bool :=
  let c := (t.cfg[n]?).getD 0
  if cfgEn c then
    let w := d.rd (Reg.MET_FE_LAST n)
    let v := sgn 24 (bits w 8 24) * (if bit w 4 then (cfgRatio c : Int) else 1)
    (some (v * (d.rd (Reg.MET_QTY_SCALE n) : Int)), bit w 5)
  else (none, false)

/-- The words of tick `t` join their cycle. -/
def Dev.qtyRow (d : Dev) (t : TickIn) : Dev :=
  let d := if d.qty.cyc.any (· != t.cyc) then d.closeCycle else d
  let xs := (List.range 16).map (d.wordValue t)
  let tau := match d.qty.lastClk with
    | some c => (t.clk - c) * 256
    | none => 0
  let held := maskOf ((List.range 16).filter fun n => ((xs[n]?).map (·.2)).getD false)
  let row : QRow := { x := xs.map (·.1), held := held, tau := tau }
  let d := { d with
    qty.cyc := Option.some t.cyc
    qty.rows := d.qty.rows ++ [row]
    qty.refSq := #v[0, 1, 2].map fun n => ((row.prod n n).toNat :: vGet d.qty.refSq n []).take 256
    qty.lastClk := Option.some t.clk }
  if t.tick = 255 then d.closeCycle else d

/-! ### Angle 0x0000 (R165, R169, R170) -/

/-- R170: the temperature of DC outlet `k` in 0.01 °C; none while its source is invalid. -/
def Dev.lossSource (d : Dev) (k : Nat) : Option Int :=
  let tmax := sgn 16 (d.f (Fld.ENERGY_CL_CFG_TMAX k)) * 10
  let sel := d.f (Fld.ENERGY_CL_CFG_TSEL k)
  match d.f (Fld.ENERGY_CL_CFG_TSRC k) with
  | 0 => if d.domOn .ufa && d.rtdBill sel then (d.rtdTemp sel).map (min tmax) else none
  | 1 => if d.domOn .ufd && d.flowBill (sel % 4) then (d.coolT (sel % 4)).map (min tmax) else none
  | _ => some tmax

/-- R169, R170: temperature and cable resistance of outlet `k`, where it is DC. -/
def Dev.rcabZero (d : Dev) (k : Nat) : Dev :=
  if d.on (Fld.ENERGY_OUT_CFG_TYPE k) then
    let src := d.lossSource k
    let t := src.getD (sgn 16 (d.f (Fld.ENERGY_CL_CFG_TMAX k)) * 10)
    let was := d.on (Fld.ENERGY_CL_STAT_FALLBACK k)
    let d := (d.wrS (Reg.ENERGY_CL_STAT k) 16 t).setB (Fld.ENERGY_CL_STAT_FALLBACK k) src.isNone
    let d := (d.raiseIf (!was && src.isNone) Ev.ENERGY_TSRC_FB).raiseIf (was && src.isSome) Ev.ENERGY_TSRC_OK
    let d := if src.isNone then d.inc (Reg.ENERGY_FB_CYC k) else d
    let r : Int := (d.f (Fld.ENERGY_RCAB20_R k) * 1000 : Nat)
    let a : Int := (d.f (Fld.ENERGY_RCAB20_ALPHA k) : Nat)
    d.wrU (Reg.ENERGY_RCAB_NOW k) 32 (roundDiv (r * (100000000 + a * (t - 2000))) 100000000).toNat
  else d

/-- The cycle that ended at this angle 0x0000 is complete, and the one that starts takes its temperature, its cable
resistances and its tariffs. -/
def Dev.energyZero (d : Dev) : Dev :=
  let recs := match d.qty.recs with
    | r :: t => { r with len := d.rd Reg.MAE_LAST_CYC_CLK, noref := d.mae.cycNoref, spliced := d.mae.cycSpliced } :: t
    | [] => []
  let d := forUpto 4 (fun k d => d.rcabZero k) d
  let r : CycRec :=
    { cyc := d.mae.cyc
      rcab := (List.range 4).map fun k => d.rd (Reg.ENERGY_RCAB_NOW k)
      tariff := (List.range 4).map fun k => bits (d.rd Reg.ENERGY_ACT_TARIFF) (4 * k) 4 }
  { d with qty.recs := (r :: recs).take 4 }

/-- What was taken for cycle `c`; where its angle 0x0000 was not seen, what stands now. -/
def Dev.cycRec (d : Dev) (c : Word) : CycRec :=
  (d.qty.recs.find? (·.cyc == c)).getD
    { cyc := c
      rcab := (List.range 4).map fun k => d.rd (Reg.ENERGY_RCAB_NOW k)
      tariff := (List.range 4).map fun k => bits (d.rd Reg.ENERGY_ACT_TARIFF) (4 * k) 4 }

/-! ### Sums over a cycle -/

/-- The sum over the rows of `f`. -/
def sumRows (rows : List QRow) (f : QRow → Int) : Int := sumI (rows.map f)

/-- R163: each row with the row 64 emitted ticks before it. -/
def delayed (c : Closed) : List (QRow × Option QRow) :=
  c.rows.zip (List.replicate (64 - c.before.length) none ++ (c.before ++ c.rows).map some)

/-- R163: Σ v[k−64]·i[k]; none where a voltage sample it needs does not exist. -/
def reactive (c : Closed) (v i : Nat) : Option Int :=
  (delayed c).foldl (fun s p =>
    match s, p.1.at i with
    | none, _ => none
    | some s, none => some s
    | some s, some b => (p.2.bind fun r => r.at v).map fun a => s + a * b) (some 0)

/-- Σx² of a channel. -/
def squares (rows : List QRow) (n : Nat) : Nat := (sumRows rows fun r => r.prod n n).toNat

/-- R162, R163: S of a voltage and a current channel, in 2⁻⁶⁴ of the unit of a sum of products (at least 64 bits). -/
def apparent (rows : List QRow) (v i : Nat) : Nat := isqrt (squares rows v * squares rows i * 2 ^ 128)

/-- R164: the single-bin DFT of channel `n` over a full cycle: real part and the negative of the imaginary part. -/
def dft (rows : List QRow) (n : Nat) : Int × Int :=
  let ks := rows.zip (List.range 256)
  (sumI (ks.map fun p => (p.1.at n).getD 0 * turnCos p.2), sumI (ks.map fun p => (p.1.at n).getD 0 * turnSin p.2))

/-! ### Publication of the quantities (R160–R166) -/

def Dev.hasWords (c : Closed) (n : Nat) : Bool := c.rows.any fun r => (r.at n).isSome

/-- R162, R166: RMS, mean and held counts of channel `n`. -/
def Dev.publishChan (d : Dev) (c : Closed) (n : Nat) : Dev :=
  let k := max 1 c.rows.length
  let held := (c.rows.filter fun r => bit r.held n).length
  let d := d.wrU (Reg.MET_QTY_RMS n) 32 (roundSqrt (squares c.rows n) (k * 2 ^ 46))
  let d := d.wrS (Reg.MET_QTY_MEAN n) 32 (roundDiv (sumRows c.rows fun r => (r.at n).getD 0) (k * 2 ^ 23 : Nat))
  let d := d.wr (Reg.MET_QTY_HELD_CYC n) held
  d.wr (Reg.MET_QTY_HELD_TOT n) (min (2 ^ 32 - 1) (d.rd (Reg.MET_QTY_HELD_TOT n) + held))

/-- The outlet of a set is DC (R163). -/
def Dev.setDc (d : Dev) (s : Nat) : Bool := 4 ≤ s && d.on (Fld.ENERGY_OUT_CFG_TYPE (s - 4))

/-- The sets that make up set `s`. -/
def setParts (s : Nat) : List (Nat × Nat) := if s = 3 then [setChans 0, setChans 1, setChans 2] else [setChans s]

/-- R163, R164: P, Q, S and PF of set `s`. -/
def Dev.publishSet (d : Dev) (c : Closed) (qValid : Bool) (s : Nat) : Dev :=
  let k := max 1 c.rows.length
  let den : Int := (k * 2 ^ 46 * 1000 : Nat)
  let parts := setParts s
  let p := sumI (parts.map fun x => sumRows c.rows fun r => r.prod x.1 x.2)
  let s64 := sumN (parts.map fun x => apparent c.rows x.1 x.2)
  let q := (parts.map fun x => reactive c x.1 x.2).foldl (fun a b => a.bind fun a => b.map (a + ·)) (some 0)
  let d := d.wrS (Reg.MET_QTY_P s) 32 (roundDiv p den)
  let d :=
    if d.setDc s || !qValid then d.wr (Reg.MET_QTY_Q s) 0
    else match q with
      | some q => d.wrS (Reg.MET_QTY_Q s) 32 (roundDiv q den)
      | none => d.fresh.2.wr (Reg.MET_QTY_Q s) d.fresh.1.toNat
  let d := d.wrU (Reg.MET_QTY_S s) 32 (roundDivN s64 (k * 2 ^ 110 * 1000))
  if d.setDc s then d.wr (Reg.MET_QTY_PF s) 0x8000
  else if s64 = 0 then d.wr (Reg.MET_QTY_PF s) 0
  else d.wrS (Reg.MET_QTY_PF s) 16 (roundDiv (p * (10000 * 2 ^ 64)) (s64 : Int))

/-- R164: the angles, where they are valid, and the rotation check. -/
def Dev.publishAngles (d : Dev) (c : Closed) : Dev :=
  let z := dft c.rows 0
  let d := forUpto 16 (fun n d =>
    if Dev.hasWords c n then
      let y := dft c.rows n
      match angleOf (z.1 * y.1 + z.2 * y.2) (z.1 * y.2 - z.2 * y.1) with
      | some a => d.wr (Reg.MET_QTY_ANG n) (unsgn 16 a)
      | none => d.fresh.2.wr (Reg.MET_QTY_ANG n) (d.fresh.1.toNat % 65536)
    else d) d
  let a1 := sgn 16 (d.rd (Reg.MET_QTY_ANG 1))
  let a2 := sgn 16 (d.rd (Reg.MET_QTY_ANG 2))
  let bad := decide (a1 < 11000 ∨ 13000 < a1 ∨ a2 < -13000 ∨ -11000 < a2)
  { d.raiseIf (bad && !d.qty.rotErr) Ev.MET_QTY_ROT_ERR with qty.rotErr := bad }

/-- R166: the channels used by the input sets and by enabled outlets. -/
def Dev.usedChans (d : Dev) : List Nat :=
  List.range 6 ++ (List.range 4).flatMap fun k => if d.on (Fld.ENERGY_OUT_CFG_EN k) then [7 + 2 * k, 8 + 2 * k] else []

/-- R160: the quantities of a closed cycle are published. -/
def Dev.publishQty (d : Dev) (c : Closed) : Dev :=
  let r := d.cycRec c.cyc
  let n := c.rows.length
  let qValid := !r.spliced && !(d.qty.recs.any fun x => x.cyc + 1 == c.cyc && x.spliced)
  let d := forUpto 16 (fun n d => d.publishChan c n) d
  let d := forUpto 8 (fun s d => d.publishSet c qValid s) d
  let angValid := n == 256 && Dev.hasWords c 0
    && decide ((d.f Fld.MAE_VREF_MIN * 100) ^ 2 * (n * 2 ^ 46) ≤ squares c.rows 0)
  let d := if angValid then d.publishAngles c else d
  let seq := bits (d.rd Reg.MET_QTY_QSTAT + 2 ^ 16) 16 8
  let d := d.wr Reg.MET_QTY_QSTAT (n + b2n (decide (n < 256)) * 2 ^ 9 + b2n r.noref * 2 ^ 10 + b2n qValid * 2 ^ 11
    + b2n angValid * 2 ^ 12 + seq * 2 ^ 16)
  let d := (d.wr Reg.MET_QTY_QCYC c.cyc.toNat).wr Reg.MET_QTY_FREQ (roundDivN (c.freq * 1000) 65536)
  let d := d.wr Reg.MET_QTY_CYC_TIME r.len
  let d := (d.raise Ev.MET_QTY_CYC_DONE).raiseIf (decide (n < 256)) Ev.MET_QTY_SPLICED
  let d := d.raiseIf r.noref Ev.MET_QTY_NOREF
  d.raiseIf (c.rows.any fun w => d.usedChans.any fun n => bit w.held n) Ev.MET_QTY_HELD

/-- R161: the registers of the page whose reads return a shadow. -/
def isQtyReg (a : Nat) : Bool := Reg.MET_QTY_QCYC ≤ a && a < Reg.MET_QTY_SCALE 0

/-- The shadow of the per-cycle registers. -/
def Dev.qtyShadow (d : Dev) : SMap Word := d.regs.filter fun p => isQtyReg p.1

/-! ### Energy (R167, R171–R173) -/

/-- R141, R167: whether outlet `k`'s channels fit its type. -/
def Dev.typeFits (d : Dev) (k : Nat) : Bool :=
  let v := d.rd (Reg.MET_FE_CH_CFG (7 + 2 * k))
  let i := d.rd (Reg.MET_FE_CH_CFG (8 + 2 * k))
  if d.on (Fld.ENERGY_OUT_CFG_TYPE k) then cfgMode v == 0 && !bit v 13 && cfgMode i == 4 else cfgMode i != 4

/-- R167: TYPE_OK of outlet `k` follows its configuration. -/
def Dev.typeCheck (d : Dev) (k : Nat) : Dev :=
  let ok := d.typeFits k
  let was := bit d.qty.typeErr k
  let d := d.setB (Fld.ENERGY_OUT_CFG_TYPE_OK k) ok
  { d.raiseIf (!ok && !was) Ev.ENERGY_TYPE_ERR with qty.typeErr := setBits d.qty.typeErr k 1 (b2n (!ok)) }

def Dev.typeChecks (d : Dev) : Dev := forUpto 4 (fun k d => d.typeCheck k) d

/-- A 64-bit register pair (R16). -/
def Dev.rd64 (d : Dev) (lo : Nat) : Nat := d.rd lo + d.rd (lo + 4) * 2 ^ 32

def Dev.wr64 (d : Dev) (lo v : Nat) : Dev := (d.wr lo v).wr (lo + 4) (v / 2 ^ 32)

def Dev.add64 (d : Dev) (lo v : Nat) : Dev := d.wr64 lo ((d.rd64 lo + v) % 2 ^ 64)

/-- R168: Σ of the products of a set with Δτ, in 1/`energyDen` mWh. -/
def rawEnergy (rows : List QRow) (s : Nat) : Int :=
  sumI ((setParts s).map fun x => sumRows rows fun r => r.prod x.1 x.2 * (r.tau : Int) * 1000000000)

/-- R168: the cable loss of outlet `k` at `rcab` nΩ, in 1/`energyDen` mWh. -/
def lossEnergy (rows : List QRow) (k rcab : Nat) : Nat :=
  (sumRows rows fun r => r.prod (8 + 2 * k) (8 + 2 * k) * (r.tau : Int)).toNat * rcab

/-- What one outlet gained in a cycle, in whole mWh, as TARIFF and BILL take it. -/
structure OutletGain where
  tariff : Nat
  dlv : Nat
  rtn : Nat
deriving DecidableEq, Repr

/-- R171: outlet `k` adds the energy of closed cycle `c`; what it gained, where it accumulates. -/
def Dev.addOutlet (d : Dev) (c : Closed) (r : CycRec) (k : Nat) : Option OutletGain × Dev :=
  if d.on (Fld.ENERGY_OUT_CFG_EN k) && d.on (Fld.ENERGY_OUT_CFG_TYPE_OK k) then
    let dc := d.on (Fld.ENERGY_OUT_CFG_TYPE k)
    let e := rawEnergy c.rows (4 + k)
    let loss := if dc then lossEnergy c.rows k ((r.rcab[k]?).getD 0) else 0
    let up := e.toNat
    let dn := (-e).toNat
    let rem := vGet d.rem.out k (0, 0)
    let dlv := rem.1 + (up - loss)
    let rtn := rem.2 + dn
    let d := { d with rem.out := vSet d.rem.out k (dlv % energyDen, rtn % energyDen) }
    let x := (r.tariff[k]?).getD 0
    let td := if 1 ≤ x && x ≤ 8 then (x, d) else (d.fresh.1.toNat % 8 + 1, d.fresh.2)
    let t := td.1
    let d := (td.2.add64 (Reg.ENERGY_TOT_LO k t 0) (dlv / energyDen)).add64 (Reg.ENERGY_TOT_LO k t 1) (rtn / energyDen)
    let d :=
      if dc then
        let l := vGet d.rem.loss k 0 + min loss up
        let w := vGet d.rem.raw k 0 + up
        let d := { d with
          rem.loss := vSet d.rem.loss k (l % energyDen)
          rem.raw := vSet d.rem.raw k (w % energyDen) }
        let d := (d.add64 (Reg.ENERGY_LOSS_LO k) (l / energyDen)).add64 (Reg.ENERGY_RAW_LO k) (w / energyDen)
        d.raiseIf (decide (0 < up) && decide (up < loss)) Ev.ENERGY_CL_NEG
      else d
    (some { tariff := t, dlv := dlv / energyDen, rtn := rtn / energyDen }, d)
  else (none, d)

/-- R171: the input totals; what they gained. -/
def Dev.addInput (d : Dev) (c : Closed) : (Nat × Nat) × Dev :=
  let e := rawEnergy c.rows 3
  let a := d.rem.inp.1 + e.toNat
  let b := d.rem.inp.2 + (-e).toNat
  let d := { d with rem.inp := (a % energyDen, b % energyDen) }
  ((a / energyDen, b / energyDen),
   (d.add64 (Reg.ENERGY_IN_TOT_LO 0) (a / energyDen)).add64 (Reg.ENERGY_IN_TOT_LO 1) (b / energyDen))

/-! ### Pulse outputs (R174–R177) -/

def Dev.pulse (d : Dev) (m : Nat) : PulseOut := vGet d.pulses m {}

def Dev.setPulse (d : Dev) (m : Nat) (p : PulseOut) : Dev := { d with pulses := vSet d.pulses m p }

/-- WIDTH as it acts. -/
def Dev.pulseWidth (d : Dev) (m : Nat) : Nat := min 100 (max 2 (d.f (Fld.PULSE_PLS_CFG_WIDTH m)))

/-- R175: a pulse starts on output `m`. -/
def Dev.pulseStart (d : Dev) (m : Nat) : Dev :=
  let p := d.pulse m
  let short := decide (d.f (Fld.PULSE_PLS_STAT_W_USED m) < d.pulseWidth m)
  let d := d.setPulse m { p with phase := 1, full := !short }
  let d := (d.setF (Fld.PULSE_PLS_STAT_ACTIVE m) 1).incWrap (Reg.PULSE_PLS_CNT m)
  d.raiseIf (short && p.full) (Ev.PULSE_SHORTENED m)

/-- R176: `k` pulse requests. -/
def Dev.pulseRequests (d : Dev) (m : Nat) : Nat → Dev
  | 0 => d
  | k + 1 =>
    let d :=
      if (d.pulse m).phase = 0 then d.pulseStart m
      else if d.f (Fld.PULSE_PLS_STAT_BACKLOG m) < 255 then
        d.setF (Fld.PULSE_PLS_STAT_BACKLOG m) (d.f (Fld.PULSE_PLS_STAT_BACKLOG m) + 1)
      else ((d.setF (Fld.PULSE_PLS_STAT_OVF m) 1).raise (Ev.PULSE_OVF m)).inc (Reg.PULSE_LOST m)
    Dev.pulseRequests d m k

/-- R174, R175: output `m` at a publication, where its source gained `e` mWh in a cycle of `len` modulator clocks. -/
def Dev.pulseCycle (d : Dev) (m e len : Nat) : Dev :=
  if d.on (Fld.PULSE_PLS_CFG_EN m) && e != 0 then
    let w := max 1 (d.f (Fld.PULSE_PLS_WEIGHT_W m))
    let width := d.pulseWidth m
    -- Tp = w · len / (4096 · e) ms
    let full := 2 * width * (4096 * e) ≤ w * len
    let used := if full then width else max 2 (w * len / (2 * 4096 * e))
    let acc := (d.pulse m).acc + e
    let d := d.setF (Fld.PULSE_PLS_STAT_W_USED m) used
    let d := d.setPulse m { d.pulse m with acc := acc % w }
    d.pulseRequests m (acc / w)
  else d

/-- R175: the active time of the pulse on output `m` ends. -/
def Dev.pulseActiveEnd (d : Dev) (m : Nat) : Dev :=
  if (d.pulse m).phase = 1 then (d.setPulse m { d.pulse m with phase := 2 }).setF (Fld.PULSE_PLS_STAT_ACTIVE m) 0 else d

/-- R175, R176: the gap after a pulse ends; a queued request starts the next one. -/
def Dev.pulseGapEnd (d : Dev) (m : Nat) : Dev :=
  if d.domOn .met && (d.pulse m).phase = 2 then
    let b := d.f (Fld.PULSE_PLS_STAT_BACKLOG m)
    if b = 0 then d.setPulse m { d.pulse m with phase := 0 }
    else (d.setF (Fld.PULSE_PLS_STAT_BACKLOG m) (b - 1)).pulseStart m
  else d

/-- R177, R360: the pulse outputs of an isolated MET are inactive: a pulse in progress ends. -/
def Dev.pulseStop (d : Dev) : Dev :=
  forUpto 2 (fun m d => d.setF (Fld.PULSE_PLS_STAT_ACTIVE m) 0) { d with pulses := Vector.replicate 2 {} }

/-- R171, R174: the energy update of a publication; what each outlet gained. -/
def Dev.publishEnergy (d : Dev) (c : Closed) : List (Option OutletGain) × Dev :=
  let r := d.cycRec c.cyc
  let d := d.typeChecks
  let out := (List.range 4).foldl (fun (a : List (Option OutletGain) × Dev) k =>
    let x := a.2.addOutlet c r k
    (a.1 ++ [x.1], x.2)) ([], d)
  let inp := out.2.addInput c
  let gain := fun (src : Nat) =>
    if src = 8 then inp.1.1 else if src = 9 then inp.1.2
    else match (out.1[src / 2]?).getD none with
      | some g => if src % 2 = 0 then g.dlv else g.rtn
      | none => 0
  (out.1, forUpto 2 (fun m d =>
    let src := d.f (Fld.PULSE_PLS_CFG_SRC m)
    d.pulseCycle m (if src < 10 then gain src else 0) r.len) inp.2)

/-! ### Snapshots (R173) -/

/-- R173: the all-tariff totals, as of the last published cycle. -/
def Dev.energySnap (d : Dev) : Dev :=
  let total := fun (d : Dev) (k x : Nat) => sumN ((List.range 8).map fun t => d.rd64 (Reg.ENERGY_TOT_LO k (t + 1) x)) % 2 ^ 64
  let d := forUpto 4 (fun k d =>
    (d.wr64 (Reg.ENERGY_ESNAP_LO k 0) (total d k 0)).wr64 (Reg.ENERGY_ESNAP_LO k 1) (total d k 1)) d
  let d := (d.wr64 (Reg.ENERGY_ESNAP_IN_LO 0) (d.rd64 (Reg.ENERGY_IN_TOT_LO 0))).wr64 (Reg.ENERGY_ESNAP_IN_LO 1)
    (d.rd64 (Reg.ENERGY_IN_TOT_LO 1))
  let d := d.wr Reg.ENERGY_ESNAP_AT (d.rd Reg.MET_QTY_QCYC)
  let was := bit (d.rd Reg.ENERGY_ESNAP_STAT) 0
  let d := d.wr Reg.ENERGY_ESNAP_STAT (d.rd Reg.ENERGY_ESNAP_STAT ||| (if was then 3 else 1))
  (d.raise Ev.ENERGY_ESNAP_DONE).raiseIf was Ev.ENERGY_ESNAP_OVR

/-- R155, R173: a MET_SNAP task. -/
def Dev.metSnap (d : Dev) (arg : Nat) : Dev :=
  let d := d.feSnap (bits arg 0 16)
  if bit arg 16 then d.energySnap else d

/-- R177, R356: what MET_QTY, ENERGY and the pulse outputs hold beside their registers is lost with MET. -/
def Dev.metReset (d : Dev) : Dev :=
  { d with
    fe := { pins := d.fe.pins }
    qty := {}
    rem := {}
    pulses := Vector.replicate 2 {} }

end Sys2Proof.Machine
end

