-- ==== Sys2Proof/Machine/Mule.lean ====
section
/-! DEFINITION. MULE: contexts and frames, copies and trust, page-ins, holds and pins, the start of save epochs
(R202–R224).  The ends of epochs, the restore and the format stand in MuleStore.lean. -/

namespace Sys2Proof.Machine

/-! ### The FRAM (R215, R216) -/

/-- What an unlisted byte of the FRAM reads as (DESIGN CHOICE: 0). -/
def framDflt (_ : Nat) : Byte := 0

def Dev.framRd (d : Dev) (a n : Nat) : List Byte := d.mem.fram.getMany framDflt a n

def Dev.framWr (d : Dev) (a : Nat) (bs : List Byte) : Dev := { d with mem.fram := d.mem.fram.setMany framDflt a bs }

/-- R215: the slot of epoch `e`. -/
def slotBase (e : Nat) : Nat := if e % 2 = 0 then 0x1000 else 0x2000

/-- R215: copy `c` (0 A, 1 B) of account `n`. -/
def copyAddr (c n : Nat) : Nat := (if c = 0 then 0x10000 else 0x50000) + n * 256

/-- The map bits of account `n`: WRITTEN (`ofs` 0x100) or FORCED (`ofs` 0x180) of epoch `e`'s slot (R216). -/
def Dev.mapBit (d : Dev) (ofs e n : Nat) : Bool := bit (leNat (d.framRd (slotBase e + ofs + n / 8) 1)) (n % 8)

def Dev.setMapBit (d : Dev) (ofs e n : Nat) (b : Bool) : Dev :=
  let a := slotBase e + ofs + n / 8
  d.framWr a [BitVec.ofNat 8 (setBits (leNat (d.framRd a 1)) (n % 8) 1 (b2n b))]

/-- The accounts of a map of 128 bytes. -/
def mapAccts (bs : List Byte) : List Nat :=
  (List.range 1024).filter fun n => bit ((bs[n / 8]?).getD 0).toNat (n % 8)

/-- A context with MULE's bytes set: tag, count and check (R203). -/
def stamped (bs : List Byte) (tag cnt : Nat) : List Byte :=
  let body := bs.take 4 ++ leBytes 4 tag ++ (bs.drop 8).take 240 ++ leBytes 4 cnt
  body ++ leBytes 4 (crc32 body)

/-- R206: whether a copy passes its checks of CRC, ACCT and FMT. -/
def contextGood (bs : List Byte) (n : Nat) : Bool :=
  leNat (bs.drop 252) == crc32 (bs.take 252) && leNat (bs.take 2) == n && leNat ((bs.drop 2).take 1) == 1

/-! ### Frames (R205) -/

/-- The frame that holds account `n`. -/
def Dev.frameOf (d : Dev) (n : Nat) : Option Nat :=
  (List.range 64).find? fun f => d.on (Fld.MULE_FRAME_VALID f) && d.f (Fld.MULE_FRAME_ACCT f) == n

/-- The words `w`, … of bank `b` as MULE reads them: an uncorrectable word gives a free value. -/
def Dev.muleRead (d : Dev) (b w : Nat) : Nat → List Nat × Dev
  | 0 => ([], d)
  | n + 1 =>
    match d.readRow 3 b w w false with
    | (some x, d) =>
      match Dev.muleRead d b (w + 1) n with
      | (xs, d) => (x :: xs, d)
    | (none, d) =>
      match Dev.muleRead d.fresh.2 b (w + 1) n with
      | (xs, d') => (d.fresh.1.toNat :: xs, d')

/-- The 256 bytes of frame `f`. -/
def Dev.frameBytes (d : Dev) (f : Nat) : List Byte × Dev :=
  match d.muleRead 19 (f * 64) 64 with
  | (ws, d) => (bytesOf (ws.map (BitVec.ofNat 32)), d)

/-- Words stored by MULE. -/
def Dev.muleWrite (d : Dev) (b w : Nat) : List Nat → Dev
  | [] => d
  | x :: xs => Dev.muleWrite (d.putCode b w (encodeWord b w x)) b (w + 1) xs

def Dev.setFrameBytes (d : Dev) (f : Nat) (bs : List Byte) : Dev :=
  d.muleWrite 19 (f * 64) ((wordsOf bs).map (·.toNat))

/-- Every frame invalid; HERD holds none of them any more (R68). -/
def Dev.clearFrames (d : Dev) : Dev :=
  let d := forUpto 64 (fun f d => d.wr (Reg.MULE_FRAME f) 0) d
  { d with herd.holds := d.herd.holds.filter (!·.held) }

/-- R214: the frames pinned. -/
def Dev.pinCount (d : Dev) : Nat :=
  ((List.range 64).filter fun f => d.on (Fld.MULE_FRAME_VALID f) && d.on (Fld.MULE_FRAME_PIN f)).length

/-! ### Errors (R211) -/

def causeFram : Nat := 1
def causeCorrupt : Nat := 2
def causeNoCopy : Nat := 3
def causeTimeout : Nat := 4
def causeParkFull : Nat := 5
def causePfw : Nat := 6
def causeNoStore : Nat := 7
def causePinFull : Nat := 8

def PageSrc.code : PageSrc → Nat
  | .lc => 0 | .herd => 1 | .pin => 2 | .cmd => 5

/-- R211: the record of a failure and PAGE_ERR. -/
def Dev.pageErr (d : Dev) (acct cause src : Nat) : Dev :=
  let older := d.on Fld.MULE_ERR_INFO_VALID
  let ovr := older || d.on Fld.MULE_ERR_INFO_OVR
  let d := d.wr Reg.MULE_ERR_INFO (acct + cause * 2 ^ 12 + src * 2 ^ 16 + 2 ^ 20 + b2n ovr * 2 ^ 21)
  (d.raiseIf older Ev.MULE_LOG_OVR).raise Ev.MULE_PAGE_ERR

/-- R211, R212, R214: request `q` ends with a cause. -/
def Dev.pageFail (d : Dev) (q : PageReq) (cause : Nat) : Dev :=
  let d := d.pageErr q.acct cause q.src.code
  match q.src with
  | .lc => if d.mule.lcWait == some q.acct then { d with mule.lcFail := some q.acct } else d
  | .herd => { d with mule.reports := d.mule.reports ++ [(q.acct, false)] }
  | .pin => d.wr Reg.MULE_PIN_STAT (cause * 2)
  | .cmd => d.wr Reg.MULE_CMD_STAT (cause * 2)

/-- A request is met by frame `f` (R78, R206, R213, R214). -/
def Dev.pageServed (d : Dev) (q : PageReq) (f : Nat) : Dev :=
  match q.src with
  | .lc => d
  | .herd => { d with mule.reports := d.mule.reports ++ [(q.acct, true)] }
  | .pin =>
    if 40 ≤ d.pinCount && !d.on (Fld.MULE_FRAME_PIN f) then (d.pageFail q causePinFull).raise Ev.MULE_PIN_FULL
    else (d.setF (Fld.MULE_FRAME_PIN f) 1).wr Reg.MULE_PIN_STAT 0
  | .cmd => (d.setF (Fld.MULE_FRAME_DIRTY f) 1).wr Reg.MULE_CMD_STAT 0

/-! ### Copies and trust (R217, R218) -/

/-- R217: whether copy `c` of account `n` is trusted, and its tag. -/
def Dev.trusted (d : Dev) (n c : Nat) : Option Nat :=
  let tag := leNat (d.framRd (copyAddr c n + 4) 4)
  let opn := d.rd Reg.MULE_EPOCH_OPEN
  if tag ≤ d.rd Reg.MULE_LAST_COMMIT || (tag == opn && d.mapBit 0x100 opn n && !d.mapBit 0x180 opn n) then some tag
  else none

/-- R217: the trusted copy with the higher tag; which of two with one tag is free. -/
def Dev.chooseCopy (d : Dev) (n : Nat) : Option Nat :=
  match d.trusted n 0, d.trusted n 1 with
  | some a, some b => some (if a = b then d.fresh.1.toNat % 2 else if b < a then 0 else 1)
  | some _, none => some 0
  | none, some _ => some 1
  | none, none => none

/-- R218: the context `bs` of account `n`, whose newest trusted copy is `slot`, is written with tag OPEN into the other
copy. -/
def Dev.writeCopy (d : Dev) (n slot : Nat) (bs : List Byte) : Dev :=
  let opn := d.rd Reg.MULE_EPOCH_OPEN
  let cnt := leNat ((bs.drop 248).take 4) + 1
  let out := stamped bs opn cnt
  let d := d.setMapBit 0x100 opn n true
  let d := d.framWr (copyAddr (1 - slot) n) out
  let d := if d.mapBit 0x180 opn n then d.setMapBit 0x180 opn n false else d
  let d := { d with mule.parked := d.mule.parked.map fun (p : Parked) => if p.acct = n then { p with slot := 1 - slot } else p }
  match d.frameOf n with
  | some f =>
    let d := d.setF (Fld.MULE_FRAME_SLOT f) (1 - slot)
    let d := d.muleWrite 19 (f * 64 + 1) [opn]
    d.muleWrite 19 (f * 64 + 62) [cnt, leNat (out.drop 252)]
  | none => d

/-! ### Page-ins (R206) -/

def Dev.muleSaving (d : Dev) : Bool := d.mule.epoch.any fun e => e.phase == .saving

def Dev.stageBank (d : Dev) : Nat := d.f Fld.MULE_CTRL_STAGE_BANK

/-- R222: MULE owns the staging bank, and its domain is on. -/
def Dev.stageOk (d : Dev) : Bool := d.owns 3 d.stageBank && d.domOn (bankDom d.stageBank)

/-- R181, R182, R222: MULE's access to word `w` of the staging bank, whether it is performed: a bank that MULE does not own
is recorded. -/
def Dev.stageAsk (d : Dev) (w : Nat) : Bool × Dev :=
  if !d.domOn (bankDom d.stageBank) then (false, d)
  else if d.owns 3 d.stageBank then (true, d.drained 3 d.stageBank)
  else (false, d.nonOwner 3 d.stageBank w)

/-- R222, R223: an epoch is given up.  The contexts that it staged and has not written out are DIRTY again, so that the
epoch started again under its number saves them. -/
def Dev.epochDrop (d : Dev) (cause : Nat) : Dev :=
  match d.mule.epoch with
  | some e =>
    let d := e.dirty.foldl (fun d f => d.setF (Fld.MULE_FRAME_DIRTY f) 1) { d with mule.epoch := none }
    let d := if e.byCmd then d.wr Reg.MULE_CMD_STAT (cause * 2) else d
    (d.inc Reg.MULE_EPOCH_FAIL_CNT).raise Ev.MULE_EPOCH_FAIL
  | none => d

/-- R206: the epoch in progress has frame `f`'s snapshot still to write. -/
def Dev.inEpoch (d : Dev) (f : Nat) : Bool := d.mule.epoch.any fun e => e.phase == .saving && e.staged.any (·.1 == f)

/-- R206 step 1: the victim, the clock hand and the REF bits after the scan (at most two sweeps). -/
def Dev.scanFrames : Nat → Nat → Dev → Option Nat × Dev
  | 0, _, d => (none, d)
  | n + 1, f, d =>
    let next := (f + 1) % 64
    if !d.on (Fld.MULE_FRAME_VALID f) then (some f, { d with mule.hand := next })
    else if d.on (Fld.MULE_FRAME_PIN f) || d.on (Fld.MULE_FRAME_HOLD f) || d.inEpoch f then Dev.scanFrames n next d
    else if d.on (Fld.MULE_FRAME_REF f) then Dev.scanFrames n next (d.setF (Fld.MULE_FRAME_REF f) 0)
    else (some f, { d with mule.hand := next })

/-- The bytes of `n` words of the staging bank. -/
def Dev.stageBytes (d : Dev) (w n : Nat) : List Byte × Dev :=
  match d.muleRead d.stageBank w n with
  | (ws, d) => (bytesOf (ws.map (BitVec.ofNat 32)), d)

/-- R218, R220 phase 2: a staged context is written out; an older version that stands parked is gone with it. -/
def Dev.saveContext (d : Dev) (n slot : Nat) (bs : List Byte) : Dev :=
  let d := d.writeCopy n slot bs
  { d with mule.parked := d.mule.parked.filter fun (p : Parked) => p.acct != n }

/-- R220 phase 2: the staged contexts, whose frames have held them since the snapshot. -/
def Dev.saveStaged (d : Dev) (staged : List (Nat × Nat)) : Dev :=
  staged.foldl (fun d p =>
    match d.stageBytes (p.1 * 64) 64 with
    | (bs, d) => d.saveContext p.2 (d.f (Fld.MULE_FRAME_SLOT p.1)) bs) d

/-- The save phase has written its staged contexts; an epoch that no longer finds its staging bank fails. -/
def Dev.stagedOut (d : Dev) : Dev :=
  match d.mule.epoch with
  | some e =>
    match d.stageAsk ((e.staged.head?.map (·.1 * 64)).getD 4096) with
    | (true, d) => { d.saveStaged e.staged with mule.epoch := some { e with staged := [], dirty := [] } }
    | (false, d) => d.epochDrop 15
  | none => d

/-- R206 step 1; where every frame left is in use by the epoch, the page-in waits until the epoch has written them. -/
def Dev.victim (d : Dev) (framOk : Bool) : Option Nat × Dev :=
  match Dev.scanFrames 128 d.mule.hand d with
  | (some f, d) => (some f, d)
  | (none, d) => if framOk then Dev.scanFrames 128 d.stagedOut.mule.hand d.stagedOut else (none, d)

/-- R221: the lowest free parking place, or the one that account `n` has. -/
def Dev.parkPlace (d : Dev) (n : Nat) : Option Nat :=
  match d.mule.parked.find? (·.acct == n) with
  | some p => some p.place
  | none => (List.range 48).find? fun k => d.mule.parked.all (·.place != k)

/-- R221: the dirty victim `f` is parked; whether it could be. -/
def Dev.park (d : Dev) (f : Nat) : Bool × Dev :=
  let n := d.f (Fld.MULE_FRAME_ACCT f)
  match d.parkPlace n with
  | none => (false, d)
  | some k =>
    match d.stageAsk (5120 + 64 * k) with
    | (false, d) => (false, d)
    | (true, d) =>
      match d.muleRead 19 (f * 64) 64 with
      | (ws, d) =>
        let d := d.muleWrite d.stageBank (5120 + 64 * k) ws
        let p : Parked := { place := k, acct := n, slot := d.f (Fld.MULE_FRAME_SLOT f) }
        let d := { d with mule.parked := d.mule.parked.filter (fun (x : Parked) => x.acct != n) ++ [p] }
        (true, (d.setF (Fld.MULE_FRAME_VALID f) 0).inc Reg.MULE_PARK_CNT)

/-- R206 step 2: the victim `f` is written out or parked where it is dirty; the cause where that fails. -/
def Dev.evict (d : Dev) (f : Nat) (framOk : Bool) : Option Nat × Dev :=
  if !(d.on (Fld.MULE_FRAME_VALID f) && d.on (Fld.MULE_FRAME_DIRTY f)) then (none, d)
  else if d.muleSaving then
    match d.park f with
    | (true, d) => (none, d)
    | (false, d) => (some causeParkFull, d.raise Ev.MULE_PARK_FULL)
  else if d.on Fld.PWR_SUPPLY_PFW then (some causePfw, d.raise Ev.MULE_PFW_STOP)
  else if !framOk then (some causeFram, d)
  else
    match d.frameBytes f with
    | (bs, d) =>
      let d := d.saveContext (d.f (Fld.MULE_FRAME_ACCT f)) (d.f (Fld.MULE_FRAME_SLOT f)) bs
      (none, (d.setF (Fld.MULE_FRAME_DIRTY f) 0).inc Reg.MULE_DIRTY_CNT)

/-- R206 step 5: a context into frame `f`. -/
def Dev.fillFrame (d : Dev) (f n slot : Nat) (bs : List Byte) : Dev :=
  ((d.setFrameBytes f bs).wr (Reg.MULE_FRAME f) (n + 2 ^ 16 + 2 ^ 18 + slot * 2 ^ 24)).inc Reg.MULE_PAGEIN_CNT

/-- R206 steps 3 and 4: the context of account `n`: its bytes and copy, or the cause of a failure; `adopt`: the trusted
copy that is not chosen (R213).  The cause for a parked context whose bank is not reached is stated nowhere: free. -/
def Dev.fetchContext (d : Dev) (n : Nat) (adopt framOk : Bool) : Except Nat (List Byte × Nat) × Dev :=
  match d.mule.parked.find? (·.acct == n) with
  | some p =>
    match d.stageAsk (5120 + 64 * p.place) with
    | (true, d) =>
      match d.stageBytes (5120 + 64 * p.place) 64 with
      | (bs, d) => (.ok (bs, p.slot), d)
    | (false, d) => (.error (1 + d.fresh.1.toNat % 8), d.fresh.2)
  | none =>
    if !framOk then (.error causeFram, d)
    else
      match d.chooseCopy n with
      | none => (.error causeNoCopy, d)
      | some c =>
        let d := d.fresh.2
        let c' := if adopt then 1 - c else c
        if (d.trusted n c').isNone then (.error causeNoCopy, d)
        else
          let bs := d.framRd (copyAddr c' n) 256
          if contextGood bs n then (.ok (bs, c'), d) else (.error causeCorrupt, d.raise Ev.MULE_CORRUPT)

/-- R206: the page-in of request `q`, complete: served, or ended with a cause. -/
def Dev.pageIn (d : Dev) (q : PageReq) (framOk : Bool) : Dev :=
  match d.victim framOk with
  | (none, d) => d.pageFail q causeFram
  | (some f, d) =>
    match d.evict f framOk with
    | (some cause, d) => d.pageFail q cause
    | (none, d) =>
      match d.fetchContext q.acct (q.src == .cmd) framOk with
      | (.error cause, d) => d.pageFail q cause
      | (.ok (bs, slot), d) => (d.fillFrame f q.acct slot bs).pageServed q f

/-! ### Requests (R207, R212) -/

/-- MULE serves requests. -/
def Dev.muleReady (d : Dev) : Bool := d.mule.store == .ready && d.on Fld.MULE_CTRL_EN

def PageSrc.rank : PageSrc → Nat
  | .lc => 0 | .herd => 1 | .pin => 2 | .cmd => 3

/-- R207: the request served next: the first of the highest class. -/
def nextReq (l : List PageReq) : Option PageReq :=
  (List.range 4).findSome? fun k => l.find? fun q => q.src.rank == k

def Dev.muleSnapping (d : Dev) : Bool := d.mule.epoch.any fun e => e.phase == .snapshot

/-- R220: the frames of an epoch's snapshot. -/
def Dev.epochFrames (d : Dev) (full : Bool) : List Nat :=
  (List.range 64).filter fun f => d.on (Fld.MULE_FRAME_VALID f) && (full || d.on (Fld.MULE_FRAME_DIRTY f))

/-- R222: the snapshot's first access to the staging bank. -/
def Dev.snapAsk (d : Dev) (e : Epoch) : Bool × Dev := d.stageAsk (((d.epochFrames e.full).head?.map (· * 64)).getD 4096)

/-- R207: what MULE turns to next: requests that a resident frame meets are met at once, the next other one starts its
page-in, and with none left a waiting epoch takes its snapshot. -/
def Dev.muleNext : Nat → Dev → Dev
  | 0, d => d
  | n + 1, d =>
    if d.mule.op.isSome || d.muleSnapping then d
    else
      match nextReq d.mule.reqs with
      | some q =>
        let d := { d with mule.reqs := d.mule.reqs.erase q }
        match (if q.src == .cmd then none else d.frameOf q.acct) with
        | some f => Dev.muleNext n (d.pageServed q f)
        | none => { d with mule.op := some q, mule.framBad := false }
      | none =>
        match d.mule.epoch with
        | some e =>
          if e.phase == .waiting then
            match d.snapAsk e with
            | (true, d) => { d with mule.epoch := some { e with phase := .snapshot } }
            | (false, d) => d.epochDrop 15
          else d
        | none => d

def Dev.muleGo (d : Dev) : Dev := Dev.muleNext (d.mule.reqs.length + 1) d

/-- A request for a context: ended at once where MULE serves none (R212, R226). -/
def Dev.pageRequest (d : Dev) (q : PageReq) : Dev :=
  if d.muleReady then { d with mule.reqs := d.mule.reqs ++ [q] }.muleGo
  else d.pageFail q causeNoStore

/-! ### HERD's holds (R78) -/

/-- R78: HERD asks for context `n`: held, failed, or still to come. -/
def Dev.ctxAsk (d : Dev) (n : Nat) : Option Bool × Dev :=
  match (if d.muleReady && !d.muleSnapping then d.frameOf n else none) with
  | some f => (some true, d.setF (Fld.MULE_FRAME_HOLD f) (d.f (Fld.MULE_FRAME_HOLD f) + 1))
  | none =>
    if !d.muleReady then (some false, d.pageErr n causeNoStore 1)
    else if d.mule.reqs.contains ⟨.herd, n⟩ || d.mule.op == some ⟨.herd, n⟩ then (none, d)
    else (none, { d with mule.reqs := d.mule.reqs ++ [PageReq.mk .herd n] }.muleGo)

/-- R78: one hold on context `n` ends. -/
def Dev.ctxRelease (d : Dev) (n : Nat) : Dev :=
  match d.frameOf n with
  | some f => d.setF (Fld.MULE_FRAME_HOLD f) (d.f (Fld.MULE_FRAME_HOLD f) - 1)
  | none => d

/-- R78: context `n` is held `k` times more. -/
def Dev.ctxHold (d : Dev) (n k : Nat) : Dev :=
  match d.frameOf n with
  | some f => d.setF (Fld.MULE_FRAME_HOLD f) (min 15 (d.f (Fld.MULE_FRAME_HOLD f) + k))
  | none => d

/-! ### Save epochs: the start (R219, R220, R224, R229) -/

/-- SAVE_PERIOD as it acts (R219). -/
def Dev.savePeriod (d : Dev) : Nat :=
  min (min 30000 (max 50 (d.f Fld.MULE_SAVE_CFG_SAVE_PERIOD))) (min 30000 (max 50 (d.f Fld.MULE_SAVE_MAX_MAX)))

/-- R219: an epoch starts with a cause, unless one runs, MULE holds no store, or the power-fail warning stands. -/
def Dev.epochStart (d : Dev) (cause : Nat) (full byCmd : Bool) : Dev :=
  if d.mule.epoch.isSome || !d.muleReady || d.on Fld.PWR_SUPPLY_PFW then d
  else
    let e : Epoch := { cause := if d.mule.fresh then 4 else cause, full := full, byCmd := byCmd }
    { d with mule.epoch := some e }.muleGo

/-- R229: the quiesce of LGL or SYS: an epoch, or one after what is in progress. -/
def Dev.quiesceEpoch (d : Dev) : Dev :=
  if d.mule.epoch.isSome || d.mule.store == .restoring || d.mule.store == .formatting then { d with mule.owed := true }
  else d.epochStart 3 false false

/-- R229: whether MULE still holds the quiesce of LGL or SYS. -/
def Dev.muleBusySaving (d : Dev) : Bool :=
  d.mule.epoch.isSome || d.mule.store == .restoring || d.mule.store == .formatting

/-! ### Registers -/

/-- STATUS.STATE. -/
def Dev.muleState (d : Dev) : Nat :=
  match d.mule.store with
  | .notReady => 0
  | .restoring => 5
  | .formatting => 6
  | .ready | .failed =>
    if !d.on Fld.MULE_CTRL_EN then 7
    else if d.mule.op.isSome then 2
    else match d.mule.epoch with
      | some e => if e.phase == .saving then 4 else 3
      | none => 1

/-- R225: the forced set not yet rewritten. -/
def Dev.forcedSet (d : Dev) : List Nat :=
  if d.mule.store == .ready then mapAccts (d.framRd (slotBase (d.rd Reg.MULE_EPOCH_OPEN) + 0x180) 128) else []

def Dev.muleStatus (d : Dev) : Nat :=
  let valid := (List.range 64).filter fun f => d.on (Fld.MULE_FRAME_VALID f)
  let holds := sumN (valid.map fun f => d.f (Fld.MULE_FRAME_HOLD f))
  d.muleState + b2n (d.on Fld.PWR_SUPPLY_PFW) * 8 + b2n (!d.forcedSet.isEmpty) * 16 + valid.length * 2 ^ 8
  + d.pinCount * 2 ^ 16 + min 15 holds * 2 ^ 22 + d.mule.parked.length * 2 ^ 26

/-! ### The window (R203, R204, R210, R212) -/

/-- How an LC access to the window goes: served from a frame, refused, or stalled. -/
inductive WindowAnswer where
  | frame (f : Nat) | refused | stalled
deriving DecidableEq, Repr

/-- R203: MULE's own bytes of a context. -/
def protByte (a : Nat) : Bool := a % 256 < 8 || 248 ≤ a % 256

/-- R203, R204, R210, R212: an LC access to window offset `a`. -/
def Dev.windowAsk (d : Dev) (a : Nat) (write : Bool) : WindowAnswer × Dev :=
  let n := a / 256
  let failed := d.mule.lcFail == some n
  let d := { d with mule.lcFail := none, mule.lcWait := none }
  if write && protByte a then (.refused, d.raise Ev.MULE_WIN_PROT)
  else if failed then (.refused, d)
  else if !d.muleReady && (d.frameOf n).isNone then (.refused, d.pageErr n causeNoStore 0)
  else if d.muleSnapping then (.stalled, { d with mule.lcWait := some n })
  else match d.frameOf n with
    | some f =>
      let d := d.setF (Fld.MULE_FRAME_REF f) 1
      (.frame f, if write then d.setF (Fld.MULE_FRAME_DIRTY f) 1 else d)
    | none =>
      let d := { d with mule.lcWait := some n }
      if d.mule.op == some ⟨.lc, n⟩ || d.mule.reqs.contains ⟨.lc, n⟩ then (.stalled, d)
      else (.stalled, d.pageRequest ⟨.lc, n⟩)

/-- The LC's stall is over: its account is resident, or its page-in has failed. -/
def Dev.stallOver (d : Dev) : Bool :=
  !d.muleSnapping && d.mule.lcWait.any fun n => (d.frameOf n).isSome || d.mule.lcFail == some n

/-- A longest time, in 0.1 µs, in a maximum register. -/
def Dev.maxTime (d : Dev) (a t : Nat) : Dev := d.wr a (max (d.rd a) (min 65535 t))

/-- R209: the page-in in progress has lasted 400 µs, an LC stall with it `stall` × 0.1 µs. -/
def Dev.pageTimeout (d : Dev) (stall : Nat) : Dev :=
  match d.mule.op with
  | some q =>
    let d := { d with mule.op := none, mule.framBad := false }.pageFail q causeTimeout
    let d := (d.maxTime Reg.MULE_PAGEIN_MAX 4000).muleGo
    if d.stallOver then d.maxTime Reg.MULE_STALL_MAX stall else d
  | none => d

/-- R206, R209–R211: the page-in in progress ends after `dur` × 0.1 µs, an LC stall with it after `stall` × 0.1 µs. -/
def Dev.pageDone (d : Dev) (framOk : Bool) (dur stall : Nat) (atLimit : Bool) : Dev :=
  match d.mule.op with
  | some q =>
    let ok := framOk && !d.mule.framBad
    let d := { d with mule.op := none, mule.framBad := false }.pageIn q ok
    let d := (d.maxTime Reg.MULE_PAGEIN_MAX dur).raiseIf atLimit Ev.MULE_AT_LIMIT
    let d := d.muleGo
    if d.stallOver then d.maxTime Reg.MULE_STALL_MAX stall else d
  | none => d

/-- R210: the LC's stall has lasted 200 µs; the page-in goes on by itself. -/
def Dev.stallTimeout (d : Dev) : Dev :=
  match d.mule.lcWait with
  | some n =>
    if d.stallOver then d
    else { (d.maxTime Reg.MULE_STALL_MAX 2000).raise Ev.MULE_STALL_TO with mule.lcFail := some n }
  | none => d

/-! ### Commands (R213, R214, R219, R227) -/

/-- R214: a write of PIN with GO. -/
def Dev.mulePin (d : Dev) (acct op : Nat) : Dev :=
  if d.on Fld.MULE_PIN_STAT_BUSY then d
  else if op = 1 then
    let known := (d.frameOf acct).any fun f => d.on (Fld.MULE_FRAME_PIN f)
    let q : PageReq := ⟨.pin, acct⟩
    if d.muleReady && 40 ≤ d.pinCount && !known then (d.pageFail q causePinFull).raise Ev.MULE_PIN_FULL
    else (d.wr Reg.MULE_PIN_STAT 1).pageRequest q
  else if op = 2 then
    match d.frameOf acct with
    | some f => (d.setF (Fld.MULE_FRAME_PIN f) 0).wr Reg.MULE_PIN_STAT 0
    | none => d.wr Reg.MULE_PIN_STAT 0
  else d

/-- CMD_STAT: refused. -/
def Dev.cmdRefused (d : Dev) : Dev := d.wr Reg.MULE_CMD_STAT 30

/-- R213, R219, R227: a write of CMD with GO. -/
def Dev.muleCmd (d : Dev) (op acct : Nat) : Dev :=
  if d.on Fld.MULE_CMD_STAT_BUSY then d
  else if op = 1 then
    if d.mule.epoch.isSome then d.cmdRefused
    else if !d.muleReady then d.wr Reg.MULE_CMD_STAT (causeNoStore * 2)
    else if d.on Fld.PWR_SUPPLY_PFW then d.wr Reg.MULE_CMD_STAT (causePfw * 2)
    else (d.wr Reg.MULE_CMD_STAT 1).epochStart 2 true true
  else if op = 2 then
    let free := match d.lifecycle with
      | .blank | .provisioned | .unsealed => true
      | _ => false
    let idle := d.mule.op.isNone && d.mule.reqs.isEmpty && d.mule.epoch.isNone
      && (d.mule.store == .ready || d.mule.store == .failed) && d.on Fld.MULE_CTRL_EN
    if free && idle then
      { (d.clearFrames.wr Reg.MULE_CMD_STAT 1) with
        mule.store := .formatting, mule.framBad := false, mule.parked := [], mule.fresh := false }
    else d.cmdRefused
  else if op = 3 then
    if (d.frameOf acct).isSome then d.cmdRefused
    else (d.wr Reg.MULE_CMD_STAT 1).pageRequest ⟨.cmd, acct⟩
  else d.cmdRefused

/-- R219: SAVE_PERIOD cycles have passed since the last snapshot. -/
def Dev.backstop (d : Dev) : Dev :=
  if d.savePeriod ≤ d.rd Reg.MULE_SINCE && d.mule.epoch.isNone && d.muleReady && !d.on Fld.PWR_SUPPLY_PFW then
    (d.epochStart 0 false false).raise Ev.MULE_BACKSTOP
  else d

/-- R211: CNT_CLR. -/
def Dev.muleCntClr (d : Dev) : Dev := forUpto 7 (fun k d => d.wr (Reg.MULE_PAGEIN_CNT + 4 * k) 0) d

/-- R225: the restore is due after a power-up of SYS or LGL, once the legal island is up, no clear runs and EN is set. -/
def Dev.muleTryRestore (d : Dev) : Dev :=
  if d.mule.store == .notReady && d.on Fld.MULE_CTRL_EN && d.domOn .lgl && d.domOn .sys && !d.on Fld.MEMCTL_CLEAR_BUSY then
    { d with mule.store := .restoring, mule.framBad := false }
  else d

/-- The frames and all of MULE's run state are lost with SYS or LGL (R212, R229), and with them what HERD asked for (R78). -/
def Dev.muleReset (d : Dev) : Dev :=
  { d.clearFrames with mule := {}, herd.holds := [] }

end Sys2Proof.Machine
end

