-- ==== Sys2Proof/Machine/Units.lean ====
section
/-! DEFINITION. The units HERD dispatches to, by code: whether one is busy, and what its acceptance of a task does
(R60, R73, R78, R453). -/

namespace Sys2Proof.Machine

/-- The flags an accepted task carries to its unit (R73). -/
structure TaskFlags where
  late : Bool
  deferred : Bool
  atLimit : Bool
deriving DecidableEq, Repr

/-- R453: event `e` is raised by HERD for one SYS clock, if it exists and its page is on. -/
def Dev.herdRaise (d : Dev) (e : Nat) : Dev := d.raiseIf (eventExists e) e

/-- R60: a unit is busy. -/
def Dev.unitBusy (d : Dev) (u : Nat) : Bool :=
  match u with
  | 1 => d.ufeBusy
  | 3 => d.rtd.conv.isSome
  | 4 => d.mule.epoch.isSome
  | 5 => d.lamp.diag != 0
  | _ => false

/-- What a unit has accepted is still in progress (R73). -/
def Dev.unitRunning (d : Dev) (u : Nat) : Bool :=
  match u with
  | 1 => d.ufe.pair.isSome
  | 3 => d.rtd.conv.isSome
  | 4 => d.mule.epoch.isSome
  | 5 => d.lamp.diag != 0
  | _ => true

/-- R329: a diagnosis of the lamps in `mask` is armed; each waits for a pulse of a period that starts after this, with the
duty written before it (R328). -/
def Dev.lampDiag (d : Dev) (mask : Nat) : Dev :=
  let m := mask % 64
  let duty : Vector Nat 6 := Vector.ofFn fun i : Fin 6 =>
    if bit m i.val then d.f (Fld.LAMP_LMP_DUTY_DUTY i.val) else d.lamp.duty[i]
  { d with lamp.diag := m, lamp.duty := duty }.raiseIf (m == 0) Ev.LAMP_DIAG_DONE

/-- R60, R73: unit `u` accepts a task with argument `arg`. -/
def Dev.unitAccept (d : Dev) (task u arg : Nat) (fl : TaskFlags) : Dev :=
  match u with
  | 1 => d.pairOffer (bits arg 0 2) (bits arg 8 4) 0 task fl.late fl.deferred fl.atLimit
  | 2 => d.metSnap arg
  | 3 => d.rtdStart (bits arg 0 3) (bit arg 3)
  | 4 => d.epochStart (if bit arg 0 then 2 else 1) (bit arg 0) false
  | 5 => d.lampDiag arg
  | 6 => d.herdRaise (bits arg 0 9)
  | 7 => d.thermTask arg fun k => d.rd (Reg.MET_QTY_RMS (8 + 2 * k))
  | _ => d

end Sys2Proof.Machine
end

