-- ==== Sys2Proof/Machine/Herd.lean ====
section
/-! DEFINITION. HERD: descriptors, arming, evaluations, misses, splices, halt and resume (R59–R81). -/

namespace Sys2Proof.Machine

/-! ### The state store -/

/-- The run state of task `i`. -/
def Dev.task (d : Dev) (i : Nat) : HTask := (d.herd.tasks.find? (·.idx == i)).getD { idx := i }

/-- `t` put into a list of tasks that rises by number. -/
def putTask (t : HTask) : List HTask → List HTask
  | [] => [t]
  | u :: us => if t.idx < u.idx then t :: u :: us else if t.idx = u.idx then t :: us else u :: putTask t us

/-- The device with a task's run state; a run state without anything to say is not listed. -/
def Dev.setTask (d : Dev) (t : HTask) : Dev :=
  { d with herd.tasks := if t = { idx := t.idx } then d.herd.tasks.filter (·.idx != t.idx) else putTask t d.herd.tasks }

/-- The occurrence has not ended: it waits, or it has been moved (R71, R80). -/
def HTask.open (t : HTask) : Bool := t.waiting || t.moved.isSome || t.search.isSome

/-- The run state with its occurrence ended. -/
def HTask.close (t : HTask) : HTask :=
  { t with waiting := false, waited := 0, moved := none, search := none, late := false, deferred := false, ctxWait := false }

/-! ### Descriptors (R59) -/

/-- A descriptor as its four words spell it. -/
structure Desc where
  period : Nat
  phase : Nat
  tick : Nat
  unit : Nat
  prio : Nat
  oneshot : Bool
  en : Bool
  qwm : Nat
  qwEn : Bool
  nctx : Nat
  ctx0 : Nat
  ctx1 : Nat
  arg : Nat
deriving DecidableEq, Repr

/-- R59: the fields of a descriptor. -/
def descOf (w0 w1 w2 w3 : Nat) : Desc :=
  { period := bits w0 0 16, phase := bits w0 16 16, tick := bits w1 8 8, unit := bits w1 16 4, prio := bits w1 20 2
    oneshot := bit w1 22, en := bit w1 23, qwm := bits w1 24 2, qwEn := bit w1 26, nctx := bits w1 27 2
    ctx0 := bits w2 0 10, ctx1 := bits w2 16 10, arg := w3 }

/-- R65, R66: HERD reads task `i`'s descriptor; none where a word is uncorrectable. -/
def Dev.readDesc (d : Dev) (i : Nat) : Option Desc × Dev :=
  match d.memReadMany 7 21 (4 * i) 4 with
  | (some [w0, w1, w2, w3], d) => (some (descOf w0 w1 w2 w3), d)
  | (_, d) => (none, d)

/-- The descriptor as it stands, found without a read. -/
def Dev.peekDesc (d : Dev) (i : Nat) : Option Desc :=
  match d.memPeek 21 (4 * i), d.memPeek 21 (4 * i + 1), d.memPeek 21 (4 * i + 2), d.memPeek 21 (4 * i + 3) with
  | some w0, some w1, some w2, some w3 => some (descOf w0 w1 w2 w3)
  | _, _, _, _ => none

/-- The contexts a descriptor names (R78). -/
def Desc.ctxs (t : Desc) : List Nat := [t.ctx0, t.ctx1].take t.nctx

/-- R61: the first task of the application partition. -/
def partTasks (blocks : Nat) : Nat := 32 * min blocks 32

def Dev.legalTask (d : Dev) (i : Nat) : Bool := i < partTasks (d.f Fld.HERD_PART_LGL_BLOCKS)

/-- R60: an application task may name events of APP and SHARED pages only. -/
def appEvent (e : Nat) : Bool :=
  match eventPlace e with
  | some (p, _) => p.owner != .legal
  | none => false

/-- R62: whether arming task `i` with descriptor `t` is allowed. -/
def Dev.mayArm (d : Dev) (i : Nat) (t : Desc) : Bool :=
  t.period != 0 && 1 ≤ t.unit && t.unit ≤ 7 && t.nctx != 3
  && (d.legalTask i || (t.nctx == 0 && t.unit != 4 && (t.unit != 6 || appEvent (bits t.arg 0 9))))

/-! ### Time -/

/-- The time of a due cycle and tick, in au after cycle `c0 : 0x0000` (R36). -/
def auFrom (c0 : Word) (c : Word) (tick : Nat) : Int := cycDiff c c0 * 65536 + tick * 256

/-- R63: the first cycle at or after `c` with c mod PERIOD = PHASE mod PERIOD, on the 32-bit count. -/
def firstCycle (c period phase : Nat) : Nat :=
  let p := max 1 period
  let x := c + (phase % p + p - c % p) % p
  if x < 2 ^ 32 then x else phase % p

/-- R63: the first due time of descriptor `t` from cycle `c`, tick `k` on; `after`: later than that tick. -/
def firstDue (t : Desc) (c : Word) (k : Nat) (after : Bool) : Word × Nat :=
  let now := if after then k < t.tick else k ≤ t.tick
  let c0 := if now then c.toNat else (c + 1).toNat
  (BitVec.ofNat 32 (firstCycle c0 t.period t.phase), t.tick)

/-! ### Reports (R73, R74) -/

/-- R74: the mains time of a report. -/
def Dev.reportTime (d : Dev) : Word × Nat := if d.mae.running || d.mae.hasRun then (d.mae.cyc, d.mae.tick) else (0, 0)

/-- R78: the holds of task `i` are released. -/
def Dev.releaseHolds (d : Dev) (i : Nat) : Dev :=
  let mine := d.herd.holds.filter (·.task == i)
  let d := { d with herd.holds := d.herd.holds.filter (·.task != i), herd.asks := d.herd.asks.filter (·.1 != i) }
  mine.foldl (fun d h => if h.held then d.ctxRelease h.ctx else d) d

/-- R73: HERD reads the word with ONESHOT and EN at the end of an occurrence; of a ONESHOT task it clears EN. -/
def Dev.endOneshot (d : Dev) (i : Nat) : Dev :=
  let w := 4 * i + 1
  match d.memRead 7 21 w with
  | (some x, d) =>
    if bit x 22 then
      (d.putCode 21 w (encodeWord 21 w (setBits x 23 1 0))).setTask { d.task i with armed := false, due := none }
    else d
  | (none, d) => d

/-- R74: task `i` is reported MISSED with a cause. -/
def Dev.missed (d : Dev) (i cause : Nat) : Dev :=
  let d := (d.releaseHolds i)
  let d := d.setTask { (d.task i).close with lastCause := cause }
  let n := d.f Fld.HERD_MISS_WR_IDX
  let older := d.on (Fld.HERD_MISS_INFO_VALID n)
  let tm := d.reportTime
  let d := d.wr (Reg.HERD_MISS_CYC n) tm.1.toNat
  let d := d.wr (Reg.HERD_MISS_INFO n) (i + cause * 2 ^ 10 + tm.2 * 2 ^ 14 + 2 ^ 22 + b2n (!d.mae.running) * 2 ^ 23)
  let d := (d.setF Fld.HERD_MISS_WR_IDX (n + 1)).raiseIf older Ev.HERD_LOG_OVR
  ((d.inc Reg.HERD_MISS_CNT).raise Ev.HERD_MISSED).endOneshot i

/-- R62, R66: DESC_ERR is raised and counted. -/
def Dev.descErr (d : Dev) : Dev := (d.inc Reg.HERD_DESC_ERR_CNT).raise Ev.HERD_DESC_ERR

/-- R66: a descriptor that cannot be read ends the occurrence and disarms the task. -/
def Dev.descMissed (d : Dev) (i : Nat) : Dev :=
  let d := (d.missed i 6).descErr
  d.setTask { d.task i with armed := false, due := none }

/-! ### Arming (R62–R64) -/

/-- R62, R63: task `i` is armed, or refused with DESC_ERR. -/
def Dev.arm (d : Dev) (i : Nat) : Dev :=
  match d.readDesc i with
  | (some t, d) =>
    if d.mayArm i t then
      let due := if d.mae.running && d.on Fld.HERD_CTRL_EN then some (firstDue t d.mae.cyc d.mae.tick true) else none
      d.setTask { d.task i with armed := true, due := due, skip := false }
    else d.descErr
  | (none, d) => d.descErr

/-- R64: task `i` is disarmed and withdrawn. -/
def Dev.disarm (d : Dev) (i : Nat) : Dev :=
  let d := d.releaseHolds i
  d.setTask { (d.task i).close with armed := false, due := none, skip := false }

/-- R62, R64: what a write to bytes 4–7 of descriptor `i` leaves. -/
def Dev.afterEnWrite (d : Dev) (i : Nat) : Dev :=
  match d.memPeek 21 (4 * i + 1) with
  | some w =>
    if bit w 23 then (if (d.task i).armed then d else d.arm i)
    else if (d.task i).armed || (d.task i).open then d.disarm i else d
  | none => d

/-- R61, R62: a write into the task RAM at byte offset `off`; the answer is a bus error where it is not performed. -/
def Dev.taskWrite (d : Dev) (r : Requester) (off data : Nat) (size : Size) : Dev :=
  let w := off / 4 % 4096
  let i := w / 4
  if !r.legal && d.legalTask i then
    ((d.raise Ev.HERD_PART_VIOL).violation r 5 (0x39000000 + off) true).answer .error
  else
    let sh := 8 * (off % 4)
    let res := match size with
      | .word => d.memWrite 7 21 w data
      | .half => d.memPartial 7 21 w (3 * 2 ^ (off % 4)) (data % 65536 * 2 ^ sh)
      | .byte => d.memPartial 7 21 w (2 ^ (off % 4)) (data % 256 * 2 ^ sh)
    match res with
    | (true, d) => (if w % 4 == 1 then d.afterEnWrite i else d).answer .done
    | (false, d) => d.answer .error

/-- R67: a write of PART.LGL_BLOCKS. -/
def Dev.partWrite (d : Dev) (blocks : Nat) : Dev :=
  let old := partTasks (d.f Fld.HERD_PART_LGL_BLOCKS)
  let new := partTasks blocks
  let d := d.setF Fld.HERD_PART_LGL_BLOCKS blocks
  let hit := (d.herd.tasks.map (·.idx)).filter fun i => (d.task i).armed && decide (i < old) != decide (i < new)
  (hit.foldl (fun d i => d.disarm i) d).raiseIf (!hit.isEmpty) Ev.HERD_DESC_ERR

/-! ### Eligibility (R60, R68, R75) -/

/-- R60: whether the domains that unit `u` with argument `arg` needs are on. -/
def Dev.unitPowered (d : Dev) (u arg : Nat) : Bool :=
  match u with
  | 1 => d.domOn .ufa && d.domOn .ufd
  | 2 => d.domOn .met
  | 3 => d.domOn .ufa
  | 4 | 5 => d.domOn .per
  | 6 => match eventPlace (bits arg 0 9) with
    | some (p, _) => d.domOn p.dom
    | none => true
  | 7 => d.domOn .ufd
  | _ => true

/-- R52–R54: whether tick `j` of the present cycle is quiet under mask `m`. -/
def Dev.quietTick (d : Dev) (m j : Nat) : Bool :=
  (d.maeState == maeSynth && d.on Fld.MAE_CTRL_QW_IN_SYNTH)
  || (if j / 4 < 32 then bit (d.rd (Reg.MAE_QWM_LO m)) (j / 4) else bit (d.rd (Reg.MAE_QWM_HI m)) (j / 4 - 32))

/-- R60: SPAN of a pair task. -/
def pairSpan (arg : Nat) : Nat := max 1 (bits arg 4 4)

/-- R75: whether the span of `n` ticks from tick `j` is quiet. -/
def Dev.quietSpan (d : Dev) (m n j : Nat) : Bool := j + n ≤ 256 && (List.range n).all fun i => d.quietTick m (j + i)

/-- R75: whether the descriptor's span is quiet in tick `j` (always where it is not tested). -/
def Dev.descQuiet (d : Dev) (t : Desc) (j : Nat) : Bool :=
  t.unit != 1 || !t.qwEn || d.quietSpan t.qwm (pairSpan t.arg) j

/-- R76: the first quiet tick from `j` on. -/
def Dev.firstQuiet (d : Dev) (t : Desc) (j : Nat) : Option Nat :=
  (List.range (256 - j)).findSome? fun i => if d.descQuiet t (j + i) then some (j + i) else none

/-- R68, R78: whether every named context is resident and held for task `i`. -/
def Dev.ctxsHeld (d : Dev) (i : Nat) (t : Desc) : Bool :=
  t.ctxs.all fun c => (d.frameOf c).isSome && d.herd.holds.any fun h => h.task == i && h.ctx == c && h.held

/-- R68: whether task `i` with descriptor `t` is eligible at tick `k`; `used`: the unit codes accepted in this
evaluation that stay busy through it (R60). -/
def Dev.eligible (d : Dev) (i : Nat) (t : Desc) (k : Nat) (used : List Nat) : Bool :=
  !(d.unitBusy t.unit || used.contains t.unit) && d.unitPowered t.unit t.arg && d.descQuiet t k && d.ctxsHeld i t

/-! ### Contexts (R78) -/

/-- R78: a context of task `i` cannot be had: its occurrence, or its next one, is MISSED with cause CTX. -/
def Dev.ctxMissed (d : Dev) (i : Nat) : Dev :=
  let t := d.task i
  let d := if t.open then d else d.setTask { t with skip := true }
  d.missed i 4

/-- R78: HERD asks MULE for the contexts of task `i` that it has not asked for yet; beyond eight holds a request waits. -/
def Dev.askContexts (i : Nat) : List Nat → Dev → Dev
  | [], d => d
  | c :: cs, d =>
    if d.herd.holds.any (fun h => h.task == i && h.ctx == c) || d.herd.asks.contains (i, c) then Dev.askContexts i cs d
    else if 8 ≤ d.herd.holds.length then Dev.askContexts i cs { d with herd.asks := d.herd.asks ++ [(i, c)] }
    else
      match d.ctxAsk c with
      | (some false, d) => d.ctxMissed i
      | (r, d) =>
        Dev.askContexts i cs { d with herd.holds := d.herd.holds ++ [{ task := i, ctx := c, held := r.isSome }] }

/-- R78: the requests that wait go out as far as there is room for their holds (fuel: one for each). -/
def Dev.askWaiting : Nat → Dev → Dev
  | 0, d => d
  | n + 1, d =>
    match d.herd.asks with
    | (i, c) :: rest =>
      if d.herd.holds.length < 8 then Dev.askWaiting n (Dev.askContexts i [c] { d with herd.asks := rest }) else d
    | [] => d

/-- R78: the prefetch of a task whose occurrence is at most PREFETCH_TICKS evaluations away, or waits. -/
def Dev.prefetch (d : Dev) (i : Nat) : Dev :=
  let t := d.task i
  let pre := d.f Fld.HERD_CTRL_PREFETCH_TICKS
  let near := t.open || (match t.due with
    | some (c, k) => !t.skip && auFrom d.mae.cyc c k ≤ ((d.mae.tick + pre) * 256 : Nat)
    | none => false)
  if near then
    match d.readDesc i with
    | (some x, d) => Dev.askContexts i x.ctxs d
    | (none, d) => d
  else d

/-- R78: MULE reports that context `c` is held for HERD, or that it failed. -/
def Dev.herdContext (d : Dev) (c : Nat) (ok : Bool) : Dev :=
  let hit := d.herd.holds.filter fun h => h.ctx == c && !h.held
  if ok then
    let d := d.ctxHold c hit.length
    { d with herd.holds := d.herd.holds.map fun h => if h.ctx == c then { h with held := true } else h }
  else hit.foldl (fun d h => d.ctxMissed h.task) d

/-- R78: what MULE has to report is told to HERD. -/
def Dev.muleReports (d : Dev) : Dev :=
  let rs := d.mule.reports
  rs.foldl (fun d p => d.herdContext p.1 p.2) { d with mule.reports := [] }

/-! ### Falling due (R68, R71, R72, R76, R79) -/

/-- The occurrence of task `i` due at `due` starts to wait. -/
def Dev.startWait (d : Dev) (i : Nat) (due : Word × Nat) (prio : Nat) (late deferred : Bool) : Dev :=
  d.setTask { d.task i with
    waiting := true, waited := 0, moved := none, search := none, wDue := due, prio := prio
    late := late, deferred := deferred, ctxWait := false }

/-- R72, R76: the occurrence with descriptor `t` falls due at tick `k`, or moves to a quiet tick; each move is counted. -/
def Dev.place (d : Dev) (i : Nat) (t : Desc) (due : Word × Nat) (k : Nat) (late deferred : Bool) : Dev :=
  if !d.unitPowered t.unit t.arg then d.missed i 5
  else if d.descQuiet t k then d.startWait i due t.prio late deferred
  else
    let d := (d.inc Reg.HERD_DEFER_CNT).raise Ev.HERD_DEFERRED
    match d.firstQuiet t (k + 1) with
    | some j => d.setTask { d.task i with moved := some (d.mae.cyc, j), search := none, wDue := due, late := late, deferred := true }
    | none => d.setTask { d.task i with moved := none, search := some (d.mae.cyc + 1), wDue := due, late := late, deferred := true }

/-- R63, R64: the next due time after the occurrence due at cycle `c`. -/
def Dev.advanceDue (d : Dev) (i : Nat) (t : Desc) (c : Word) : Dev :=
  if t.period == 0 then (d.setTask { d.task i with armed := false, due := none }).descErr
  else d.setTask { d.task i with due := some (c + BitVec.ofNat 32 t.period, t.tick), skip := false }

/-- R66, R68, R71: an occurrence of task `i` falls due, at tick `k` of the evaluation. -/
def Dev.fallDue (d : Dev) (i k : Nat) (late : Bool) : Dev :=
  let s := d.task i
  match s.due with
  | none => d
  | some due =>
    let d := if s.open then d.missed i 2 else d
    if !(d.task i).armed then d
    else match d.readDesc i with
      | (none, d) => d.descMissed i
      | (some t, d) =>
        let skip := s.skip
        let d := d.advanceDue i t due.1
        if skip then d
        else
          let d := if late then (d.inc Reg.HERD_LATE_CNT).raise Ev.HERD_LATE else d
          d.place i t due k late false

/-- R76, R79: an occurrence moved to a later tick or cycle, met by the evaluation at tick `k`; it is late where its time
lies before `lim`, in au after the start of the present cycle.  A search from tick 0 is one of the whole cycle. -/
def Dev.meetMoved (d : Dev) (i k : Nat) (lim : Int) : Dev :=
  let s := d.task i
  match s.moved, s.search with
  | some (c, j), _ =>
    if auFrom d.mae.cyc c j ≤ (k * 256 : Nat) then
      match d.readDesc i with
      | (none, d) => d.descMissed i
      | (some t, d) =>
        let late := decide (auFrom d.mae.cyc c j < lim)
        let d := if late && !s.late then (d.inc Reg.HERD_LATE_CNT).raise Ev.HERD_LATE else d
        d.place i t s.wDue k (s.late || late) true
    else d
  | none, some c =>
    if 0 ≤ cycDiff d.mae.cyc c then
      match d.readDesc i with
      | (none, d) => d.descMissed i
      | (some t, d) =>
        match d.firstQuiet t k with
        | some j =>
          if j == k then d.place i t s.wDue k s.late true
          else d.setTask { d.task i with moved := some (d.mae.cyc, j), search := none }
        | none =>
          if k == 0 then d.missed i 3
          else d.setTask { d.task i with search := some (d.mae.cyc + 1) }
    else d
  | none, none => d

/-! ### Ranking and offers (R69, R70, R73) -/

/-- R69: whether waiting task `a` goes before `b`. -/
def Dev.before (d : Dev) (a b : HTask) : Bool :=
  let ka := auFrom d.mae.cyc a.wDue.1 a.wDue.2
  let kb := auFrom d.mae.cyc b.wDue.1 b.wDue.2
  let rot := fun (t : HTask) => (t.idx + 1024 - d.f (Fld.HERD_ROT_PTR t.prio)) % 1024
  if a.prio != b.prio then b.prio < a.prio
  else if ka != kb then ka < kb
  else rot a < rot b

def Dev.rankInsert (d : Dev) (t : HTask) : List HTask → List HTask
  | [] => [t]
  | u :: us => if d.before t u then t :: u :: us else u :: Dev.rankInsert d t us

/-- R69: the waiting tasks in rank order. -/
def Dev.rank (d : Dev) : List HTask := (d.herd.tasks.filter (·.waiting)).foldl (fun l t => d.rankInsert t l) []

/-- CTRL.DEFER_MAX as it acts. -/
def Dev.deferMax (d : Dev) : Nat := max 1 (d.f Fld.HERD_CTRL_DEFER_MAX)

/-- R73, R78: the task running on unit `u` is complete; its holds are released. -/
def Dev.unitComplete (d : Dev) (u : Nat) : Dev :=
  let done := d.herd.running.filter (·.1 == u)
  let d := { d with herd.running := d.herd.running.filter (·.1 != u) }
  done.foldl (fun d p => d.releaseHolds p.2) d

/-- R73: task `s` with descriptor `t` is accepted by its unit. -/
def Dev.accept (d : Dev) (s : HTask) (t : Desc) : Dev :=
  let fl : TaskFlags := { late := s.late, deferred := s.deferred, atLimit := s.waited == d.deferMax }
  let d := d.setTask { s.close with lastLate := fl.late, lastDeferred := fl.deferred, lastAtLimit := fl.atLimit }
  let d := (d.inc Reg.HERD_DISP_CNT).endOneshot s.idx
  let d := { d with herd.running := d.herd.running ++ [(t.unit, s.idx)] }
  let d := d.unitAccept s.idx t.unit t.arg fl
  if d.unitRunning t.unit then d else d.unitComplete t.unit

/-- R69: each priority at which a task was accepted rotates past the last one. -/
def Dev.rotate (d : Dev) (rots : List (Nat × Nat)) : Dev :=
  rots.foldl (fun d r => d.setF (Fld.HERD_ROT_PTR r.1) ((r.2 + 1) % 1024)) d

/-- The offers of one evaluation: the tasks left in rank order, how many have been accepted, the units used, the last
task accepted at each priority (R69). -/
def Dev.offers (k : Nat) : List HTask → Nat → List Nat → List (Nat × Nat) → Dev → Dev
  | [], _, _, rots, d => d.rotate rots
  | s :: rest, n, used, rots, d =>
    if 4 ≤ n then
      let more := (s :: rest).any fun s => match d.peekDesc s.idx with
        | some t => d.eligible s.idx t k used
        | none => false
      (d.raiseIf more Ev.HERD_BACKLOG).rotate rots
    else if d.deferMax < s.waited then Dev.offers k rest n used rots d
    else match d.readDesc s.idx with
      | (none, d) => Dev.offers k rest n used rots (d.descMissed s.idx)
      | (some t, d) =>
        if d.eligible s.idx t k used then
          let used := if t.unit == 2 || t.unit == 7 then t.unit :: used else used
          Dev.offers k rest (n + 1) used (rots ++ [(s.prio, s.idx)]) (d.accept s t)
        else if t.nctx != 0 && !d.ctxsHeld s.idx t && !(d.task s.idx).ctxWait then
          let d := d.setTask { d.task s.idx with ctxWait := true }
          Dev.offers k rest n used rots ((d.inc Reg.HERD_CTX_WAIT_CNT).raise Ev.HERD_CTX_WAIT)
        else Dev.offers k rest n used rots d

/-- Units whose task is complete within its evaluation (R60: MET_SNAP, EVT_RAISE, THERM_EVAL). -/
def Dev.completeShort (d : Dev) : Dev := ((d.unitComplete 2).unitComplete 6).unitComplete 7

/-- R68, R69: ranking, offers, rotation. -/
def Dev.dispatch (d : Dev) (k : Nat) : Dev := (Dev.offers k d.rank 0 [] [] d).completeShort

/-! ### Halt and resume (R80) -/

/-- R80: every task that waits is reported MISSED with cause HALT. -/
def Dev.haltWaiting (d : Dev) : Dev :=
  (d.herd.tasks.filter (·.open)).foldl (fun d t => d.missed t.idx 7) d

/-- R80: task `i`, whose due time lies before tick `lim` of the present cycle, is advanced by whole periods to its first due
time after tick `k`; a due time that has not passed stands. -/
def Dev.skipDue (d : Dev) (i lim k : Nat) : Dev :=
  match (d.task i).due with
  | some (c, j) =>
    let at_ := auFrom d.mae.cyc c j
    if (lim * 256 : Nat) ≤ at_ then d
    else match d.readDesc i with
      | (some t, d) =>
        let p := max 1 t.period
        let n := ceilDiv (((k + 1) * 256 : Nat) - at_).toNat (p * 65536)
        let d := d.wr Reg.HERD_SKIP_CNT (min (2 ^ 32 - 1) (d.rd Reg.HERD_SKIP_CNT + n))
        d.setTask { d.task i with due := some (c + BitVec.ofNat 32 (n * p), j), skip := false }
      | (none, d) => d
  | none => d

def Dev.armedTasks (d : Dev) : List Nat := (d.herd.tasks.filter (·.armed)).map (·.idx)

/-- The tasks that may have contexts to ask for. -/
def Dev.liveTasks (d : Dev) : List Nat := (d.herd.tasks.filter fun t => t.armed || t.open).map (·.idx)

/-- R80: what the first evaluation after ticks resume does first. -/
def Dev.herdResume (d : Dev) (k : Nat) : Dev :=
  match d.herd.resume with
  | none => d
  | some resumed =>
    let d := { d with herd.resume := none }
    let d := d.haltWaiting
    if resumed then d.armedTasks.foldl (fun d i => d.skipDue i k k) d
    else d.armedTasks.foldl (fun d i => d.setTask { d.task i with due := none, skip := false }) d

/-- R63: armed tasks without a due time take their first one, at or after this evaluation's tick. -/
def Dev.firstDues (d : Dev) (k : Nat) : Dev :=
  (d.armedTasks.filter fun i => (d.task i).due.isNone).foldl (fun d i =>
    match d.readDesc i with
    | (some t, d) => d.setTask { d.task i with due := some (firstDue t d.mae.cyc k false) }
    | (none, d) => d.descMissed i) d

/-! ### Evaluations -/

/-- Whether HERD holds evaluations (R80, R377). -/
def Dev.herdRuns (d : Dev) : Bool :=
  d.on Fld.HERD_CTRL_EN && d.mae.running && d.domOn .sys && d.domOn .met && !(d.cur == .watch)

/-- R69: the evaluation of a sample tick. -/
def Dev.herdEval (d : Dev) : Dev :=
  if d.herdRuns && d.herd.evalDue then
    let k := d.mae.nextTick - 1
    let d := { d with herd.evalDue := false }
    let d := (d.herdResume k).firstDues k
    let waiting := (d.herd.tasks.filter (·.waiting)).map (·.idx)
    let d := waiting.foldl (fun d i => d.setTask { d.task i with waited := min 255 (d.task i).waited + 1 }) d
    let moved := (d.herd.tasks.filter fun t => t.moved.isSome || t.search.isSome).map (·.idx)
    let d := moved.foldl (fun d i => d.meetMoved i k (k * 256 : Nat)) d
    let due := (d.herd.tasks.filter fun t => t.armed && t.due == some (d.mae.cyc, k)).map (·.idx)
    let d := due.foldl (fun d i => d.fallDue i k false) d
    let d := d.liveTasks.foldl (fun d i => d.prefetch i) d
    d.dispatch k
  else d

/-- R70: a task still waiting when waited equals DEFER_MAX is reported. -/
def Dev.deferExpiry (d : Dev) (i : Nat) : Dev :=
  let t := d.task i
  if t.waiting && d.deferMax ≤ t.waited then d.missed i 1 else d

/-- R79: the splice evaluation for splice `s`.  A backward splice that does not pass angle 0x0000 jumps over more than a
cycle: a task that was due twice falls due twice. -/
def Dev.spliceEval (d : Dev) (s : Splice) : Dev :=
  let k := s.toAng / 256
  let t0 : Int := s.fromAng
  let t1 : Int := cycDiff s.toCyc s.fromCyc * 65536 + s.toAng
  let d := (d.herdResume k).firstDues k
  let d := ((d.herd.tasks.filter (·.waiting)).map (·.idx)).foldl
    (fun d i => d.setTask { d.task i with waited := min 255 (d.task i).waited + 1 }) d
  let moved := (d.herd.tasks.filter fun t => t.moved.isSome || t.search.isSome).map (·.idx)
  let d := moved.foldl (fun d i => d.meetMoved i k s.toAng) d
  let at_ := fun (t : HTask) => match t.due with
    | some (c, j) => if t.armed then some (auFrom s.fromCyc c j) else none
    | none => none
  let late := fun (d : Dev) =>
    (d.herd.tasks.filter fun t => (at_ t).any fun x => t0 < x && x < t1).foldl (fun d t => d.fallDue t.idx k true) d
  let d := late (late d)
  let same := d.herd.tasks.filter fun t => s.toAng % 256 == 0 && at_ t == some t1
  let d := same.foldl (fun d t => d.fallDue t.idx k false) d
  let d := d.liveTasks.foldl (fun d i => d.prefetch i) d
  d.dispatch k

/-- R79: the splice evaluations that are due. -/
def Dev.spliceEvals (d : Dev) : Dev :=
  let ss := d.mae.splices
  let d := { d with mae.splices := [] }
  if d.herdRuns then ss.foldl (fun d s => d.spliceEval s) d else d

/-! ### Register writes -/

/-- R80: CTRL.EN changes. -/
def Dev.herdEnable (d : Dev) (was now : Bool) : Dev :=
  let d := d.level Ev.HERD_HALTED (!now)
  if was && !now then { d.haltWaiting with herd.evalDue := false }
  else if !was && now && d.mae.running && d.domOn .met then
    d.armedTasks.foldl (fun d i => d.skipDue i (d.mae.tick + 1) d.mae.tick) d
  else d

/-- R74: CNT_CLR. -/
def Dev.herdCntClr (d : Dev) : Dev := (List.range 7).foldl (fun d k => d.wr (Reg.HERD_DISP_CNT + 4 * k) 0) d

/-- R453: USR_RAISE. -/
def Dev.usrRaise (d : Dev) (mask : Nat) : Dev := forUpto 16 (fun n d => d.raiseIf (bit mask n) (Ev.HERD_USR n)) d

/-- R81: HERD after DEEP or WATCH: every enabled descriptor is armed. -/
def Dev.herdRearm (d : Dev) : Dev :=
  let d := { d with herd := {} }
  let ids := (d.mem.sram.filter fun p => p.1 / 8192 == 21 && p.1 % 4 == 1).map fun p => p.1 % 8192 / 4
  (ids.foldl (fun d i =>
    match d.memRead 7 21 (4 * i + 1) with
    | (some w, d) => if bit w 23 then d.arm i else d
    | (none, d) => d) d).raise Ev.HERD_REARMED

/-! ### Registers computed from the state store -/

def Dev.herdStatus (d : Dev) : Nat :=
  (d.herd.tasks.filter (·.armed)).length + (d.herd.tasks.filter (·.waiting)).length * 2 ^ 11
  + d.herd.holds.length * 2 ^ 22 + b2n d.herdRuns * 2 ^ 26

def Dev.herdUnitBusy (d : Dev) : Nat := maskOf ((List.range 8).filter fun u => u != 0 && d.unitBusy u)

def Dev.peekDue (d : Dev) : Nat :=
  match (d.task (d.f Fld.HERD_PEEK_SEL_TASK)).due with
  | some (c, _) => c.toNat
  | none => 0

def Dev.peekState (d : Dev) : Nat :=
  let t := d.task (d.f Fld.HERD_PEEK_SEL_TASK)
  let tick := match t.moved, t.due with
    | some (_, k), _ => k
    | none, some (_, k) => k
    | none, none => 0
  let held := match d.peekDesc t.idx with
    | some x => x.nctx != 0 && d.ctxsHeld t.idx x
    | none => false
  b2n t.armed + b2n t.waiting * 2 + min 255 t.waited * 256 + t.lastCause * 2 ^ 16 + b2n t.lastLate * 2 ^ 20
  + b2n t.lastDeferred * 2 ^ 21 + b2n t.lastAtLimit * 2 ^ 22 + b2n held * 2 ^ 23 + tick * 2 ^ 24

end Sys2Proof.Machine
end

