-- ==== Sys2Proof/Machine/P256.lean ====
section
/-! DEFINITION. ECDSA over P-256, with the nonce of RFC 6979 over SHA-256 (R241). -/

namespace Sys2Proof.Machine

def p256P : Nat := 0xffffffff00000001000000000000000000000000ffffffffffffffffffffffff
def p256N : Nat := 0xffffffff00000000ffffffffffffffffbce6faada7179e84f3b9cac2fc632551
def p256B : Nat := 0x5ac635d8aa3a93e7b3ebbd55769886bc651d06b0cc53b0f63bce3c3e27d2604b
def p256Gx : Nat := 0x6b17d1f2e12c4247f8bce6e563a440f277037d812deb33a0f4a13945d898c296
def p256Gy : Nat := 0x4fe342e2fe1a7f9b8ee7eb4a7c0f9e162bce33576b315ececbb6406837bf51f5

/-- `a` to the power of the low `n` bits of `e`, modulo `m`. -/
def powMod (m : Nat) : Nat → Nat → Nat → Nat
  | 0, _, _ => 1 % m
  | n + 1, a, e =>
    let r := powMod m n (a * a % m) (e / 2)
    if e % 2 == 1 then a * r % m else r

/-- The inverse modulo a prime `m`. -/
def invMod (m a : Nat) : Nat := powMod m 256 (a % m) (m - 2)

/-- A point of the curve; none: the point at infinity. -/
abbrev Point := Option (Nat × Nat)

def onCurve (x y : Nat) : Bool :=
  x < p256P && y < p256P && y * y % p256P == (x * x % p256P * x + (p256P - 3) * x + p256B) % p256P

/-- The point with slope `l` from `(x1, y1)` and `x2`. -/
def chord (l x1 y1 x2 : Nat) : Point :=
  let x3 := (l * l + 2 * p256P - x1 - x2) % p256P
  some (x3, (l * (x1 + p256P - x3) + p256P - y1) % p256P)

/-- The sum of two points. -/
def padd : Point → Point → Point
  | none, q => q
  | p, none => p
  | some (x1, y1), some (x2, y2) =>
    if x1 = x2 then
      if y1 = y2 && y1 != 0 then
        chord ((3 * x1 * x1 + (p256P - 3)) % p256P * invMod p256P (2 * y1) % p256P) x1 y1 x1
      else none
    else chord ((y2 + p256P - y1) % p256P * invMod p256P (x2 + p256P - x1) % p256P) x1 y1 x2

/-- The low `n` bits of `k` times a point. -/
def pmul : Nat → Nat → Point → Point
  | 0, _, _ => none
  | n + 1, k, p =>
    let r := pmul n (k / 2) (padd p p)
    if k % 2 == 1 then padd p r else r

def bytesNat (s : List Nat) : Nat := s.foldl (fun n b => 256 * n + b) 0
def natBytes (n x : Nat) : List Nat := (beBytes n x).map (·.toNat)

/-- The signature of digest `z` with key `d` and nonce `k`; none where one of its parts comes to 0. -/
def signWith (d z k : Nat) : Option (Nat × Nat) :=
  match pmul 256 k (some (p256Gx, p256Gy)) with
  | none => none
  | some (x, _) =>
    let r := x % p256N
    let s := invMod p256N k * ((z + r * d) % p256N) % p256N
    if r = 0 || s = 0 then none else some (r, s)

/-- RFC 6979 from step h on, at most `fuel` nonces. -/
def signLoop (d z : Nat) : Nat → List Nat → List Nat → Nat × Nat
  | 0, _, _ => (0, 0)
  | f + 1, k, v =>
    let v := hmac k v
    let n := bytesNat v
    match (if n = 0 || p256N ≤ n then none else signWith d z n) with
    | some rs => rs
    | none =>
      let k := hmac k (v ++ [0])
      signLoop d z f k (hmac k v)

/-- ECDSA of a 32-byte digest. -/
def ecdsaSign (d : Nat) (digest : List Nat) : Nat × Nat :=
  let z := bytesNat digest
  let x := natBytes 32 d ++ natBytes 32 (z % p256N)
  let v := List.replicate 32 1
  let k := hmac (List.replicate 32 0) (v ++ 0 :: x)
  let v := hmac k v
  let k := hmac k (v ++ 1 :: x)
  signLoop (d % p256N) z 64 k (hmac k v)

/-- ECDSA verification of `(r, s)` on a 32-byte digest under the public key `(x, y)`. -/
def ecdsaVerify (digest : List Nat) (x y r s : Nat) : Bool :=
  if r = 0 || s = 0 || p256N ≤ r || p256N ≤ s || !onCurve x y then false
  else
    let w := invMod p256N s
    let u1 := bytesNat digest * w % p256N
    let u2 := r * w % p256N
    match padd (pmul 256 u1 (some (p256Gx, p256Gy))) (pmul 256 u2 (some (x, y))) with
    | none => false
    | some (px, _) => px % p256N == r

end Sys2Proof.Machine
end

