-- ==== Sys2Proof/Machine/Crypto.lean ====
section
/-! DEFINITION. The crypto engine (R241–R243, R343). -/

namespace Sys2Proof.Machine

/-- R241: byte `i` of a string of words lies in bits 8 × (i mod 4) + 7 : 8 × (i mod 4) of word i / 4. -/
def Dev.dinBytes (d : Dev) (w n : Nat) : List Nat :=
  (List.range n).map fun i => bits (d.rd (Reg.CRYPTO_DIN (w + i / 4))) (8 * (i % 4)) 8

def Dev.setDout (d : Dev) (bs : List Nat) : Dev :=
  let ws := wordsOf (bs.map (BitVec.ofNat 8))
  forUpto ws.length (fun i d => d.wr (Reg.CRYPTO_DOUT i) ((ws[i]?).getD 0).toNat) d

/-! ### Keys -/

def keyTypeField (k : Nat) : Field := ⟨Reg.CRYPTO_KS_INFO, 2 * k, 2⟩

/-- The key of slot `k`, if it is of type `ty` (1 AES-128, 2 P-256). -/
def Dev.keyOf (d : Dev) (k ty : Nat) : Option Nat :=
  if d.f (keyTypeField k) = ty then some (vGet d.crypto.keys k 0) else none

def Dev.setKey (d : Dev) (k ty v : Nat) : Dev :=
  { d with crypto.keys := vSet d.crypto.keys k v }.setF (keyTypeField k) ty

/-- The operations that change what the device trusts are performed in these states (R241). -/
def Dev.wrapAllowed (d : Dev) : Bool :=
  match d.lifecycle with
  | .blank | .provisioned | .unsealed => true
  | _ => false

/-- R344: a source of class ERASE is in its active state. -/
def Dev.eraseActive (d : Dev) : Bool :=
  (List.range 14).any fun s => bit (d.f Fld.GANDER_STATUS_ACTIVE) s && 2 ≤ d.f (Fld.GANDER_SRC_CFG_CLASS s)

/-! ### Operations -/

/-- R241: whether LEN is in the range given for an operation. -/
def lenOk (op len : Nat) : Bool :=
  match op with
  | 1 | 2 => 16 ≤ len && len ≤ 64 && len % 16 == 0
  | 3 | 5 | 6 | 9 => len ≤ 256
  | 10 => len == 24 || len == 40
  | 11 => len == 16 || len == 32
  | 12 => len == 16
  | _ => true

/-- STAT.RESULT codes. -/
def resOk : Nat := 0
def resBadKey : Nat := 1
def resNoKey : Nat := 2
def resVerifyFail : Nat := 3
def resAbort : Nat := 4
def resRefused : Nat := 5
def resBadLen : Nat := 6

/-- R241: `msg` taken into the SHA-256 state. -/
def Crypto.absorb (c : Crypto) (msg : List Nat) : Crypto :=
  let m := c.shaBuf ++ msg
  let n := m.length / 64
  { c with shaH := shaBlocks n c.shaH m, shaBuf := m.drop (64 * n), shaLen := c.shaLen + msg.length }

/-- `n` free values. -/
def Dev.freshes (d : Dev) : Nat → List Nat × Dev
  | 0 => ([], d)
  | n + 1 =>
    match Dev.freshes d.fresh.2 n with
    | (xs, d') => (d.fresh.1.toNat :: xs, d')

/-- R241: what a legal OP with a legal LEN does; RESULT and the device with DOUT. -/
def Dev.cryptoOp (d : Dev) (op key len : Nat) : Nat × Dev :=
  let din := d.dinBytes 0 len
  let aes := fun (f : List Nat → List Nat → List Nat) =>
    match d.keyOf key 1 with
    | some k => (resOk, d.setDout (f (natBytes 16 k) din))
    | none => (resBadKey, d)
  match op with
  | 1 => aes fun k m => ecb (aesEnc k) (len / 16) m
  | 2 => aes fun k m => ecb (aesDec k) (len / 16) m
  | 3 => aes cmac
  | 4 => (resOk, { d with crypto.shaH := shaInit, crypto.shaBuf := [], crypto.shaLen := 0 })
  | 5 => (resOk, { d with crypto := d.crypto.absorb din })
  | 6 =>
    let c := d.crypto
    let out := shaFinish c.shaH (c.shaLen - c.shaBuf.length) (c.shaBuf ++ din)
    match (d.setDout out).freshes 8 with
    | (h, d) => (resOk, { d with crypto.shaH := h, crypto.shaBuf := [], crypto.shaLen := 0 })
  | 7 =>
    match d.keyOf key 2 with
    | some k =>
      let rs := ecdsaSign k (d.dinBytes 0 32)
      (resOk, d.setDout (natBytes 32 rs.1 ++ natBytes 32 rs.2))
    | none => (resBadKey, d)
  | 8 =>
    let num := fun w => bytesNat (d.dinBytes w 32)
    (if ecdsaVerify (d.dinBytes 0 32) (num 8) (num 16) (num 24) (num 32) then resOk else resVerifyFail, d)
  | 9 => (resOk, d.wr Reg.CRYPTO_CRC_ACC (crcRun (d.rd Reg.CRYPTO_CRC_ACC) (din.map (BitVec.ofNat 8))))
  | 10 =>
    if d.on Fld.CRYPTO_STAT_KWK_OK then
      match keyUnwrap (natBytes 16 d.kwk) din with
      | some k => (resOk, d.setKey key (if len == 24 then 1 else 2) (bytesNat k))
      | none => (resVerifyFail, d)
    else (resNoKey, d)
  | 11 =>
    if !d.wrapAllowed then (resRefused, d)
    else if d.on Fld.CRYPTO_STAT_KWK_OK then (resOk, d.setDout (keyWrap (natBytes 16 d.kwk) din))
    else (resNoKey, d)
  | 12 =>
    if d.wrapAllowed && !d.on Fld.CRYPTO_STAT_KWK_OK && !d.eraseActive then
      (resOk, ({ d with kwk := bytesNat din }.setF Fld.CRYPTO_STAT_KWK_OK 1).setF Fld.GANDER_STATUS_KWK_GONE 0)
    else (resRefused, d)
  | 13 => (resOk, d.setKey key 0 0)
  | _ => (resRefused, d)

/-- R242: the operation in progress reaches its fixed time. -/
def Dev.cryptoDone (d : Dev) : Dev :=
  match d.crypto.run with
  | none => d
  | some (op, key, len) =>
    let d := { d with crypto.run := none }
    match (if lenOk op len then d.cryptoOp op key len else (resBadLen, d)) with
    | (res, d) =>
      let d := (d.setF Fld.CRYPTO_STAT_RESULT res).setF Fld.CRYPTO_STAT_BUSY 0
      (d.raise Ev.CRYPTO_DONE).raiseIf (res != 0) Ev.CRYPTO_ERR

/-- R242: a write of CTRL: OP and KEY are stored, and GO starts the operation unless one runs. -/
def Dev.cryptoCtrl (d : Dev) (v : Nat) : Dev :=
  let d := d.wr Reg.CRYPTO_CTRL (bits v 0 7)
  if bit v 31 && d.crypto.run.isNone then
    let d := { d with crypto.run := some (bits v 0 4, bits v 4 3, d.f Fld.CRYPTO_LEN_LEN) }
    (d.setF Fld.CRYPTO_STAT_TAMPER_DURING 0).setF Fld.CRYPTO_STAT_BUSY 1
  else d

/-! ### Tampers (R243, R343) -/

/-- R243, R343: an ERASE tamper destroys the KWK and the keys, and aborts the operation in progress. -/
def Dev.keyErase (d : Dev) : Dev :=
  let busy := d.crypto.run.isSome
  let d := { d with kwk := 0, crypto.keys := Vector.replicate 8 0, crypto.run := none }
  let d := (d.setF Fld.CRYPTO_STAT_KWK_OK 0).wr Reg.CRYPTO_KS_INFO 0
  let d := if busy then
      ((d.setDout (List.replicate 64 0)).setF Fld.CRYPTO_STAT_RESULT resAbort).setF Fld.CRYPTO_STAT_BUSY 0
    else d
  (d.raiseIf busy Ev.CRYPTO_TAMPER_ABORT).raise Ev.CRYPTO_KEY_LOST

/-- R243: a tamper of another class during an operation. -/
def Dev.tamperDuring (d : Dev) : Dev :=
  if d.crypto.run.isSome then d.setF Fld.CRYPTO_STAT_TAMPER_DURING 1 else d

/-- What the engine holds beside its registers is lost with LGL; the KWK stands in AON. -/
def Dev.cryptoReset (d : Dev) : Dev := { d with crypto := {} }

end Sys2Proof.Machine
end

