-- ==== Sys2Proof/Machine/Legal.lean ====
section
/-! DEFINITION. The legal island's pages FWALL and LGLMBX: legal flash, digest slots, outlet enables, legal watchdog,
mailbox (R234, R235, R239, R240, R244–R250, R307). -/

namespace Sys2Proof.Machine

/-! ### Legal flash (R234) -/

/-- What an erased flash byte reads as. -/
def flashDflt (_ : Nat) : Byte := 0xFF

def Dev.lflRd (d : Dev) (a n : Nat) : List Byte := d.mem.lfl.getMany flashDflt a n

/-- The words of L0–L2 from word offset `w` on, as the flash controller reads them: a word past L2, or an uncorrectable
one, gives a free value. -/
def Dev.l02Read (d : Dev) (w : Nat) : Nat → List Nat × Dev
  | 0 => ([], d)
  | n + 1 =>
    match (if w < 12288 then d.readRow 1 (16 + w / 4096) (w % 4096) (w % 4096) false else (none, d)) with
    | (some x, d) =>
      match Dev.l02Read d (w + 1) n with
      | (xs, d) => (x :: xs, d)
    | (none, d) =>
      match Dev.l02Read d.fresh.2 (w + 1) n with
      | (xs, d') => (d.fresh.1.toNat :: xs, d')

/-- R234: a write of LFL_CMD; `rom`: by an instruction fetched from the boot ROM. -/
def Dev.lflCmd (d : Dev) (rom : Bool) (v : Nat) : Dev :=
  let refuse := d.setF Fld.FWALL_LFL_STAT_RESULT 1
  if !(rom && d.unsealed) then refuse
  else
    let page := bits v 8 10
    let d := d.wr Reg.FWALL_LFL_CMD (bits v 0 2 + page * 256)
    let begin_ := fun (d : Dev) (o : FlashOp) => { d with boot.lfl := some o }.setF Fld.FWALL_LFL_STAT_BUSY 1
    if !bit v 31 then d
    else if d.boot.lfl.isSome then d.setF Fld.FWALL_LFL_STAT_RESULT 1
    else match bits v 0 2 with
      | 1 =>
        match d.l02Read (d.f Fld.FWALL_LFL_SRC_OFS) 64 with
        | (ws, d) => begin_ d (.prog page (bytesOf (ws.map (BitVec.ofNat 32))))
      | 2 => begin_ d (.eraseSector page)
      | 3 => begin_ d .eraseAll
      | _ => d.setF Fld.FWALL_LFL_STAT_RESULT 1

/-- `n` free bytes. -/
def Dev.freshBytes (d : Dev) (n : Nat) : List Byte × Dev :=
  match d.freshes n with
  | (xs, d) => (xs.map (BitVec.ofNat 8), d)

/-- What a flash command leaves in an array; `ok`: a page programmed reads back as it was given. -/
def Dev.flashApply (d : Dev) (m : SMap Byte) (o : FlashOp) (size : Nat) (ok : Bool) : SMap Byte × Dev :=
  match o with
  | .prog p bs =>
    if ok then (m.setMany flashDflt (p * 256) bs, d)
    else match d.freshBytes 256 with
      | (bs, d) => (m.setMany flashDflt (p * 256) bs, d)
  | .eraseSector p => (SMap.clear m (p / 16 * 4096) (p / 16 * 4096 + 4096), d)
  | .eraseAll => (SMap.clear m 0 size, d)

/-- R234: the LFL command in progress completes. -/
def Dev.lflDone (d : Dev) (ok : Bool) : Dev :=
  match d.boot.lfl with
  | none => d
  | some o =>
    match ({ d with boot.lfl := none } : Dev).flashApply d.mem.lfl o 0x40000 ok with
    | (m, d) =>
      let prog := match o with
        | .prog _ _ => true
        | _ => false
      ({ d with mem.lfl := m }.setF Fld.FWALL_LFL_STAT_RESULT (if ok || !prog then 0 else 2)).setF Fld.FWALL_LFL_STAT_BUSY 0

/-! ### Digest slots (R235) -/

/-- DGST_STAT.USED and ACTIVE as the fuses have them. -/
def Dev.digestStat (d : Dev) : Dev :=
  let used := d.otp.digests.map (·.2)
  (d.setF Fld.FWALL_DGST_STAT_USED (maskOf used)).setF Fld.FWALL_DGST_STAT_ACTIVE
    (if used.isEmpty then 15 else used.foldl max 0)

/-- The lowest unused slot. -/
def Otp.freeSlot (o : Otp) : Option Nat := (List.range 8).find? fun n => o.digests.all (·.2 != n)

/-- The digest of the active slot (R235). -/
def Otp.active (o : Otp) : Option Nat :=
  let top := (o.digests.map (·.2)).foldl max 0
  (o.digests.find? (·.2 == top)).map (·.1)

/-- R235: a write of DGST_CMD with GO; `rom`: by an instruction fetched from the boot ROM. -/
def Dev.digestCmd (d : Dev) (rom : Bool) (v : Nat) : Dev :=
  if !bit v 0 then d
  else if !(rom && d.unsealed) || d.boot.digest.isSome then d.setF Fld.FWALL_DGST_STAT_RESULT 1
  else match d.otp.freeSlot with
    | none => d.setF Fld.FWALL_DGST_STAT_RESULT 2
    | some _ => { d with boot.digest := some d.boot.lflSha }.setF Fld.FWALL_DGST_STAT_BUSY 1

/-- R235: the burn in progress completes: the slot is used. -/
def Dev.digestDone (d : Dev) : Dev :=
  match d.boot.digest, d.otp.freeSlot with
  | some g, some n =>
    let d := { d with boot.digest := none, otp.digests := d.otp.digests ++ [(g, n)] }
    (d.digestStat.setF Fld.FWALL_DGST_STAT_RESULT 0).setF Fld.FWALL_DGST_STAT_BUSY 0
  | _, _ => d

/-! ### Outlet enables (R239, R307) -/

/-- R307: the outlets that are cut. -/
def Dev.cutMask (d : Dev) : Nat :=
  if d.on Fld.PREPAY_CFG_AUTO_CUT then maskOf ((List.range 4).filter fun k => d.on (Fld.PREPAY_PP_STAT_CUT k)) else 0

/-- R239, R307: a write of ENA_CTRL; one that sets the bit of an outlet that is cut is not performed. -/
def Dev.enaWrite (d : Dev) (v : Nat) : Dev :=
  let cut := d.cutMask
  let old := d.rd Reg.FWALL_ENA_CTRL
  if (List.range 4).any fun k => bit v k && bit cut k && !bit old k then d else d.wr Reg.FWALL_ENA_CTRL (v % 16)

/-- R239, R364: ENA_0–ENA_3 as driven. -/
def Dev.enaStat (d : Dev) : Nat :=
  if d.domOn .lgl && d.f Fld.SYSCTL_BOOT_STAT_STAGE == 1 && !d.on Fld.PWR_SUPPLY_PFW_LATCH then d.rd Reg.FWALL_ENA_CTRL
  else 0

/-! ### Legal watchdog (R240) -/

/-- LWDG_CFG.TMO as it acts. -/
def Dev.lwdgTmo (d : Dev) : Nat := min 1000 (d.f Fld.FWALL_LWDG_CFG_TMO)

/-- R240: a write of LWDG_CFG. -/
def Dev.lwdgCfg (d : Dev) (v : Nat) : Dev :=
  if bits v 0 10 = 0 && d.f Fld.FWALL_LWDG_CFG_TMO != 0 then d else d.wr Reg.FWALL_LWDG_CFG (bits v 0 10)

/-- R240: a kick; `limit`: it falls in the tick in which the count expires. -/
def Dev.lwdgKick (d : Dev) (limit : Bool) : Dev :=
  if limit && d.lwdgTmo != 0 then d.setF Fld.FWALL_LWDG_STAT_AT_LIMIT 1 else d

/-- LWDG_STAT.LEFT as it reads: the count runs by time, which no command carries, so it is a free value up to TMO. -/
def Dev.lwdgLeft (d : Dev) : Nat × Dev :=
  if d.lwdgTmo = 0 then (0, d) else (d.fresh.1.toNat % (d.lwdgTmo + 1), d.fresh.2)

/-- R240: what the expiry does before LGL is reset. -/
def Dev.lwdgExpire (d : Dev) : Dev :=
  ((d.wr Reg.FWALL_ENA_CTRL 0).incF Fld.FWALL_LWDG_STAT_EXP_CNT).raise Ev.FWALL_LWDG

/-! ### Mailbox (R244–R250) -/

/-- The classes of R246. -/
inductive OpClass where
  | read | stop | write | key
deriving DecidableEq, Repr

def opClass (opc : Nat) : OpClass :=
  if opc < 0x80 then .read else if opc < 0x88 then .stop else if opc < 0xC0 then .write else .key

/-- REQ_STAT.STATE codes. -/
def mbxIdle : Nat := 0
def mbxPending : Nat := 1
def mbxDone : Nat := 2

/-- IF_STATE codes (R249). -/
def ifNone : Nat := 0
def ifMatch : Nat := 1
def ifMinor : Nat := 2
def ifMismatch : Nat := 3

def Dev.mbxCh (d : Dev) (c : Nat) : Mbx := vGet d.mbx c {}

def Dev.setMbx (d : Dev) (c : Nat) (m : Mbx) : Dev := { d with mbx := vSet d.mbx c m }

/-- R244: whether `r` is the requester of channel `c`. -/
def mbxRequester (r : Requester) (c : Nat) : Bool :=
  if c = 0 then r == .ac || r == .acDbg else r == .hspi || r == .i2ct

def Dev.mbxIs (d : Dev) (c st : Nat) : Bool := d.f (Fld.LGLMBX_REQ_STAT_STATE c) == st

/-- The response of channel `c`: STATUS, LEN 0 unless the LC gave one, and the request's TAG; the channel is DONE. -/
def Dev.mbxFinish (d : Dev) (c status len : Nat) : Dev :=
  let d := d.wr (Reg.LGLMBX_RSP_HDR c) (status + len * 2 ^ 8 + d.f (Fld.LGLMBX_REQ_HDR_TAG c) * 2 ^ 16)
  let m := d.mbxCh c
  (d.setMbx c { m with unserved := false, held := none }).setF (Fld.LGLMBX_REQ_STAT_STATE c) mbxDone

/-- R246: WRITE and KEY requests are served in MATCH and MINOR. -/
def Dev.mbxServed (d : Dev) (c : Nat) : Bool :=
  let st := d.f (Fld.LGLMBX_REQ_STAT_IF_STATE c)
  st == ifMatch || st == ifMinor

/-- R245–R247: a write of REQ_HDR with value `v` by requester `r`. -/
def Dev.reqHdr (d : Dev) (r : Requester) (c v : Nat) : Dev :=
  if !mbxRequester r c || d.mbxIs c mbxPending then d
  else
    let d := d.wr (Reg.LGLMBX_REQ_HDR c) (bits v 0 13 + bits v 16 8 * 2 ^ 16)
    if !bit v 31 then d
    else
      let opc := bits v 0 8
      let long := 16 < bits v 8 5
      let d := d.setF (Fld.LGLMBX_REQ_STAT_STATE c) mbxPending
      let out := fun (d : Dev) (u : Bool) => d.setMbx c { opc := opc, unserved := u }
      match opClass opc with
      | .key => if long || !d.mbxServed c then out d true else (out d false).raise Ev.LGLMBX_REQ
      | .write =>
        if !d.mbxServed c then (out d false).mbxFinish c 2 0
        else if long then (out d false).mbxFinish c 3 0
        else (out d false).raise Ev.LGLMBX_REQ
      | _ => if long then (out d false).mbxFinish c 3 0 else (out d false).raise Ev.LGLMBX_REQ

/-- R247: KEY responses carry only OK or REFUSED. -/
def keyStatus (s : Nat) : Nat := if s = 0 then 0 else 1

/-- R245, R247, R248: the LC's write of RSP_HDR, `v` being the register's value with it; `limit`: it falls in the tick in
which the request's time expires.  A release with no request to answer is discarded whole (R248); an early one of a KEY
request is held, and nothing of it is shown, until its tick (R247). -/
def Dev.rspHdr (d : Dev) (c v : Nat) (limit : Bool) : Dev :=
  let m := d.mbxCh c
  let put := d.wr (Reg.LGLMBX_RSP_HDR c) (setBits (d.rd (Reg.LGLMBX_RSP_HDR c)) 0 13 (bits v 0 13))
  if !bit v 31 then put
  else if !d.mbxIs c mbxPending then d
  else if opClass m.opc == .key && m.unserved then d
  else
    let st := bits v 0 8
    let len := bits v 8 5
    let d := if limit then d.setF (Fld.LGLMBX_REQ_STAT_AT_LIMIT c) 1 else d
    if opClass m.opc == .key then
      if limit then (d.mbxFinish c (keyStatus st) len).raise Ev.LGLMBX_RSP
      else d.setMbx c { m with held := some (st, len) }
    else (d.mbxFinish c st len).raise Ev.LGLMBX_RSP

/-- R247: the release tick of a KEY request on channel `c`. -/
def Dev.keyTick (d : Dev) (c : Nat) : Dev :=
  let m := d.mbxCh c
  if d.mbxIs c mbxPending && opClass m.opc == .key then
    let d :=
      match m.held with
      | some (st, len) => d.mbxFinish c (keyStatus st) len
      | none => forUpto 16 (fun w d => d.wr (Reg.LGLMBX_RSP_DATA c w) 0) (d.mbxFinish c 1 0)
    d.raise Ev.LGLMBX_RSP
  else d

/-- R248: RSP_TMO has passed since the GO of channel `c`. -/
def Dev.mbxTimeout (d : Dev) (c : Nat) : Dev :=
  if d.mbxIs c mbxPending && opClass (d.mbxCh c).opc != .key then (d.mbxFinish c 4 0).raise Ev.LGLMBX_TIMEOUT else d

/-- R249: IF_STATE of a version under IF_RANGE. -/
def Dev.ifStateOf (d : Dev) (ver : Nat) : Nat :=
  let lo := d.f Fld.LGLMBX_IF_RANGE_IF_MIN
  let hi := d.f Fld.LGLMBX_IF_RANGE_IF_MAX
  if ver = 0 then ifNone
  else if lo ≤ ver && ver ≤ hi then ifMatch
  else if lo / 256 ≤ ver / 256 && ver / 256 ≤ hi / 256 then ifMinor
  else ifMismatch

/-- R249: a write of IFVER by requester `r`. -/
def Dev.ifverWrite (d : Dev) (r : Requester) (c v : Nat) : Dev :=
  if !mbxRequester r c then d
  else
    let d := d.wr (Reg.LGLMBX_IFVER c) (bits v 0 16)
    let st := d.ifStateOf (bits v 0 16)
    let was := d.f (Fld.LGLMBX_REQ_STAT_IF_STATE c)
    (d.setF (Fld.LGLMBX_REQ_STAT_IF_STATE c) st).raiseIf (st != was) Ev.LGLMBX_IF_CHG

/-- R249: E-IF is shown while a channel is in MISMATCH. -/
def Dev.ifMismatched (d : Dev) : Bool := [0, 1].any fun c => d.f (Fld.LGLMBX_REQ_STAT_IF_STATE c) == ifMismatch

end Sys2Proof.Machine
end

