-- ==== Sys2Proof/Machine/Rtc.lean ====
section
/-! DEFINITION. The RTC: calendar, second length, compensation, commands, trust, alarm (R251–R268). -/

namespace Sys2Proof.Machine

/-! ### The calendar (R251) -/

def leap (y : Nat) : Bool := y % 4 == 0

/-- Days of month `m` (1–12) of year 2000 + `y`. -/
def monthDays (y m : Nat) : Nat :=
  match m with
  | 2 => if leap y then 29 else 28
  | 4 | 6 | 9 | 11 => 30
  | _ => 31

/-- Days from 2000-01-01 to the first of January of year 2000 + `y`. -/
def yearStart (y : Nat) : Nat := 365 * y + (y + 3) / 4

/-- Days from the first of January to the first of month `m`. -/
def monthStart (y m : Nat) : Nat := sumN ((List.range (m - 1)).map fun i => monthDays y (i + 1))

/-- Days from 2000-01-01. -/
def dayNumber (y m dd : Nat) : Nat := yearStart y + monthStart y m + (dd - 1)

/-- The seconds of the hundred years. -/
def century : Nat := 36525 * 86400

/-- A calendar time: seconds since 2000-01-01 00:00:00. -/
abbrev CalTime := Nat

/-- The year, month and day of a day number. -/
def dateOf (n : Nat) : Nat × Nat × Nat :=
  let y := ((List.range 100).filter fun y => yearStart y ≤ n).foldl max 0
  let m := ((List.range 12).filter fun i => yearStart y + monthStart y (i + 1) ≤ n).foldl max 0 + 1
  (y, m, n - yearStart y - monthStart y m + 1)

/-- R251: the weekday of a day number, 1 Monday to 7 Sunday (2000-01-01 was a Saturday). -/
def weekday (n : Nat) : Nat := (n + 5) % 7 + 1

/-- The low word of a calendar time (TIME_LO). -/
def calLo (t : CalTime) : Nat :=
  bcd (t % 60) + bcd (t / 60 % 60) * 2 ^ 8 + bcd (t / 3600 % 24) * 2 ^ 16 + bcd (dateOf (t / 86400)).2.2 * 2 ^ 24

/-- The high word of a calendar time without its flags (TIME_HI). -/
def calHi (t : CalTime) : Nat :=
  let (y, m, _) := dateOf (t / 86400)
  bcd m + bcd y * 2 ^ 8 + weekday (t / 86400) * 2 ^ 16

/-- R257: the calendar time that two words spell; none where a digit, the date or the time is not valid. -/
def calOf (lo hi : Nat) : Option CalTime :=
  match unbcd (bits lo 0 8), unbcd (bits lo 8 8), unbcd (bits lo 16 8), unbcd (bits lo 24 8), unbcd (bits hi 0 8),
    unbcd (bits hi 8 8) with
  | some s, some mi, some h, some dd, some m, some y =>
    if s ≤ 59 && mi ≤ 59 && h ≤ 23 && 1 ≤ m && m ≤ 12 && 1 ≤ dd && dd ≤ monthDays y m then
      some (dayNumber y m dd * 86400 + h * 3600 + mi * 60 + s)
    else none
  | _, _, _, _, _, _ => none

/-- The calendar as it stands. -/
def Dev.cal (d : Dev) : CalTime := (calOf (d.rd Reg.RTC_TIME_LO) (d.rd Reg.RTC_TIME_HI)).getD 0

/-- The calendar set, its flags kept. -/
def Dev.setCal (d : Dev) (t : CalTime) : Dev :=
  (d.wr Reg.RTC_TIME_LO (calLo t)).wr Reg.RTC_TIME_HI (setBits (d.rd Reg.RTC_TIME_HI) 0 24 (calHi t))

def Dev.timeLost (d : Dev) : Bool := d.on Fld.RTC_TIME_HI_TIME_LOST

/-- R251: the calendar moved by `n` seconds around the hundred years; passing their ends loses trust. -/
def Dev.moveCal (d : Dev) (n : Int) : Dev :=
  let t : Int := d.cal + n
  let d := d.setCal (t % century).toNat
  if 0 ≤ t && t < century then d else d.setF Fld.RTC_TIME_HI_TIME_LOST 1

/-! ### Compensation (R255) -/

/-- The points of the residual table in use. -/
def risingPoints : List (Int × Int) → List (Int × Int)
  | p :: q :: t => if p.1 < q.1 then p :: risingPoints (q :: t) else [p]
  | l => l

/-- RES(T) as a fraction. -/
def resAt : List (Int × Int) → Int → Int × Int
  | [], _ => (0, 1)
  | [p], _ => (p.2, 1)
  | p :: q :: t, x =>
    if x ≤ p.1 then (p.2, 1)
    else if x < q.1 then (p.2 * (q.1 - p.1) + (q.2 - p.2) * (x - p.1), q.1 - p.1)
    else resAt (q :: t) x

/-- R255: N for temperature `t` in 0.1 °C. -/
def Dev.compN (d : Dev) (t : Int) : Int :=
  if !d.on Fld.RTC_COMP_STAT_LOADED || !d.on Fld.RTC_COMP_CFG_EN || d.rtc.rc then 0
  else
    let pts := risingPoints ((List.range (min 16 (d.f Fld.RTC_COMP_NPTS_NPTS))).map fun j =>
      (sgn 16 (d.f (Fld.RTC_RES_T j)), sgn 16 (d.f (Fld.RTC_RES_R j))))
    let r := resAt pts t
    let dt := t - sgn 16 (d.f Fld.RTC_COMP_K_T0)
    let ofs := sgn 32 (d.rd Reg.RTC_COMP_OFS) + sgn 16 (d.f Fld.RTC_COMP_TRIM_TRIM)
    let num := (ofs * 1000 + sgn 16 (d.f Fld.RTC_COMP_K_K) * dt * dt) * r.2 + 1000 * r.1
    clamp (-255) 255 (roundDiv (num * 1048576) (1000 * r.2 * 1000000000))

/-! ### The battery (R265) -/

/-- The threshold in mV. -/
def Dev.vbatThr (d : Dev) : Nat := 2400 + 50 * min 12 (d.f Fld.RTC_VBAT_CFG_THR)

/-- R265: the battery measured at `v` mV. -/
def Dev.vbatMeasure (d : Dev) (v : Nat) : Dev :=
  let d := d.wr Reg.RTC_VBAT_MEAS (min 4095 v)
  if v < d.vbatThr then (d.setF Fld.RTC_TIME_HI_VBATLOW 1).raiseIf (!d.on Fld.RTC_TIME_HI_VBATLOW) Ev.RTC_VBATLOW else d

/-- R265: a write of 1 to STATUS.VBATLOW. -/
def Dev.vbatClear (d : Dev) : Dev :=
  if d.vbatThr + 50 ≤ d.rd Reg.RTC_VBAT_MEAS then d.setF Fld.RTC_TIME_HI_VBATLOW 0 else d

/-! ### Commands (R257–R263) -/

/-- SLEW_LIMIT as it acts, in periods (R259). -/
def Dev.rtcSlewLimit (d : Dev) : Nat :=
  min (d.f Fld.RTC_ADJ_CFG_SLEW_LIMIT) (min 120 (d.f Fld.RTC_ADJ_MAX_MAX)) * 32768

/-- SLEW_RATE as it acts. -/
def Dev.slewPeriods (d : Dev) : Nat := min 3276 (max 1 (d.f Fld.RTC_ADJ_CFG_SLEW_RATE))

def Dev.rtcReject (d : Dev) (reason : Nat) : Dev := (d.setF Fld.RTC_CMD_STAT_REASON reason).raise Ev.RTC_CMD_REJ

/-- R257: the command is pending; `late`: it is written in the period that ends at the boundary. -/
def Dev.rtcAccept (d : Dev) (c : RtcCmd) : Dev :=
  match d.subNow with
  | (v, d) => { d with rtc.cmd := some c, rtc.late := d.rtc.len ≤ v + 1 }

/-- R257: a write of CMD with GO. -/
def Dev.rtcCommand (d : Dev) (op : Nat) : Dev :=
  let slewing := d.on Fld.RTC_STATUS_SLEWING
  let dst := d.on Fld.RTC_TIME_HI_DST
  let n := d.f Fld.RTC_SHIFT_N
  if d.rtc.cmd.isSome then d.rtcReject 1
  else match op with
    | 1 =>
      if slewing then d.rtcReject 2
      else if (calOf (d.rd Reg.RTC_SET_LO) (d.rd Reg.RTC_SET_HI)).isNone then d.rtcReject 3
      else d.rtcAccept (.set (d.rd Reg.RTC_SET_LO) (d.rd Reg.RTC_SET_HI))
    | 2 =>
      if slewing then d.rtcReject 2
      else if d.rd Reg.RTC_ADJ_OFS = 0 then d.rtcReject 4
      else d.rtcAccept (.adj (sgn 32 (d.rd Reg.RTC_ADJ_OFS)))
    | 3 => if slewing then d.rtcAccept .cancel else d.rtcReject 6
    | 4 => if dst then d.rtcReject 5 else d.rtcAccept .dstAdd
    | 5 => if dst then d.rtcAccept .dstSub else d.rtcReject 5
    | 6 => if slewing then d.rtcReject 2 else if n = 0 then d.rtcReject 4 else d.rtcAccept (.shift 6 n)
    | 7 => if slewing then d.rtcReject 2 else if n = 0 then d.rtcReject 4 else d.rtcAccept (.shift 7 (-(n : Int)))
    | _ => d.rtcReject 6

/-- A command applied in full. -/
def Dev.rtcApplied (d : Dev) (op : Nat) : Dev := { d with rtc.cmd := none }.setF Fld.RTC_CMD_STAT_LAST_OP op

/-- R260: the record of a step from the words `lo`, `hi`. -/
def Dev.recordStep (d : Dev) (lo hi : Nat) (old : CalTime) (bySet : Bool) : Dev :=
  let d := d.wrs [(Reg.RTC_STEP_OLD_LO, lo), (Reg.RTC_STEP_OLD_HI, hi),
    (Reg.RTC_STEP_NEW_LO, d.rd Reg.RTC_TIME_LO), (Reg.RTC_STEP_NEW_HI, d.rd Reg.RTC_TIME_HI)]
  let d := ((d.setB Fld.RTC_STEP_INFO_BACKWARD (d.cal < old)).setB Fld.RTC_STEP_INFO_SRC bySet).setF
    Fld.RTC_STEP_INFO_OLD_LOST (bits hi 25 1)
  (d.setF Fld.RTC_STEP_INFO_SEQ (d.f Fld.RTC_STEP_INFO_SEQ + 1)).raise Ev.RTC_STEP

/-- R260: a step clears TIME_LOST and LFXO_FAIL; then `f` changes the calendar, and the step is recorded. -/
def Dev.rtcStep (d : Dev) (bySet : Bool) (f : Dev → Dev) : Dev :=
  let lo := d.rd Reg.RTC_TIME_LO
  let hi := d.rd Reg.RTC_TIME_HI
  let old := d.cal
  let d := (d.setF Fld.RTC_TIME_HI_TIME_LOST 0).setF Fld.RTC_STATUS_LFXO_FAIL 0
  (f d).recordStep lo hi old bySet

/-- R253 steps 2 and 3, R261: the pending command at a boundary. -/
def Dev.rtcApply (d : Dev) : Dev :=
  match d.rtc.cmd with
  | some (.set lo hi) =>
    let d := d.rtcStep true fun d =>
      (d.setCal ((calOf lo hi).getD 0)).setF Fld.RTC_TIME_HI_DST (bits hi 24 1)
    d.rtcApplied 1
  | some (.adj o) =>
    if o.natAbs ≤ d.rtcSlewLimit then
      ((d.wr Reg.RTC_ADJ_LEFT (unsgn 32 o)).setF Fld.RTC_STATUS_SLEWING 1).rtcApplied 2
    else
      let w := truncDiv o 32768
      let d := d.rtcStep false fun d => d.moveCal w
      if o - 32768 * w = 0 then (d.rtcApplied 2).raise Ev.RTC_ADJ_DONE
      else { d with rtc.cmd := some (.shift 2 (o - 32768 * w)) }
  | some .cancel => ((d.setF Fld.RTC_STATUS_SLEWING 0).raise Ev.RTC_ADJ_DONE).rtcApplied 3
  | some .dstAdd => (((d.moveCal 3600).setF Fld.RTC_TIME_HI_DST 1).raise Ev.RTC_DST_DONE).rtcApplied 4
  | some .dstSub => (((d.moveCal (-3600)).setF Fld.RTC_TIME_HI_DST 0).raise Ev.RTC_DST_DONE).rtcApplied 5
  | _ => d

/-- R261, R263: what the second just ended has completed: a slew step, a shift. -/
def Dev.rtcCompleted (d : Dev) : Dev :=
  let d :=
    if d.on Fld.RTC_STATUS_SLEWING then
      let left := sgn 32 (d.rd Reg.RTC_ADJ_LEFT) - d.rtc.step
      let d := d.wr Reg.RTC_ADJ_LEFT (unsgn 32 left)
      if left = 0 then (d.setF Fld.RTC_STATUS_SLEWING 0).raise Ev.RTC_ADJ_DONE else d
    else d
  match d.rtc.cmd with
  | some (.shifting op) => if d.rtc.carry = 0 then (d.rtcApplied op).raise Ev.RTC_ADJ_DONE else d
  | _ => d

/-! ### Second length (R254) -/

/-- The slew step of the next second: towards 0 by at most SLEW_RATE. -/
def Dev.nextSlew (d : Dev) : Int :=
  if d.on Fld.RTC_STATUS_SLEWING then
    clamp (-(d.slewPeriods : Int)) d.slewPeriods (sgn 32 (d.rd Reg.RTC_ADJ_LEFT))
  else 0

/-- R254: the length of the next second is fixed, with `n` of R255. -/
def Dev.rtcLength (d : Dev) (n : Int) : Dev :=
  let sh : Int := match d.rtc.cmd with
    | some (.shift _ x) => x
    | _ => 0
  let cmd := match d.rtc.cmd with
    | some (.shift op _) => some (RtcCmd.shifting op)
    | c => c
  let l : Int := 32768 + n - d.nextSlew - sh - d.rtc.carry
  { d with
    rtc.cmd := cmd
    rtc.step := d.nextSlew
    rtc.len := if l < 256 then 256 else l.toNat
    rtc.carry := if l < 256 then (256 - l).toNat else 0 }

/-! ### The alarm (R268) -/

/-- R268: every unmasked field equals the calendar. -/
def Dev.alarmMatches (d : Dev) : Bool :=
  let m := d.f Fld.RTC_ALM_CFG_MASK
  ((List.range 4).all fun i => bit m i || bits (d.rd Reg.RTC_ALM_LO) (8 * i) 8 == bits (d.rd Reg.RTC_TIME_LO) (8 * i) 8)
  && (bit m 4 || d.f Fld.RTC_ALM_HI_WDAY == d.f Fld.RTC_TIME_HI_WDAY)

def Dev.alarm (d : Dev) : Dev :=
  if d.on Fld.RTC_ALM_CFG_EN && d.alarmMatches then
    let d := if d.on Fld.RTC_ALM_CFG_ONCE then d.setF Fld.RTC_ALM_CFG_EN 0 else d
    (d.raise Ev.RTC_ALARM).wakeRequest [2]
  else d

/-! ### The boundary (R253) -/

/-- UPTIME takes the second that has ended (R267). -/
def Dev.addUptime (d : Dev) (n : Nat) : Dev :=
  let t := (d.uptime + n) % 2 ^ 48
  (d.wr Reg.RTC_UPTIME_LO t).wr Reg.RTC_UPTIME_HI (t / 2 ^ 32)

/-- R253: what a second boundary does; `t`: the temperature and `vbat`: the battery voltage if they are measured at it. -/
def Dev.rtcBoundary (d : Dev) (t : Int) (vbat : Nat) : Dev :=
  let d := d.addUptime d.rtc.len
  let q := d.rtc
  let d := { d with rtc := { q with sub := q.sub - q.len, place := (q.place + 1) % 32, rc := q.rc && !q.back, back := false } }
  let d := ((d.rtcCompleted).moveCal 1).rtcApply.alarm
  if d.rtc.place == 0 then
    let n := d.compN t
    let d := ((d.setF Fld.RTC_COMP_STAT_N (unsgn 9 n)).setF Fld.RTC_COMP_STAT_T (unsgn 16 t)).vbatMeasure vbat
    (d.rtcLength n).raise Ev.RTC_SEC
  else (d.rtcLength 0).raise Ev.RTC_SEC

/-- R253, R257: a second boundary; a command written in the period that ends there is left pending. -/
def Dev.rtcSecond (d : Dev) (t : Int) (vbat : Nat) : Dev :=
  if d.rtc.late then
    let c := d.rtc.cmd
    let d := { d with rtc.late := false, rtc.cmd := none }.rtcBoundary t vbat
    { d with rtc.cmd := c }
  else d.rtcBoundary t vbat

/-! ### The oscillator (R266) -/

/-- R266: the LFXO has stopped; `n` RC periods have passed since its last edge, and count in the second unless the RC
counted them already. -/
def Dev.lfxoFail (d : Dev) (n : Nat) : Dev :=
  let d := { d with rtc.rc := true, rtc.back := false, rtc.sub := if d.rtc.rc then d.rtc.sub else d.rtc.sub + n }
  ((d.setF Fld.RTC_STATUS_LFXO_FAIL 1).setF Fld.RTC_TIME_HI_TIME_LOST 1).raise Ev.RTC_LFXO_FAIL

def Dev.lfxoReturn (d : Dev) : Dev := if d.rtc.rc then { d with rtc.back := true } else d

/-! ### Reading the time (R252, R267) -/

/-- R252: a read of TIME_LO by `r`, `sub` periods after the boundary (as far as what is known allows). -/
def Dev.timeLoRead (d : Dev) (r : Requester) (sub : Nat) : Nat × Dev :=
  let v := max d.rtc.sub (min sub (d.rtc.len - 1))
  let c : Captures := { vGet d.caps r.capture {} with
    timeHi := BitVec.ofNat 32 (d.rd Reg.RTC_TIME_HI), subsec := BitVec.ofNat 32 v }
  (d.rd Reg.RTC_TIME_LO, { d with rtc.sub := v, caps := vSet d.caps r.capture c })

/-- STATUS as it reads. -/
def Dev.rtcStatus (d : Dev) : Nat :=
  b2n d.timeLost + b2n (d.on Fld.RTC_TIME_HI_VBATLOW) * 2 + b2n (d.on Fld.RTC_STATUS_LFXO_FAIL) * 4
  + b2n (d.on Fld.RTC_STATUS_SLEWING) * 8 + b2n d.rtc.cmd.isSome * 16

/-- R256: the fitted curve is copied into AON at the first start after an AON reset. -/
def Dev.loadComp (d : Dev) : Dev :=
  let d := (d.wr Reg.RTC_COMP_OFS d.otp.compOfs).wr Reg.RTC_COMP_K (d.otp.compK % 65536 + d.otp.compT0 % 65536 * 65536)
  let d := d.setF Fld.RTC_COMP_NPTS_NPTS d.otp.compPts.length
  let d := forUpto 16 (fun j d =>
    match d.otp.compPts[j]? with
    | some (t, r) => d.wr (Reg.RTC_RES j) (t % 65536 + r % 65536 * 65536)
    | none => d) d
  d.setF Fld.RTC_COMP_STAT_LOADED 1

end Sys2Proof.Machine
end

