-- ==== Sys2Proof/Machine/Tariff.lean ====
section
/-! DEFINITION. TARIFF: the calendar of seasons, weeks, days and switch points, the tables' two banks, the tariff in force
(R272–R276). -/

namespace Sys2Proof.Machine

/-! ### The active tables (R275) -/

/-- The registers of the two banks. -/
def isTableReg (a : Nat) : Bool := Reg.TARIFF_SEASON 0 ≤ a && a < Reg.TARIFF_SPECIAL 48

/-- A field of the active tables. -/
def Dev.tbl (d : Dev) (f : Field) : Nat := bits (d.tariff.active.get regReset f.reg).toNat f.lo f.width

def Dev.tblOn (d : Dev) (f : Field) : Bool := d.tbl f != 0

/-- A tariff T1–T8. -/
def realTariff (t : Nat) : Bool := 1 ≤ t && t ≤ 8

/-- DEF_TARIFF as it acts. -/
def Dev.defTariff (d : Dev) : Nat :=
  let t := d.f Fld.TARIFF_CTRL_DEF_TARIFF
  if realTariff t then t else 1

/-! ### The calendar (R272, R273) -/

/-- Of the numbers below `n` that satisfy `p`, the one with the greatest `key`; the higher number where keys are equal. -/
def latest (n : Nat) (p : Nat → Bool) (key : Nat → Nat) : Option Nat :=
  (List.range n).foldl (fun best i =>
    if p i then
      match best with
      | some b => if key b ≤ key i then some i else best
      | none => some i
    else best) none

/-- The latest one at or before `now`, else the latest of all. -/
def latestBefore (n now : Nat) (p : Nat → Bool) (key : Nat → Nat) : Option Nat :=
  match latest n (fun i => p i && key i ≤ now) key with
  | some i => some i
  | none => latest n p key

/-- R273: the season in force, by its start as month and day. -/
def Dev.season (d : Dev) : Option Nat :=
  latestBefore 4 (bits (d.rd Reg.RTC_TIME_HI) 0 8 * 256 + bits (d.rd Reg.RTC_TIME_LO) 24 8)
    (fun s => d.tblOn (Fld.TARIFF_SEASON_EN s))
    fun s => d.tbl (Fld.TARIFF_SEASON_MON s) * 256 + d.tbl (Fld.TARIFF_SEASON_DAY s)

/-- R273: the week profile. -/
def Dev.weekProf (d : Dev) : Nat :=
  match d.season with
  | some s => d.tbl (Fld.TARIFF_SEASON_WEEK s)
  | none => 0

/-- R272: the special day that matches today. -/
def Dev.specialDay (d : Dev) : Option Nat :=
  let lo := d.rd Reg.RTC_TIME_LO
  let hi := d.rd Reg.RTC_TIME_HI
  (List.range 48).find? fun e =>
    d.tblOn (Fld.TARIFF_SPECIAL_EN e) && d.tbl (Fld.TARIFF_SPECIAL_DAY e) == bits lo 24 8
    && d.tbl (Fld.TARIFF_SPECIAL_MON e) == bits hi 0 8
    && (d.tbl (Fld.TARIFF_SPECIAL_YEAR e) == 0xFF || d.tbl (Fld.TARIFF_SPECIAL_YEAR e) == bits hi 8 8)

/-- R272: the switch point in force in day profile `p`. -/
def Dev.switchPoint (d : Dev) (p : Nat) : Option Nat :=
  let lo := d.rd Reg.RTC_TIME_LO
  latestBefore 12 (bits lo 16 8 * 256 + bits lo 8 8) (fun i => d.tblOn (Fld.TARIFF_SWPT_EN p i))
    fun i => d.tbl (Fld.TARIFF_SWPT_HOUR p i) * 256 + d.tbl (Fld.TARIFF_SWPT_MIN p i)

/-- What the calendar path comes to (STATUS). -/
structure CalPath where
  src : Nat
  season : Nat := 0
  week : Nat := 0
  prof : Nat := 0
  point : Nat := 0
  tariff : Nat
deriving DecidableEq, Repr

/-- R272 rules 3 and 4: the path over day profile `p`. -/
def Dev.pathOver (d : Dev) (src p : Nat) : CalPath :=
  let base : CalPath := { src := src, season := d.season.getD 0, week := d.weekProf, prof := p, tariff := d.defTariff }
  match d.switchPoint p with
  | some i => { base with point := i, tariff := d.tbl (Fld.TARIFF_SWPT_TARIFF p i) }
  | none => base

/-- R272 rules 2 to 4. -/
def Dev.calPath (d : Dev) : CalPath :=
  if !d.on Fld.TARIFF_CTRL_EN || d.timeLost then { src := 2, tariff := d.defTariff }
  else match d.specialDay with
    | some e => d.pathOver 1 (d.tbl (Fld.TARIFF_SPECIAL_PROF e))
    | none =>
      d.pathOver 0 (bits (d.tbl (Fld.TARIFF_WEEK_PROF d.weekProf)) (4 * (d.f Fld.RTC_TIME_HI_WDAY - 1)) 4)

/-- R272: the tariff of outlet `k`, with the calendar's tariff `t`. -/
def Dev.outletTariff (d : Dev) (k t : Nat) : Nat :=
  let o := bits (d.rd Reg.TARIFF_OVR) (4 * k) 4
  if realTariff o then o else t

/-- R274: an evaluation: STATUS, ENERGY.ACT_TARIFF and TARIFF_CHG. -/
def Dev.tariffEval (d : Dev) : Dev :=
  let c := d.calPath
  let d := d.wr Reg.TARIFF_STATUS
    (c.src + c.season * 4 + c.week * 2 ^ 4 + c.prof * 2 ^ 8 + c.point * 2 ^ 12 + c.tariff * 2 ^ 16)
  let act := sumN ((List.range 4).map fun k => d.outletTariff k c.tariff * 16 ^ k)
  if d.domOn .met then (d.wr Reg.ENERGY_ACT_TARIFF act).raiseIf (d.rd Reg.ENERGY_ACT_TARIFF != act) Ev.TARIFF_TARIFF_CHG
  else d

/-! ### The commit (R275) -/

/-- Whether BCD `mm`, `dd` is a date of some year. -/
def dateOfSomeYear (mm dd : Nat) : Bool := (calOf (dd * 2 ^ 24) mm).isSome

/-- Whether BCD `yy`, `mm`, `dd` is a date (`yy` 0xFF: of some year). -/
def dateExists (yy mm dd : Nat) : Bool :=
  if yy = 0xFF then dateOfSomeYear mm dd else (calOf (dd * 2 ^ 24) (mm + yy * 256)).isSome

/-- R275: the faults of the pending tables in register order: RESULT and BAD_IDX. -/
def Dev.tableFault (d : Dev) : Option (Nat × Nat) :=
  let seasons := (List.range 4).map fun s =>
    (2, s, d.on (Fld.TARIFF_SEASON_EN s)
      && !dateOfSomeYear (d.f (Fld.TARIFF_SEASON_MON s)) (d.f (Fld.TARIFF_SEASON_DAY s)))
  let points := (List.range 16).flatMap fun p => (List.range 12).map fun i =>
    (1, 12 + 12 * p + i, d.on (Fld.TARIFF_SWPT_EN p i) && !realTariff (d.f (Fld.TARIFF_SWPT_TARIFF p i)))
  let specials := (List.range 48).map fun e =>
    (2, 204 + e, d.on (Fld.TARIFF_SPECIAL_EN e)
      && !dateExists (d.f (Fld.TARIFF_SPECIAL_YEAR e)) (d.f (Fld.TARIFF_SPECIAL_MON e)) (d.f (Fld.TARIFF_SPECIAL_DAY e)))
  ((seasons ++ points ++ specials).find? fun x => x.2.2).map fun x => (x.1, x.2.1)

/-- R275: a write of TBL_CMD.COMMIT. -/
def Dev.tableCommit (d : Dev) : Dev :=
  match d.tableFault with
  | some (res, idx) =>
    ((d.setF Fld.TARIFF_TBL_STAT_RESULT res).setF Fld.TARIFF_TBL_STAT_BAD_IDX idx).raise Ev.TARIFF_TBL_ERR
  | none => (d.setF Fld.TARIFF_TBL_STAT_RESULT 0).setF Fld.TARIFF_TBL_STAT_PENDING 1

/-- R275: a committed bank becomes active at the second boundary. -/
def Dev.tableApply (d : Dev) : Dev :=
  if d.on Fld.TARIFF_TBL_STAT_PENDING then
    let d := { d with tariff.active := d.regs.filter fun p => isTableReg p.1 }
    ((d.setF Fld.TARIFF_TBL_STAT_PENDING 0).wr Reg.TARIFF_ACT_ID (d.rd Reg.TARIFF_TBL_ID)).raise Ev.TARIFF_TBL_COMMIT
  else d

/-- R274: TARIFF at an RTC second boundary. -/
def Dev.tariffSecond (d : Dev) : Dev := d.tableApply.tariffEval

end Sys2Proof.Machine
end

