-- ==== Sys2Proof/Machine/Bill.lean ====
section
/-! DEFINITION. BILL: sessions, clock steps and intervals, records and their ring, the image and its restore
(R271, R277–R288). -/

namespace Sys2Proof.Machine

/-! ### What records are built from -/

/-- R16: the all-tariff total of outlet `k`, direction `x` (0 DLV, 1 RTN), in mWh. -/
def Dev.outletTotal (d : Dev) (k x : Nat) : Nat :=
  sumN ((List.range 8).map fun t => d.rd64 (Reg.ENERGY_TOT_LO k (t + 1) x)) % 2 ^ 64

/-- R216: a calendar time of two words in the form of the epoch header. -/
def bcdTime (lo hi : Nat) : List Byte := leBytes 4 lo ++ leBytes 4 (hi % 2 ^ 27)

def Dev.timeNow (d : Dev) : List Byte := bcdTime (d.rd Reg.RTC_TIME_LO) (d.rd Reg.RTC_TIME_HI)

/-- MAE.CYC_HI. -/
def Dev.cycHi (d : Dev) : Nat := bits (d.rd Reg.MAE_CYC_HI) 0 16

/-- R285: the flags that every body takes from the RTC and the interval in force. -/
def Dev.recFlags (d : Dev) : Nat :=
  let hi := d.rd Reg.RTC_TIME_HI
  bits hi 25 1 + bits hi 26 1 * 2 + bits hi 24 1 * 4 + d.f Fld.BILL_STATUS_BACKSTEP * 8

/-- R285: the fields of a record of a session. -/
structure RecFields where
  type : Nat
  time : List Byte
  cyc : Nat
  cycHi : Nat
  dlv : Nat
  rtn : Nat
  usr : Nat
deriving DecidableEq, Repr

/-- R285: bytes 0x00–0x5B of a record of outlet `k`'s session; SEQ is filled in by place. -/
def Dev.sessBody (d : Dev) (k : Nat) (r : RecFields) : List Byte :=
  let flags := if r.type = 1 then d.recFlags + d.f (Fld.BILL_SESS_STAT_HOST k) * 16
    else d.recFlags + d.f (Fld.BILL_SESS_STAT_HOST k) * 16 + d.f (Fld.BILL_SESS_STAT_FALLBACK k) * 32
      + d.f (Fld.BILL_SESS_STAT_SAT k) * 64 + d.f (Fld.BILL_SESS_STAT_PARTIAL k) * 128
  let acct := d.f (Fld.BILL_SESS_STAT_ACCT k) + d.f (Fld.BILL_SESS_STAT_TENANT k) * 2 ^ 14
    + d.f (Fld.BILL_SESS_STAT_HOST k) * 2 ^ 15
  leBytes 4 (r.type + 0x100 + k * 2 ^ 16 + flags * 2 ^ 24) ++ leBytes 4 0 ++ leBytes 8 d.otp.devId
  ++ leBytes 4 (d.rd (Reg.BILL_SESS_ID k)) ++ leBytes 2 acct ++ leBytes 2 (d.f Fld.BILL_STATUS_INT_SEQ)
  ++ r.time ++ leBytes 4 r.cyc ++ leBytes 2 r.cycHi ++ leBytes 2 0 ++ leBytes 8 r.dlv ++ leBytes 8 r.rtn
  ++ (List.range 8).flatMap (fun t => leBytes 4 (if r.type = 1 then 0 else d.rd (Reg.BILL_SE k (t + 1) 0)))
  ++ leBytes 4 r.usr

/-- R285: bytes 0x00–0x5B of a CLOCK_STEP record from the RTC's step registers. -/
def Dev.stepBody (d : Dev) (cyc cycHi : Nat) : List Byte :=
  leBytes 4 (4 + 0x100 + 0xFF * 2 ^ 16 + d.recFlags * 2 ^ 24) ++ leBytes 4 0 ++ leBytes 8 d.otp.devId
  ++ leBytes 4 (d.f Fld.RTC_STEP_INFO_SEQ) ++ leBytes 2 0 ++ leBytes 2 (d.f Fld.BILL_STATUS_INT_SEQ)
  ++ bcdTime (d.rd Reg.RTC_STEP_NEW_LO) (d.rd Reg.RTC_STEP_NEW_HI) ++ leBytes 4 cyc ++ leBytes 2 cycHi
  ++ leBytes 2 (bits (d.rd Reg.RTC_STEP_INFO) 0 3) ++ leBytes 8 (d.rd64 (Reg.ENERGY_IN_TOT_LO 0))
  ++ leBytes 8 (d.rd64 (Reg.ENERGY_IN_TOT_LO 1))
  ++ bcdTime (d.rd Reg.RTC_STEP_OLD_LO) (d.rd Reg.RTC_STEP_OLD_HI) ++ leBytes 24 0 ++ leBytes 4 0

/-- R285: the 96 bytes of a body with SEQ and CRC. -/
def sealBody (seq : Nat) (b : List Byte) : List Byte :=
  let b := b.take 4 ++ leBytes 4 seq ++ b.drop 8
  b ++ leBytes 4 (crc32 b)

/-! ### The queue (R283, R284) -/

/-- STATUS.QUEUED and HW_WAIT as the queue has them. -/
def Dev.billSync (d : Dev) : Dev :=
  (d.setF Fld.BILL_STATUS_QUEUED d.bill.queue.length).setB Fld.BILL_STATUS_HW_WAIT
    (d.bill.step.isSome || !d.bill.intr.isEmpty)

/-- A body takes the next place; a new head raises REC_READY. -/
def Dev.billPush (d : Dev) (b : List Byte) : Dev :=
  { d with bill.queue := d.bill.queue ++ [b] }.raiseIf d.bill.queue.isEmpty Ev.BILL_REC_READY

/-- The number that the next body queued will have. -/
def Dev.nextSeq (d : Dev) : Nat := (d.rd Reg.BILL_REC_WR + d.bill.queue.length) % 2 ^ 32

/-- R283, R287: an INTERRUPTED record is built. -/
def Dev.buildIntr (d : Dev) (w : IntrWait) : Dev :=
  let b := d.sessBody w.outlet { type := 3, time := w.time, cyc := w.cyc, cycHi := w.cycHi, dlv := w.dlv, rtn := w.rtn, usr := w.secs }
  { d with bill.last := vSet d.bill.last w.outlet (some (d.nextSeq, w.time)) }.billPush b

/-- R283: hardware records that wait are built while places are free, CLOCK_STEP first. -/
def Dev.billFill : Nat → Dev → Dev
  | 0, d => d.billSync
  | n + 1, d =>
    if 4 ≤ d.bill.queue.length then d.billSync
    else match d.bill.step, d.bill.intr with
      | some (c, h), _ => Dev.billFill n ({ d with bill.step := none }.billPush (d.stepBody c h))
      | none, w :: ws => Dev.billFill n ({ d with bill.intr := ws }.buildIntr w)
      | none, [] => d.billSync

def Dev.billRefill (d : Dev) : Dev := Dev.billFill 5 d

/-- R283: OPEN and CLOSE have no room. -/
def Dev.billFull (d : Dev) : Bool := 2 < d.bill.queue.length || d.bill.step.isSome || !d.bill.intr.isEmpty

/-- The head body as REC_BODY shows it; with an empty queue the manual says nothing of it. -/
def Dev.recBodyWord (d : Dev) (w : Nat) : Nat × Dev :=
  match d.bill.queue with
  | b :: _ => ((((wordsOf (sealBody (d.rd Reg.BILL_REC_WR) b))[w]?).getD 0).toNat, d)
  | [] => (d.fresh.1.toNat, d.fresh.2)

/-! ### The tenant's context (R280) -/

/-- Word `w` of frame `f`. -/
def Dev.ctxWord (d : Dev) (f w : Nat) : Nat × Dev :=
  match d.muleRead 19 (f * 64 + w) 1 with
  | (x :: _, d) => (x, d)
  | ([], d) => (0, d)

def Dev.setCtxWord (d : Dev) (f w v : Nat) : Dev := (d.muleWrite 19 (f * 64 + w) [v]).setF (Fld.MULE_FRAME_DIRTY f) 1

/-- Words `w` and `w + 1` of frame `f` as one number. -/
def Dev.ctxPair (d : Dev) (f w : Nat) : Nat × Dev :=
  let a := d.ctxWord f w
  let b := a.2.ctxWord f (w + 1)
  (a.1 % 2 ^ 32 + b.1 % 2 ^ 32 * 2 ^ 32, b.2)

def Dev.setCtxPair (d : Dev) (f w v : Nat) : Dev := (d.setCtxWord f w v).setCtxWord f (w + 1) (v / 2 ^ 32)

/-- R214: the frame of account `n`, if it is pinned. -/
def Dev.pinnedFrame (d : Dev) (n : Nat) : Option Nat :=
  (d.frameOf n).bind fun f => if d.on (Fld.MULE_FRAME_PIN f) then some f else none

/-- The frame of outlet `k`'s tenant, if it is pinned. -/
def Dev.tenantFrame (d : Dev) (k : Nat) : Option Nat :=
  if d.on (Fld.BILL_SESS_STAT_TENANT k) then d.pinnedFrame (d.f (Fld.BILL_SESS_STAT_ACCT k)) else none

/-! ### The ring (R284–R286) -/

def ringAddr (seq : Nat) : Nat := 0x90000 + seq % 2867 * 0xA0

/-- R285: whether the bytes at a ring position are record `s`. -/
def recordGood (bs : List Byte) (s : Nat) : Bool :=
  leNat ((bs.drop 4).take 4) == s && leNat ((bs.drop 92).take 4) == crc32 (bs.take 92)

/-- R286: the END or INTERRUPTED record of outlet `k`'s session in the ring, the newest of them: SEQ and TIME. -/
def Dev.ringRecord (d : Dev) (k : Nat) : Option (Nat × List Byte) :=
  let w := d.rd Reg.BILL_REC_WR
  (List.range (min w 2867)).findSome? fun i =>
    let s := w - 1 - i
    let bs := d.framRd (ringAddr s) 160
    let t := leNat (bs.take 1)
    let mine := (t == 2 || t == 3) && leNat ((bs.drop 2).take 1) == k && leNat ((bs.drop 16).take 4) == d.rd (Reg.BILL_SESS_ID k)
    if mine && recordGood bs s then some (s, (bs.drop 24).take 8) else none

/-- R280, R283: SEQ and TIME of the END or INTERRUPTED record of outlet `k`'s session: as built, as it will be built from
the records that wait, or as it stands in the ring. -/
def Dev.sessionRecord (d : Dev) (k : Nat) : Option (Nat × List Byte) :=
  match vGet d.bill.last k none with
  | some x => some x
  | none =>
    match d.bill.intr.findIdx? (·.outlet == k) with
    | some i => some ((d.nextSeq + b2n d.bill.step.isSome + i) % 2 ^ 32, ((d.bill.intr[i]?).map (·.time)).getD [])
    | none => d.ringRecord k

/-- R280: the session's energy and its record go into the tenant's context; a record found nowhere is free. -/
def Dev.settleEnergy (d : Dev) (k : Nat) : Dev :=
  match d.tenantFrame k with
  | none => d
  | some f =>
    let d := forUpto 16 (fun i d =>
      let x := d.ctxPair f (8 + 2 * i)
      x.2.setCtxPair f (8 + 2 * i) ((x.1 + d.rd (Reg.BILL_SE k (i / 2 + 1) (i % 2))) % 2 ^ 64)) d
    match d.sessionRecord k with
    | some (seq, time) => (d.setCtxWord f 49 seq).setCtxPair f 50 (leNat time)
    | none =>
      let x := d.fresh
      let y := x.2.fresh
      let z := y.2.fresh
      (z.2.setCtxWord f 49 x.1.toNat).setCtxPair f 50 (y.1.toNat + z.1.toNat * 2 ^ 32)

/-! ### Sessions (R277, R279) -/

def sessIdle : Nat := 0
def sessOpening : Nat := 1
def sessOpen : Nat := 2
def sessClosing : Nat := 3
def sessInterrupted : Nat := 4

def Dev.sessState (d : Dev) (k : Nat) : Nat := d.f (Fld.BILL_SESS_STAT_STATE k)

/-- R277: a command that is not performed. -/
def Dev.sessRefuse (d : Dev) (result : Nat) : Dev := (d.wr Reg.BILL_SESS_RES result).raise Ev.BILL_SESS_ERR

/-- R277, R279: the record of a command on outlet `k`, with the registers as they stand. -/
def Dev.sessRecord (d : Dev) (k type : Nat) : Dev :=
  let b := d.sessBody k
    { type := type, time := d.timeNow, cyc := d.mae.cyc.toNat, cycHi := d.cycHi, dlv := d.outletTotal k 0,
      rtn := d.outletTotal k 1, usr := d.rd Reg.BILL_SESS_USR }
  d.billPush b

/-- R277 OP 1, as it is performed. -/
def Dev.sessBegin (d : Dev) (k acct : Nat) (tenant host : Bool) : Dev :=
  let d := d.wr (Reg.BILL_SESS_STAT k) (sessOpening + acct * 2 ^ 16 + b2n tenant * 2 ^ 26 + b2n host * 2 ^ 27)
  let d := (d.wr (Reg.BILL_SESS_ID k) (d.rd Reg.BILL_SESS_NEXT)).incWrap Reg.BILL_SESS_NEXT
  let d := d.wrs [(Reg.BILL_START_CYC k, d.mae.cyc.toNat), (Reg.BILL_START_TIME_LO k, d.rd Reg.RTC_TIME_LO),
    (Reg.BILL_START_TIME_HI k, d.rd Reg.RTC_TIME_HI), (Reg.BILL_USR k, d.rd Reg.BILL_SESS_USR)]
  let d := (d.wr64 (Reg.BILL_START_DLV_LO k) (d.outletTotal k 0)).wr64 (Reg.BILL_START_RTN_LO k) (d.outletTotal k 1)
  let d := forUpto 16 (fun i d => d.wr (Reg.BILL_SE k (i / 2 + 1) (i % 2)) 0) d
  let d := { d with bill.last := vSet d.bill.last k none }
  ((d.sessRecord k 1).billSync).wr Reg.BILL_SESS_RES 0

/-- R277: OPEN. -/
def Dev.sessOpenCmd (d : Dev) (k acct : Nat) (tenant host : Bool) : Dev :=
  if d.sessState k != sessIdle then d.sessRefuse 1
  else if !(d.on (Fld.ENERGY_OUT_CFG_EN k) && d.on (Fld.ENERGY_OUT_CFG_TYPE_OK k)) then d.sessRefuse 2
  else if tenant && (d.pinnedFrame acct).isNone then d.sessRefuse 3
  else if d.billFull then d.sessRefuse 4
  else d.sessBegin k acct tenant host

/-- R277: the tenant of outlet `k`'s session, if it has one, has no pinned frame. -/
def Dev.tenantMissing (d : Dev) (k : Nat) : Bool := d.on (Fld.BILL_SESS_STAT_TENANT k) && (d.tenantFrame k).isNone

/-- R277: whether CLOSE is performed; if not, why. -/
def Dev.sessCloseFault (d : Dev) (k : Nat) : Option Nat :=
  if d.sessState k != sessOpen then some 1
  else if d.tenantMissing k then some 3
  else if d.billFull then some 4
  else none

/-- R277: CLOSE. -/
def Dev.sessCloseCmd (d : Dev) (k : Nat) : Dev :=
  match d.sessCloseFault k with
  | some r => d.sessRefuse r
  | none =>
    let d := { d with bill.last := vSet d.bill.last k (some (d.nextSeq, d.timeNow)) }
    let d := (d.settleEnergy k).sessRecord k 2
    ((d.setF (Fld.BILL_SESS_STAT_STATE k) sessClosing).billSync).wr Reg.BILL_SESS_RES 0

/-- R277: INTERRUPTED becomes IDLE once it is recorded and settled. -/
def Dev.sessDone (d : Dev) (k : Nat) : Dev :=
  if d.sessState k == sessInterrupted && d.on (Fld.BILL_SESS_STAT_REC_DONE k) && d.on (Fld.BILL_SESS_STAT_SETTLED k) then
    d.setF (Fld.BILL_SESS_STAT_STATE k) sessIdle
  else d

/-- R277: whether SETTLE is performed; if not, why. -/
def Dev.sessSettleFault (d : Dev) (k : Nat) : Option Nat :=
  if d.sessState k != sessInterrupted || d.on (Fld.BILL_SESS_STAT_SETTLED k) then some 1
  else if d.tenantMissing k then some 3
  else none

/-- R277: SETTLE. -/
def Dev.sessSettleCmd (d : Dev) (k : Nat) : Dev :=
  match d.sessSettleFault k with
  | some r => d.sessRefuse r
  | none => (((d.settleEnergy k).setF (Fld.BILL_SESS_STAT_SETTLED k) 1).wr Reg.BILL_SESS_RES 0).sessDone k

/-- R279: what a publication gives outlet `k`. -/
def Dev.sessAdd (d : Dev) (k : Nat) (g : OutletGain) : Dev :=
  if d.sessState k == sessOpen then
    let add := fun (d : Dev) (x e : Nat) =>
      let a := Reg.BILL_SE k g.tariff x
      if d.rd a + e < 2 ^ 32 then d.wr a (d.rd a + e)
      else (d.wr a (2 ^ 32 - 1)).setF (Fld.BILL_SESS_STAT_SAT k) 1
    add (add d 0 g.dlv) 1 g.rtn
  else d

/-- R279: a publication while the session of outlet `k` is OPEN notes the cable-loss fallback as it stands. -/
def Dev.sessFallback (d : Dev) (k : Nat) : Dev :=
  if d.sessState k == sessOpen && d.on (Fld.ENERGY_CL_STAT_FALLBACK k) then d.setF (Fld.BILL_SESS_STAT_FALLBACK k) 1 else d

/-! ### Clock steps (R281) -/

/-- R281: an RTC step, in the cycle `cyc`. -/
def Dev.billStep (d : Dev) (cyc cycHi : Nat) : Dev :=
  let d := d.setF Fld.BILL_STATUS_INT_SEQ (d.f Fld.BILL_STATUS_INT_SEQ + 1)
  let d := (d.wr Reg.BILL_INT_START_LO (d.rd Reg.RTC_STEP_NEW_LO)).wr Reg.BILL_INT_START_HI (d.rd Reg.RTC_STEP_NEW_HI)
  let d := d.setF Fld.BILL_STATUS_BACKSTEP (d.f Fld.RTC_STEP_INFO_BACKWARD)
  let d := if d.bill.step.isSome then d.incF Fld.BILL_STATUS_REC_LOST else d
  let d := { d with bill.stepSeq := d.f Fld.RTC_STEP_INFO_SEQ, bill.step := some (cyc, cycHi) }
  d.billRefill.raise Ev.BILL_SPLIT

/-! ### Ring accesses (R284, R286) -/

/-- R284, R286: a ring transfer has failed: that of the access begun first, unless its own has failed already. -/
def Dev.ringFailed (d : Dev) : Dev :=
  let wr := d.bill.out.isSome && !d.bill.badWr
  let rd := d.bill.reading.isSome && !d.bill.badRd
  if wr && !(rd && d.bill.rdFirst) then { d with bill.badWr := true }
  else if rd then { d with bill.badRd := true }
  else d

/-- R284: a write of REC_CMD.COMMIT. -/
def Dev.recCommit (d : Dev) : Dev :=
  if d.bill.out.isSome then d.setF Fld.BILL_REC_STAT_RESULT 2
  else match d.bill.queue with
    | [] => d.setF Fld.BILL_REC_STAT_RESULT 1
    | b :: _ =>
      let sig := (List.range 16).flatMap fun w => leBytes 4 (d.rd (Reg.BILL_REC_SIG w))
      { d with bill.out := some (sealBody (d.rd Reg.BILL_REC_WR) b ++ sig), bill.badWr := false,
               bill.rdFirst := d.bill.reading.isSome }.setF Fld.BILL_REC_STAT_BUSY 1

/-- R277: the record of TYPE `t`, OUTLET `k` is in the ring. -/
def Dev.recordIn (d : Dev) (t k : Nat) : Dev :=
  if t = 1 && d.sessState k == sessOpening then d.setF (Fld.BILL_SESS_STAT_STATE k) sessOpen
  else if t = 2 && d.sessState k == sessClosing then d.setF (Fld.BILL_SESS_STAT_STATE k) sessIdle
  else if t = 3 then (d.setF (Fld.BILL_SESS_STAT_REC_DONE k) 1).sessDone k
  else d

/-- R284: the ring write in progress ends. -/
def Dev.recDone (d : Dev) (framOk : Bool) : Dev :=
  match d.bill.out with
  | none => d
  | some bs =>
    let d := { d with bill.out := none }.setF Fld.BILL_REC_STAT_BUSY 0
    if framOk && !d.bill.badWr then
      let d := d.framWr (ringAddr (d.rd Reg.BILL_REC_WR)) bs
      let d := { (d.incWrap Reg.BILL_REC_WR) with bill.queue := d.bill.queue.drop 1 }
      let d := d.recordIn (leNat (bs.take 1)) (leNat ((bs.drop 2).take 1))
      let d := ((d.setF Fld.BILL_REC_STAT_RESULT 0).raise Ev.BILL_REC_DONE).raiseIf (!d.bill.queue.isEmpty) Ev.BILL_REC_READY
      d.billRefill
    else (d.setF Fld.BILL_REC_STAT_RESULT 3).raise Ev.BILL_REC_ERR

/-- R286: a write of REC_RD_GO. -/
def Dev.recRdGo (d : Dev) : Dev :=
  if d.bill.reading.isSome then d
  else
    let s := d.rd Reg.BILL_REC_RD_SEQ
    let w := d.rd Reg.BILL_REC_WR
    if w ≤ s || s + 2867 < w then d.setF Fld.BILL_REC_RD_STAT_RESULT 1
    else { d with bill.reading := some s, bill.badRd := false, bill.rdFirst := d.bill.out.isNone }.setF Fld.BILL_REC_RD_STAT_BUSY 1

/-- R286: the ring read in progress ends. -/
def Dev.recRdDone (d : Dev) (framOk : Bool) : Dev :=
  match d.bill.reading with
  | none => d
  | some s =>
    let d := { d with bill.reading := none }.setF Fld.BILL_REC_RD_STAT_BUSY 0
    if framOk && !d.bill.badRd then
      let bs := d.framRd (ringAddr s) 160
      let ws := wordsOf bs
      let d := forUpto 40 (fun w d => d.wr (Reg.BILL_REC_RD w) ((ws[w]?).getD 0).toNat) d
      d.setF Fld.BILL_REC_RD_STAT_RESULT (if recordGood bs s then 0 else 2)
    else d.setF Fld.BILL_REC_RD_STAT_RESULT 3

/-! ### The image and the restore (R287, R288) -/

/-- R288: the registers of outlet `k` in the image, in order. -/
def sessRegs (k : Nat) : List Nat :=
  ((List.range 10).map fun i => Reg.BILL_SESS_STAT k + 4 * i) ++ (List.range 16).map fun i => Reg.BILL_SE k 1 0 + 4 * i

/-- R288: the BILL image, 512 bytes. -/
def Dev.billImage (d : Dev) : List Byte :=
  let head := leBytes 4 (d.rd Reg.BILL_REC_WR) ++ leBytes 4 (d.rd Reg.BILL_SESS_NEXT)
    ++ leBytes 4 (d.f Fld.BILL_STATUS_INT_SEQ + d.f Fld.BILL_STATUS_BACKSTEP * 2 ^ 16)
    ++ leBytes 4 (d.rd Reg.BILL_INT_START_LO) ++ leBytes 4 (d.rd Reg.BILL_INT_START_HI) ++ leBytes 12 d.bill.stepSeq
  head ++ (List.range 4).flatMap (fun k => (sessRegs k).flatMap (fun a => leBytes 4 (d.rd a)) ++ leBytes 8 0) ++ leBytes 32 0

/-- R287: the registers of the image. -/
def Dev.billLoad (d : Dev) (img : List Byte) : Dev :=
  let w := fun (i : Nat) => (((wordsOf img)[i]?).getD 0).toNat
  let d := d.wrs [(Reg.BILL_REC_WR, w 0), (Reg.BILL_SESS_NEXT, w 1), (Reg.BILL_INT_START_LO, w 3), (Reg.BILL_INT_START_HI, w 4)]
  let d := (d.setF Fld.BILL_STATUS_INT_SEQ (w 2)).setF Fld.BILL_STATUS_BACKSTEP (bits (w 2) 16 1)
  let d := { d with bill.stepSeq := w 5 % 65536 }
  forUpto 4 (fun k d => d.wrs ((sessRegs k).mapIdx fun i a => (a, w (8 + 28 * k + i)))) d

/-- `a` is ahead of `b` as 16-bit counts that wrap. -/
def ahead16 (a b : Nat) : Bool :=
  let x := (a + 65536 - b % 65536) % 65536
  x != 0 && x < 32768

/-- R287 step 1: SESS_NEXT, INT_SEQ and STEP_SEQ come to cover a recovered record. -/
def Dev.cover (d : Dev) (bs : List Byte) : Dev :=
  let id := leNat ((bs.drop 16).take 4)
  let iseq := leNat ((bs.drop 22).take 2)
  let d := if ahead16 iseq (d.f Fld.BILL_STATUS_INT_SEQ) then d.setF Fld.BILL_STATUS_INT_SEQ iseq else d
  if leNat (bs.take 1) = 4 then
    if ahead16 id d.bill.stepSeq then { d with bill.stepSeq := id % 65536 } else d
  else if d.rd Reg.BILL_SESS_NEXT ≤ id then d.wr Reg.BILL_SESS_NEXT (id + 1) else d

/-- R287 step 1: the recovered records, oldest first. -/
def Dev.recoverRing : Nat → Dev → List (List Byte) × Dev
  | 0, d => ([], d)
  | n + 1, d =>
    let s := d.rd Reg.BILL_REC_WR
    let bs := d.framRd (ringAddr s) 160
    if recordGood bs s then
      match Dev.recoverRing n ((d.cover bs).incWrap Reg.BILL_REC_WR) with
      | (l, d) => (bs :: l, d)
    else ([], d)

/-- The records of `l` of outlet `k` whose TYPE is in `ts`. -/
def recordsOf (l : List (List Byte)) (k : Nat) (ts : List Nat) : List (List Byte) :=
  l.filter fun bs => leNat ((bs.drop 2).take 1) == k && ts.contains (leNat (bs.take 1))

/-- R287: the session of a recovered START, interrupted. -/
def Dev.sessFromStart (d : Dev) (k : Nat) (bs : List Byte) : Dev :=
  let n := fun (a len : Nat) => leNat ((bs.drop a).take len)
  let acct := n 0x14 2
  let d := d.wr (Reg.BILL_SESS_STAT k)
    (sessInterrupted + acct % 1024 * 2 ^ 16 + bits acct 14 1 * 2 ^ 26 + bits acct 15 1 * 2 ^ 27)
  let d := d.wrs [(Reg.BILL_SESS_ID k, n 0x10 4), (Reg.BILL_START_CYC k, n 0x20 4), (Reg.BILL_START_TIME_LO k, n 0x18 4),
    (Reg.BILL_START_TIME_HI k, n 0x1C 4), (Reg.BILL_USR k, n 0x58 4), (Reg.BILL_START_DLV_LO k, n 0x28 4),
    (Reg.BILL_START_DLV_HI k, n 0x2C 4), (Reg.BILL_START_RTN_LO k, n 0x30 4), (Reg.BILL_START_RTN_HI k, n 0x34 4)]
  forUpto 16 (fun i d => d.wr (Reg.BILL_SE k (i / 2 + 1) (i % 2)) 0) d

/-- R287: an OPEN or CLOSING session of the image becomes INTERRUPTED; `rec`: its record was recovered. -/
def Dev.sessCut (d : Dev) (k : Nat) (rec : Bool) : Dev :=
  let d := (d.setF (Fld.BILL_SESS_STAT_STATE k) sessInterrupted).setF (Fld.BILL_SESS_STAT_SETTLED k) 0
  let d := d.setB (Fld.BILL_SESS_STAT_REC_DONE k) rec
  if rec then d.setF (Fld.BILL_SESS_STAT_PARTIAL k) 1 else d

/-- R287 step 2: outlet `k`, with the recovered records `l`. -/
def Dev.restoreSession (d : Dev) (l : List (List Byte)) (k : Nat) : Dev :=
  let note := fun (d : Dev) (r : Option (List Byte)) =>
    match r with
    | some bs => { d with bill.last := vSet d.bill.last k (some (leNat ((bs.drop 4).take 4), (bs.drop 24).take 8)) }
    | none => d
  let st := d.sessState k
  if st == sessIdle || st == sessOpening then
    match (recordsOf l k [1]).getLast? with
    | some bs => d.sessFromStart k bs
    | none => d.setF (Fld.BILL_SESS_STAT_STATE k) sessIdle
  else if st == sessOpen || st == sessClosing then
    let r := (recordsOf l k [2, 3]).head?
    (note d r).sessCut k r.isSome
  else
    let r := (recordsOf l k [3]).head?
    let d := note d r
    (if r.isSome then d.setF (Fld.BILL_SESS_STAT_REC_DONE k) 1 else d).sessDone k

/-- R287: the seconds from the snapshot of LAST_COMMIT to the restore; `0xFFFFFFFF` without trusted times. -/
def Dev.lostSeconds (d : Dev) : Nat × Dev :=
  let hi := d.rd Reg.MULE_LAST_RTC_HI
  if d.timeLost || bit hi 25 then (0xFFFFFFFF, d)
  else match calOf (d.rd Reg.MULE_LAST_RTC_LO) hi with
    | some t => if t ≤ d.cal then d.fitU 32 (d.cal - t) else (d.fresh.1.toNat, d.fresh.2)
    | none => (d.fresh.1.toNat, d.fresh.2)

/-- R287 step 2: the INTERRUPTED record of outlet `k` where it is still to be made; `cycHi`: CYC_HI of LAST_COMMIT. -/
def Dev.queueIntr (d : Dev) (cycHi k : Nat) : Dev :=
  if d.sessState k == sessInterrupted && !d.on (Fld.BILL_SESS_STAT_REC_DONE k) then
    let s := d.lostSeconds
    let w : IntrWait :=
      { outlet := k, time := bcdTime (d.rd Reg.MULE_LAST_RTC_LO) (d.rd Reg.MULE_LAST_RTC_HI), cyc := d.rd Reg.MULE_LAST_CYC
        cycHi := cycHi, secs := s.1, dlv := d.outletTotal k 0, rtn := d.outletTotal k 1 }
    { s.2 with bill.intr := s.2.bill.intr ++ [w] }.billRefill
  else d

/-- R287 step 3: a step that the RTC made unseen. -/
def Dev.missedStep (d : Dev) : Dev :=
  let seq := d.f Fld.RTC_STEP_INFO_SEQ
  if d.timeLost then { d with bill.stepSeq := seq }
  else if seq = d.bill.stepSeq then d
  else
    let lost := (seq + 65536 - d.bill.stepSeq) % 65536 - 1
    let d := d.billStep d.mae.cyc.toNat d.cycHi
    d.setF Fld.BILL_STATUS_REC_LOST (min 255 (d.f Fld.BILL_STATUS_REC_LOST + lost))

/-- R287: the restore of BILL from its image. -/
def Dev.billRestore (d : Dev) (img : List Byte) (cycHi : Nat) : Dev :=
  match (d.billLoad img).recoverRing 2867 with
  | (l, d) =>
    let d := forUpto 4 (fun k d => d.restoreSession l k) d
    (forUpto 4 (fun k d => d.queueIntr cycHi k) d).missedStep.billSync

end Sys2Proof.Machine
end

