-- ==== Sys2Proof/Machine/Prepay.lean ====
section
/-! DEFINITION. PREPAY: charging, keypad entries, tokens, emergency credit, friendly hours, disconnection, login and the
keypad lock (R290–R315). -/

namespace Sys2Proof.Machine

/-! ### The context as PREPAY reads it (R202) -/

/-- The fields of a context that PREPAY reads and writes. -/
structure Ctx where
  flags : Nat
  credit : Int
  ecFlags : Nat
  fh : Nat
  owed : Nat
  seq : Nat
  valid : Nat
  map : Nat
  tokCnt : Nat
  ecCnt : Nat
  pinFail : Nat
deriving DecidableEq, Repr

/-- The words PREPAY reads. -/
def ctxPlaces : List Nat := [0, 2, 3, 4, 5, 6, 7, 47, 48]

/-- The words at `ps` of frame `f`. -/
def Dev.ctxWords (d : Dev) (f : Nat) (ps : List Nat) : List Nat × Dev :=
  ps.foldl (fun (a : List Nat × Dev) p =>
    let x := a.2.ctxWord f p
    (a.1 ++ [x.1 % 2 ^ 32], x.2)) ([], d)

def ctxOf (w : List Nat) : Ctx :=
  let g := fun (i : Nat) => (w[i]?).getD 0
  { flags := bits (g 0) 24 8, credit := sgn 48 (g 1 + bits (g 2) 0 16 * 2 ^ 32), ecFlags := bits (g 2) 16 8
    fh := bits (g 2) 24 8, owed := g 3 + bits (g 4) 0 16 * 2 ^ 32, seq := bits (g 5) 0 16, valid := bits (g 5) 16 8
    map := g 6, tokCnt := g 7, ecCnt := bits (g 8) 0 16, pinFail := bits (g 8) 16 16 }

/-- The words `w` with the fields of `c`. -/
def ctxPut (w : List Nat) (c : Ctx) : List Nat :=
  let g := fun (i : Nat) => (w[i]?).getD 0
  let credit := unsgn 48 c.credit
  [setBits (g 0) 24 8 c.flags, credit % 2 ^ 32, credit / 2 ^ 32 + c.ecFlags % 256 * 2 ^ 16 + c.fh % 256 * 2 ^ 24,
   c.owed % 2 ^ 32, setBits (g 4) 0 16 (c.owed / 2 ^ 32), setBits (setBits (g 5) 0 16 c.seq) 16 8 c.valid,
   c.map % 2 ^ 32, c.tokCnt % 2 ^ 32, c.ecCnt % 2 ^ 16 + c.pinFail % 2 ^ 16 * 2 ^ 16]

/-- The context in frame `f`. -/
def Dev.ctx (d : Dev) (f : Nat) : Ctx × Dev :=
  let x := d.ctxWords f ctxPlaces
  (ctxOf x.1, x.2)

/-- The context in frame `f` changed by `g`; only words that change are written. -/
def Dev.ctxSet (d : Dev) (f : Nat) (g : Ctx → Ctx) : Dev :=
  let x := d.ctxWords f ctxPlaces
  let new := ctxPut x.1 (g (ctxOf x.1))
  ((ctxPlaces.zip (x.1.zip new)).filter fun p => p.2.1 != p.2.2).foldl (fun d p => d.setCtxWord f p.1 p.2.2) x.2

def Ctx.inUse (c : Ctx) : Bool := bit c.flags 0
def Ctx.blocked (c : Ctx) : Bool := bit c.flags 1
def Ctx.pinSet (c : Ctx) : Bool := bit c.flags 3
def Ctx.ecSpent (c : Ctx) : Bool := bit c.ecFlags 1

/-- A credit as the 48-bit field holds it; outside the format the manual states no value. -/
def Dev.fitCredit (d : Dev) (v : Int) : Int × Dev :=
  if -(2 ^ 47) ≤ v && v < 2 ^ 47 then (v, d)
  else
    let x := d.fresh
    let y := x.2.fresh
    (sgn 48 (x.1.toNat + y.1.toNat % 2 ^ 16 * 2 ^ 32), y.2)

/-! ### Disconnection (R305–R307) -/

/-- R304, R305: whether an account is in friendly hours. -/
def Dev.friendly (d : Dev) (c : Ctx) : Bool := bit c.fh 0 && bit (d.rd Reg.PREPAY_FH_NOW) (bits c.fh 1 3)

/-- R306: outlet `k` has an OPEN TENANT session. -/
def Dev.tenantOpen (d : Dev) (k : Nat) : Bool := d.sessState k == sessOpen && d.on (Fld.BILL_SESS_STAT_TENANT k)

/-- R290: its session is charged. -/
def Dev.charged (d : Dev) (k : Nat) : Bool := d.on Fld.PREPAY_CFG_EN && d.tenantOpen k

/-- R306: CUT_k is set. -/
def Dev.cutNow (d : Dev) (k : Nat) : Dev :=
  let d := (d.setF (Fld.PREPAY_PP_STAT_CUT k) 1).raise Ev.PREPAY_CREDIT_OUT
  if d.on Fld.PREPAY_CFG_AUTO_CUT then d.wr Reg.FWALL_ENA_CTRL (setBits (d.rd Reg.FWALL_ENA_CTRL) k 1 0) else d

/-- R305, R306: the cut-off test of outlet `k`; without a pinned frame there is no credit to test. -/
def Dev.cutTest (d : Dev) (k : Nat) : Dev :=
  match (if d.tenantOpen k then d.tenantFrame k else none) with
  | none => d
  | some f =>
    let x := d.ctx f
    let fr := x.2.friendly x.1
    let d := x.2.raiseIf (x.2.on (Fld.PREPAY_PP_STAT_FRIENDLY k) && !fr && x.1.credit ≤ 0) Ev.PREPAY_FH_END
    let d := d.setB (Fld.PREPAY_PP_STAT_FRIENDLY k) fr
    let out := if fr then decide (x.1.credit ≤ -(d.rd Reg.PREPAY_FH_DEBT_MAX : Int)) else decide (x.1.credit ≤ 0)
    if out then (if d.on (Fld.PREPAY_PP_STAT_CUT k) then d else d.cutNow k)
    else d.setF (Fld.PREPAY_PP_STAT_CUT k) 0

/-- R306: the tests of the outlets that serve account `n`. -/
def Dev.cutTestsOf (d : Dev) (n : Nat) : Dev :=
  forUpto 4 (fun k d => if d.f (Fld.BILL_SESS_STAT_ACCT k) = n then d.cutTest k else d) d

def Dev.cutTests (d : Dev) : Dev := forUpto 4 (fun k d => d.cutTest k) d

/-! ### Charging (R290–R292, R308) -/

/-- R290, R308: `n` milli-units are deducted from the account in frame `f`. -/
def Dev.deduct (d : Dev) (f n : Nat) : Dev :=
  if n = 0 then d
  else
    let x := d.ctx f
    let y := x.2.fitCredit (x.1.credit - n)
    let thr := sgn 32 (y.2.rd Reg.PREPAY_LOW_THR)
    let d := y.2.ctxSet f fun c => { c with credit := y.1 }
    d.raiseIf (thr ≤ x.1.credit && y.1 < thr) Ev.PREPAY_LOW_CREDIT

/-- R290, R291: outlet `k` is charged `dlv` mWh in tariff `t`. -/
def Dev.charge (d : Dev) (k t dlv : Nat) : Dev :=
  if d.charged k then
    let acc := (d.rd64 (Reg.PREPAY_ACC_LO k) + dlv * d.f (Fld.PREPAY_PRICE_P t)) % 2 ^ 64
    match d.tenantFrame k with
    | some f => (d.wr64 (Reg.PREPAY_ACC_LO k) (acc % 1000000)).deduct f (acc / 1000000)
    | none => d.wr64 (Reg.PREPAY_ACC_LO k) acc
  else d

/-- R279, R290, R293: what BILL and PREPAY make of a publication. -/
def Dev.publishGains (d : Dev) (gains : List (Option OutletGain)) : Dev :=
  if d.domOn .lgl then
    let gain := fun (k : Nat) => ((gains[k]?).getD none).getD { tariff := 1, dlv := 0, rtn := 0 }
    let d := forUpto 4 (fun k d => (d.sessAdd k (gain k)).sessFallback k) d
    (forUpto 4 (fun k d => d.charge k (gain k).tariff (gain k).dlv) d).cutTests
  else d

/-- R292: the accumulator of outlet `k` at CLOSE or SETTLE, with its account `n` in frame `f`. -/
def Dev.accEnd (d : Dev) (k : Nat) (f : Option Nat) : Dev :=
  let round := decide (500000 ≤ d.rd64 (Reg.PREPAY_ACC_LO k)) && d.on Fld.PREPAY_CFG_EN
  let d := d.wr64 (Reg.PREPAY_ACC_LO k) 0
  match f with
  | some f => if round then d.deduct f 1 else d
  | none => d

/-! ### Sessions as PREPAY sees them (R292, R306, R310) -/

/-- R310: any login ends. -/
def Dev.loginEnd (d : Dev) : Dev := (d.setF Fld.PREPAY_LOGIN_VALID 0).setF Fld.PREPAY_LOGIN_HOST 0

/-- R277, R292, R310: OPEN. -/
def Dev.sessOpenAll (d : Dev) (k acct : Nat) (tenant host : Bool) : Dev :=
  let fresh := d.sessState k == sessIdle
  let d := d.sessOpenCmd k acct tenant host
  if fresh && d.sessState k == sessOpening then
    let d := (d.wr64 (Reg.PREPAY_ACC_LO k) 0).wr (Reg.PREPAY_PP_STAT k) 0
    if tenant && d.f Fld.PREPAY_LOGIN_ACCT = acct then d.loginEnd else d
  else d

/-- R277, R292, R306: CLOSE. -/
def Dev.sessCloseAll (d : Dev) (k : Nat) : Dev :=
  match d.sessCloseFault k with
  | some _ => d.sessCloseCmd k
  | none =>
    let f := d.tenantFrame k
    let d := ((d.sessCloseCmd k).setF (Fld.PREPAY_PP_STAT_CUT k) 0).accEnd k f
    if f.isSome then d.cutTestsOf (d.f (Fld.BILL_SESS_STAT_ACCT k)) else d

/-- R277, R292: SETTLE. -/
def Dev.sessSettleAll (d : Dev) (k : Nat) : Dev :=
  match d.sessSettleFault k with
  | some _ => d.sessSettleCmd k
  | none =>
    let f := d.tenantFrame k
    let d := (d.sessSettleCmd k).accEnd k f
    if f.isSome then d.cutTestsOf (d.f (Fld.BILL_SESS_STAT_ACCT k)) else d

/-! ### Friendly hours (R304) -/

/-- R304: the day of words `lo`, `hi` is a listed day of a window `w`. -/
def Dev.listed (d : Dev) (w lo hi wday : Nat) : Bool :=
  bit (bits w 22 7) (wday - 1) || (bit w 29 &&
    (List.range 48).any fun e =>
      d.tblOn (Fld.TARIFF_SPECIAL_EN e) && d.tbl (Fld.TARIFF_SPECIAL_DAY e) == bits lo 24 8
      && d.tbl (Fld.TARIFF_SPECIAL_MON e) == bits hi 0 8
      && (d.tbl (Fld.TARIFF_SPECIAL_YEAR e) == 0xFF || d.tbl (Fld.TARIFF_SPECIAL_YEAR e) == bits hi 8 8))

/-- R304: whether window `w` holds at calendar time `t`. -/
def Dev.windowHolds (d : Dev) (w : Nat) (t : CalTime) : Bool :=
  let now := t % 86400 / 60
  let on := fun (t : CalTime) => d.listed w (calLo t) (calHi t) (weekday (t / 86400))
  let start := bits w 0 11
  let end_ := bits w 11 11
  bit w 31 &&
    (if start < end_ then on t && start ≤ now && now < end_
    else (start ≤ now && on t) || (now < end_ && on ((t + century - 86400) % century)))

/-- R304: the profiles that are friendly now, as a mask. -/
def Dev.friendlyMask (d : Dev) : Nat :=
  if d.timeLost then 255
  else maskOf ((List.range 8).filter fun p => [0, 1].any fun w => d.windowHolds (d.rd (Reg.PREPAY_FH_WIN p w)) d.cal)

/-- R304–R306: PREPAY at an RTC second boundary. -/
def Dev.prepaySecond (d : Dev) : Dev := (d.wr Reg.PREPAY_FH_NOW d.friendlyMask).cutTests

/-! ### Keys (R295, R296, R324) -/

/-- The digit a key stands for. -/
def keyDigit (c : Nat) : Option Nat :=
  if c = 13 then some 0 else if c % 4 < 3 && c / 4 < 3 then some (3 * (c / 4) + c % 4 + 1) else none

def keyStar : Nat := 12
def keyHash : Nat := 14

/-- The number that the digits among keys `ks` spell, first most significant. -/
def keyNumber (ks : List Nat) : Nat := (ks.filterMap keyDigit).foldl (fun n x => 10 * n + x) 0

def keyCount (ks : List Nat) : Nat := (ks.filterMap keyDigit).length

/-- What a key makes of an entry. -/
inductive KeyStep where
  | scroll | more
  | final (kind : Nat) (malformed : Bool)
deriving DecidableEq, Repr

/-- R295, R325: the key `c` after the keys `ks` of an entry. -/
def keyStep (ks : List Nat) (c : Nat) : KeyStep :=
  if ks.isEmpty then (if c = keyHash then .scroll else .more)
  else if ks.getLast? = some keyStar then
    if keyDigit c != some 9 then .final 1 true else if ks = [keyStar] then .final 3 false else .more
  else if c = keyHash then
    if ks.contains keyStar then .final 1 true
    else if ks.contains keyHash then
      if keyCount (ks.dropWhile (· != keyHash)) = 6 then .final 2 false else .final 1 true
    else
      let n := keyCount ks
      if n = 20 then .final 1 false else if 1 ≤ n && n ≤ 4 then .more else .final 1 true
  else .more

/-- PREPAY takes keys. -/
def Dev.prepayOn (d : Dev) : Bool := d.domOn .lgl && d.on Fld.PREPAY_CFG_EN

/-- R319, R325: `#` with no entry in progress. -/
def Dev.keyScrolls (d : Dev) (c : Nat) : Bool := c == keyHash && (!d.prepayOn || d.f Fld.PREPAY_ENT_STAT_STATE == 0)

/-- R300: the CMAC message of a token. -/
def Dev.tokenMsg (d : Dev) (tok : Nat) : List Word :=
  wordsOf (leBytes 8 d.otp.devId ++ leBytes 6 (tok / 2 ^ 20) ++ [0x54, 0x4B])

/-- R296, R300: the entry registers. -/
def Dev.fillEntry (d : Dev) (kind : Nat) (malformed : Bool) (tok pin : Nat) : Dev :=
  match kind with
  | 1 =>
    let d := d.wrs [(Reg.PREPAY_ENT_ACCT, bits tok 56 10), (Reg.PREPAY_ENT_TOK, bits tok 40 16 + bits tok 24 16 * 2 ^ 16),
      (Reg.PREPAY_ENT_TOK2, bits tok 20 4 + bits tok 0 20 * 2 ^ 8)]
    let ws := d.tokenMsg tok
    forUpto 4 (fun w d => d.wr (Reg.PREPAY_ENT_MSG w) ((ws[w]?).getD 0).toNat) d
  | 2 => (d.wr Reg.PREPAY_ENT_ACCT (tok % 1024)).wr Reg.PREPAY_ENT_PIN pin
  | _ => if malformed then d else d.wr Reg.PREPAY_ENT_ACCT (d.f Fld.PREPAY_LOGIN_ACCT)

/-- R296: the final key of an entry. -/
def Dev.holdEntry (d : Dev) (ks : List Nat) (kind : Nat) (malformed : Bool) : Dev :=
  let x := d.fresh
  let y := x.2.fresh
  let z := y.2.fresh
  -- the manual states no fields for a token with the wrong number of digits
  let v := if malformed then (x.1.toNat + y.1.toNat * 2 ^ 32 + z.1.toNat % 4 * 2 ^ 64, z.2)
    else (if kind = 2 then keyNumber (ks.takeWhile (· != keyHash)) else keyNumber ks, d)
  let pin := ((ks.dropWhile (· != keyHash)).filterMap keyDigit).foldl (fun n x => 16 * n + x) 0
  let d := v.2.fillEntry kind malformed v.1 pin
  let e : KeyEntry := { kind := kind, malformed := malformed, number := v.1, locked := d.on Fld.PREPAY_LOCK_LOCKED }
  let d := { d with prepay.keys := [], prepay.held := some e }
  ((d.setF Fld.PREPAY_ENT_STAT_STATE 2).setF Fld.PREPAY_ENT_STAT_KIND kind).raise Ev.PREPAY_ENTRY

/-- R295: key `c` reaches PREPAY. -/
def Dev.prepayKey (d : Dev) (c : Nat) : Dev :=
  if !d.prepayOn || d.prepay.held.isSome then d
  else match keyStep d.prepay.keys c with
    | .scroll => d
    | .more =>
      let d := { d with prepay.keys := d.prepay.keys ++ [c] }
      (d.setF Fld.PREPAY_ENT_STAT_STATE 1).setF Fld.PREPAY_ENT_STAT_KIND 0
    | .final kind bad => d.holdEntry (d.prepay.keys ++ [c]) kind bad

/-- R295: an entry with no key for 30 s. -/
def Dev.entryAbandon (d : Dev) : Dev :=
  if d.prepay.keys.isEmpty then d else { d with prepay.keys := [] }.setF Fld.PREPAY_ENT_STAT_STATE 0

/-- R297: a write of VERDICT with GO; `tick`: it falls in the release tick. -/
def Dev.verdict (d : Dev) (v : Nat) (tick : Bool) : Dev :=
  match d.prepay.held with
  | some e =>
    if v = 1 || v = 2 then
      let d := { d with prepay.held := some { e with verdict := some (v == 1) } }
      if tick then d.setF Fld.PREPAY_RES_AT_LIMIT 1 else d
    else d
  | none => d

/-- R314: a KEY_LOST, or the end of an operation with TAMPER_DURING, while an entry is held. -/
def Dev.entryTamper (d : Dev) (lost during : Bool) : Dev :=
  match d.prepay.held with
  | some e => { d with prepay.held := some { e with tamper := e.tamper || lost, during := e.during || during } }
  | none => d

/-! ### Tokens (R300–R302) -/

/-- R301: the signed distance of a token's sequence from TOK_SEQ. -/
def tokenDist (c : Ctx) (s : Nat) : Int := sgn 16 (s + 65536 - c.seq)

/-- R301: USED (3) or OLD (4); none: the sequence is new. -/
def tokenFault (c : Ctx) (s : Nat) : Option Nat :=
  if !bit c.valid 0 then none
  else
    let x := tokenDist c s
    if 0 < x then none
    else if x = 0 then some 3
    else if -32 ≤ x then (if bit c.map (-x - 1).toNat then some 3 else none)
    else some 4

/-- R301: the window after an accepted token. -/
def tokenWindow (c : Ctx) (s : Nat) : Ctx :=
  let x := tokenDist c s
  if !bit c.valid 0 then { c with seq := s, valid := 1, map := 0 }
  else if 0 < x then
    { c with seq := s, map := if x ≤ 32 then (c.map * 2 ^ x.toNat + 2 ^ (x - 1).toNat) % 2 ^ 32 else 0 }
  else { c with map := c.map ||| 2 ^ (-x - 1).toNat }

/-- R302: the amount of a token. -/
def Dev.tokenAmount (d : Dev) (tok : Nat) : Nat := bits tok 24 16 * 10 ^ d.f Fld.PREPAY_CFG_AMT_UNIT

/-- R302: what a token does by its type. -/
def Dev.tokenEffect (d : Dev) (tok : Nat) (c : Ctx) : Ctx :=
  let a := d.tokenAmount tok
  match bits tok 20 4 with
  | 0 =>
    let r := min a c.owed
    { c with owed := c.owed - r, credit := c.credit + a - r, ecFlags := setBits c.ecFlags 0 1 (b2n (r < c.owed)) }
  | 1 => { c with credit := c.credit - a }
  | 2 => { c with fh := bits tok 24 4 }
  | 3 => { c with flags := setBits c.flags 1 1 1 }
  | 4 => { c with flags := setBits c.flags 1 1 0, pinFail := 0 }
  | _ => { c with flags := setBits c.flags 3 1 0 }

/-- R301, R302: the context after an accepted token. -/
def Dev.tokenApply (d : Dev) (tok : Nat) (c : Ctx) : Ctx :=
  let c := tokenWindow (d.tokenEffect tok c) (bits tok 40 16)
  { c with ecFlags := setBits c.ecFlags 1 1 0, tokCnt := c.tokCnt + 1 }

/-! ### Emergency credit (R303) -/

def Dev.ecAllowed (d : Dev) (c : Ctx) : Bool :=
  let l := d.rd Reg.PREPAY_EC_LIMIT
  l != 0 && decide (c.credit ≤ 0) && decide (0 < c.credit + l) && !c.ecSpent && c.owed == 0

def Dev.ecApply (d : Dev) (c : Ctx) : Ctx :=
  let l := d.rd Reg.PREPAY_EC_LIMIT
  { c with credit := c.credit + l, owed := l, ecFlags := c.ecFlags ||| 3, ecCnt := c.ecCnt + 1 }

/-! ### The release (R297–R299, R311) -/

/-- The account an entry acts on. -/
def Dev.entryAcct (d : Dev) (e : KeyEntry) : Nat :=
  match e.kind with
  | 1 => bits e.number 56 10
  | 2 => e.number % 1024
  | _ => d.f Fld.PREPAY_LOGIN_ACCT

/-- R299: the new CREDIT of an entry leaves its limits. -/
def Dev.overLimit (d : Dev) (e : KeyEntry) (c : Ctx) : Bool :=
  let out := fun (v : Int) => decide ((d.rd Reg.PREPAY_CREDIT_MAX : Int) < v) || decide (v < -(2 ^ 47))
  match e.kind with
  | 1 => bits e.number 20 4 ≤ 1 && out (d.tokenEffect e.number c).credit
  | 3 => out (d.ecApply c).credit
  | _ => false

/-- R299: causes that need no context. -/
def Dev.entryFault (d : Dev) (e : KeyEntry) : Option Nat :=
  if e.locked then some 12
  else if e.tamper then some 15
  else if e.malformed || (e.kind = 1 && 2 ^ 66 ≤ e.number) || (e.kind = 2 && 1023 < e.number) then some 1
  else if e.kind = 3 && !d.on Fld.PREPAY_LOGIN_VALID then some 11
  else if e.verdict.isNone then some 14
  else none

/-- R299: causes found in the context. -/
def Dev.ctxFault (d : Dev) (e : KeyEntry) (c : Ctx) : Option Nat :=
  let bad := e.verdict == some false
  let ty := bits e.number 20 4
  if !c.inUse then some 6
  else if e.kind = 1 && bad then some 2
  else if e.kind = 2 && (bad || !c.pinSet) then some 8
  else if e.kind != 1 && c.blocked then some 9
  else if e.kind = 1 && 5 < ty then some 5
  else match (if e.kind = 1 then tokenFault c (bits e.number 40 16) else none) with
    | some w => some w
    | none =>
      if d.overLimit e c then some 7
      else if e.kind = 3 && !d.ecAllowed c then some 10
      else none

/-- R311: a counted refusal. -/
def Dev.countRefusal (d : Dev) : Dev :=
  let d := d.inc Reg.PREPAY_REF_CNT
  let x := d.uptimeNow
  let now := x.1 / 32768
  let d := x.2
  let h := d.lockout.hist
  let oldest := h.headD 0
  if h.length = 4 && now ≤ oldest + 600 then
    let d := { d with lockout := { hist := [], start := now } }
    let d := (d.setF Fld.PREPAY_LOCK_LOCKED 1).setF Fld.PREPAY_LOCK_HIST 0
    if now = oldest + 600 then d.setF Fld.PREPAY_RES_AT_LIMIT 1 else d
  else
    let h := (if h.length = 4 then h.drop 1 else h) ++ [now]
    { d with lockout.hist := h }.setF Fld.PREPAY_LOCK_HIST h.length

/-- R299: an entry is refused for a cause. -/
def Dev.refuseEntry (d : Dev) (cause : Nat) : Dev :=
  let d := (d.setF Fld.PREPAY_RES_RESULT 2).setF Fld.PREPAY_RES_CAUSE cause
  if cause = 12 then d else d.countRefusal

/-- R302, R303, R309: what an accepted entry does to the context in frame `f`. -/
def Dev.acceptEntry (d : Dev) (e : KeyEntry) (f : Nat) : Dev :=
  let d := (d.setF Fld.PREPAY_RES_RESULT 1).setF Fld.PREPAY_RES_CAUSE 0
  match e.kind with
  | 1 => d.ctxSet f (d.tokenApply e.number)
  | 2 =>
    (((d.setF Fld.PREPAY_LOGIN_ACCT (e.number % 1024)).setF Fld.PREPAY_LOGIN_HOST 0)).setF Fld.PREPAY_LOGIN_VALID 1
  | _ => d.ctxSet f d.ecApply

/-- RES_CREDIT: the CREDIT after the entry; without a pinned frame the manual states none. -/
def Dev.resCredit (d : Dev) (f : Option Nat) : Dev :=
  match f with
  | some f =>
    let x := d.ctx f
    let v := unsgn 48 x.1.credit
    (x.2.wr Reg.PREPAY_RES_CREDIT_LO v).wr Reg.PREPAY_RES_CREDIT_HI (v / 2 ^ 32)
  | none =>
    let x := d.fresh
    let y := x.2.fresh
    (y.2.wr Reg.PREPAY_RES_CREDIT_LO x.1.toNat).wr Reg.PREPAY_RES_CREDIT_HI (y.1.toNat % 2 ^ 16)

/-- R297, R299: the entry is decided with its account's frame; whether it is accepted. -/
def Dev.decideEntry (d : Dev) (e : KeyEntry) (f : Option Nat) : Bool × Dev :=
  match d.entryFault e with
  | some c => (false, d.refuseEntry c)
  | none =>
    match f with
    | none => (false, d.refuseEntry 13)
    | some f =>
      let x := d.ctx f
      match x.2.ctxFault e x.1 with
      | some c =>
        let d := if c = 8 then x.2.ctxSet f fun c => { c with pinFail := c.pinFail + 1 } else x.2
        (false, d.refuseEntry c)
      | none => (true, x.2.acceptEntry e f)

/-- R297: the release tick of the entry that is held; whether it is accepted, if there is one. -/
def Dev.entryRelease (d : Dev) : Option Bool × Dev :=
  match d.prepay.held with
  | none => (none, d)
  | some e =>
    let n := d.entryAcct e
    let f := d.pinnedFrame n
    let x := { d with prepay.held := none }.decideEntry e f
    let d := (x.2.setF Fld.PREPAY_RES_ACCT n).setB Fld.PREPAY_RES_TAMPER_DURING e.during
    let d := ((d.resCredit f).setF Fld.PREPAY_ENT_STAT_STATE 0).raise Ev.PREPAY_RESULT
    (some x.1, d.cutTestsOf n)

/-! ### Login and lock (R309–R312) -/

/-- R310: a write of LOGIN_SET. -/
def Dev.loginSet (d : Dev) (n : Nat) : Dev :=
  ((d.setF Fld.PREPAY_LOGIN_ACCT n).setF Fld.PREPAY_LOGIN_HOST 1).setF Fld.PREPAY_LOGIN_VALID 1

/-- LOGIN_TMO as it acts, in seconds. -/
def Dev.loginTmo (d : Dev) : Nat := min 600 (max 10 (d.f Fld.PREPAY_LOGIN_TMO_S))

/-- LOGIN as it reads: LEFT runs by time, which no command carries: a free value up to LOGIN_TMO. -/
def Dev.loginRead (d : Dev) : Nat × Dev :=
  if d.on Fld.PREPAY_LOGIN_VALID then
    (setBits (d.rd Reg.PREPAY_LOGIN) 16 10 (d.fresh.1.toNat % (d.loginTmo + 1)), d.fresh.2)
  else (setBits (d.rd Reg.PREPAY_LOGIN) 16 10 0, d)

/-- LOCK as it reads, with the seconds of the lock that are left (R311). -/
def Dev.lockRead (d : Dev) : Nat × Dev :=
  if d.on Fld.PREPAY_LOCK_LOCKED then
    let x := d.uptimeNow
    (setBits (x.2.rd Reg.PREPAY_LOCK) 16 10 (d.lockout.start + 900 - x.1 / 32768), x.2)
  else (setBits (d.rd Reg.PREPAY_LOCK) 16 10 0, d)

/-- R311: the lock has lasted 900 s. -/
def Dev.lockEnd (d : Dev) : Dev := d.setF Fld.PREPAY_LOCK_LOCKED 0

/-- PP_STAT as it reads. -/
def Dev.ppStat (d : Dev) (k : Nat) : Nat := setBits (d.rd (Reg.PREPAY_PP_STAT k)) 0 1 (b2n (d.charged k))

/-! ### The image (R315) -/

/-- R315: the PREPAY image, 256 bytes. -/
def Dev.prepayImage (d : Dev) : List Byte :=
  (List.range 48).flatMap (fun i => leBytes 4 (d.rd (Reg.PREPAY_CFG + 4 * i)))
  ++ (List.range 4).flatMap (fun k => leBytes 8 (d.rd64 (Reg.PREPAY_ACC_LO k)))
  ++ leBytes 32 (maskOf ((List.range 4).filter fun k => d.on (Fld.PREPAY_PP_STAT_CUT k)))

/-- A word of an image into the fields the register has. -/
def Dev.wrImage (d : Dev) (a v : Nat) : Dev := d.wr a (v &&& fieldMask (fun _ => true) (fieldsOf a))

/-- R306, R315: the image loaded; a session that is no longer OPEN is not cut. -/
def Dev.prepayLoad (d : Dev) (img : List Byte) : Dev :=
  let w := fun (i : Nat) => (((wordsOf img)[i]?).getD 0).toNat
  let d := forUpto 48 (fun i d => d.wrImage (Reg.PREPAY_CFG + 4 * i) (w i)) d
  let d := forUpto 4 (fun k d =>
    ((d.wr (Reg.PREPAY_ACC_LO k) (w (48 + 2 * k))).wr (Reg.PREPAY_ACC_HI k) (w (49 + 2 * k))).setB (Fld.PREPAY_PP_STAT_CUT k)
      (bit (w 56) k && d.sessState k == sessOpen)) d
  { d with prepay := {} }.wrs [(Reg.PREPAY_ENT_STAT, 0), (Reg.PREPAY_LOGIN, 0)]

end Sys2Proof.Machine
end

