-- ==== Sys2Proof/Machine/Panel.lean ====
section
/-! DEFINITION. The legal display, the keypad and the lamps (R316–R331). -/

namespace Sys2Proof.Machine

/-! ### Glyphs (R317) -/

/-- R317: the patterns of the hexadecimal digits. -/
def hexGlyph (n : Nat) : Nat :=
  ([0x3F, 0x06, 0x5B, 0x4F, 0x66, 0x6D, 0x7D, 0x07, 0x7F, 0x6F, 0x77, 0x7C, 0x39, 0x5E, 0x79, 0x71][n % 16]?).getD 0

def glyphDash : Nat := 0x40
def glyphStar : Nat := 0x63
def glyphE : Nat := 0x79
def glyphDp : Nat := 0x80

/-- R316, R319: the numbers of the symbols the hardware lights itself. -/
def symChk : Nat := 0
def symVer : Nat := 1
def symErr : Nat := 2
def symLock : Nat := 13
def symClock : Nat := 14

/-- A pattern with its decimal point lit where `b`. -/
def withDp (p : Nat) (b : Bool) : Nat := p ||| (if b then glyphDp else 0)

/-- The eight hexadecimal digits of a word. -/
def hexFace (v : Nat) : List Nat := (List.range 8).map fun i => hexGlyph (v / 16 ^ (7 - i))

/-- R322: a numeric value with its SCALE and DEC. -/
def numFace (v : Int) (scale dec : Nat) : List Nat :=
  let q := truncDiv v (10 ^ scale : Nat)
  let m := q.natAbs
  (List.range 8).map fun i =>
    if q < 0 && i = 0 then withDp glyphDash (dec == 7)
    else if m / 10 ^ (7 - i) = 0 && i + dec < 7 then 0
    else withDp (hexGlyph (m / 10 ^ (7 - i) % 10)) (0 < dec && i + dec == 7)

/-- R322: the calendar time. -/
def clockFace (lo : Nat) : List Nat :=
  let g := fun (k : Nat) => hexGlyph (bits lo (4 * k) 4)
  [0, 0, g 5, withDp (g 4) true, g 3, withDp (g 2) true, g 1, g 0]

/-- The text of an error item by its place in the table of R319. -/
def errFace (n : Nat) : List Nat :=
  let tail : List Nat :=
    match n with
    | 0 => [0x76, 0x2A]
    | 1 => [0x30, 0x37, 0x3D]
    | 2 => [0x30, 0x71]
    | 3 => [0x71, 0x50]
    | _ => [hexGlyph ((n - 3) / 10), hexGlyph ((n - 3) % 10)]
  (([glyphE, glyphDash] ++ tail) ++ List.replicate 8 0).take 8

/-- R323: "-- nO --" and "-- OK --". -/
def refusedFace : List Nat := [glyphDash, glyphDash, 0, 0x54, 0x3F, 0, glyphDash, glyphDash]
def acceptedFace : List Nat := [glyphDash, glyphDash, 0, 0x3F, 0x75, 0, glyphDash, glyphDash]

/-! ### Items (R289, R321) -/

/-- What an item shows. -/
inductive ItemValue where
  | num (v : Int) | clock | chk | ver
deriving DecidableEq, Repr

/-- R289: the register that OBIS code A-B:C.D.E names, for B ≤ 4. -/
def Dev.obis (d : Dev) (a b c x e : Nat) : Option ItemValue :=
  let n := fun (v : Nat) => some (ItemValue.num v)
  let k := b - 1
  if 4 < b then none
  else match a, c, x, e with
    | 1, 1, 8, 0 => n (if b = 0 then d.rd64 (Reg.ENERGY_IN_TOT_LO 0) else d.outletTotal k 0)
    | 1, 2, 8, 0 => n (if b = 0 then d.rd64 (Reg.ENERGY_IN_TOT_LO 1) else d.outletTotal k 1)
    | 1, 1, 8, t => if b != 0 && realTariff t then n (d.rd64 (Reg.ENERGY_TOT_LO k t 0)) else none
    | 1, 2, 8, t => if b != 0 && realTariff t then n (d.rd64 (Reg.ENERGY_TOT_LO k t 1)) else none
    | 1, 128, 8, 0 => if b != 0 then n (d.rd64 (Reg.ENERGY_RAW_LO k)) else none
    | 1, 129, 8, 0 => if b != 0 then n (d.rd64 (Reg.ENERGY_LOSS_LO k)) else none
    | 1, 1, 7, 0 => some (.num (sgn 32 (d.rd (Reg.MET_QTY_P (if b = 0 then 3 else 4 + k)))))
    | 1, 32, 7, 0 => n (d.rd (Reg.MET_QTY_RMS (if b = 0 then 0 else 7 + 2 * k)))
    | 1, 31, 7, 0 => n (d.rd (Reg.MET_QTY_RMS (if b = 0 then 3 else 8 + 2 * k)))
    | 1, 52, 7, 0 => if b = 0 then n (d.rd (Reg.MET_QTY_RMS 1)) else none
    | 1, 72, 7, 0 => if b = 0 then n (d.rd (Reg.MET_QTY_RMS 2)) else none
    | 1, 51, 7, 0 => if b = 0 then n (d.rd (Reg.MET_QTY_RMS 4)) else none
    | 1, 71, 7, 0 => if b = 0 then n (d.rd (Reg.MET_QTY_RMS 5)) else none
    | 1, 14, 7, 0 => if b = 0 then n (d.rd Reg.MET_QTY_FREQ) else none
    | 0, 1, 0, 0 => if b = 0 then some .clock else none
    | 0, 96, 14, 0 => if b != 0 then n (bits (d.rd Reg.ENERGY_ACT_TARIFF) (4 * k) 4) else none
    | 1, 0, 2, 0 => if b = 0 then some .ver else none
    | 1, 0, 2, 8 => if b = 0 then some .chk else none
    | _, _, _, _ => none

/-- R321: what programmed item `i` shows; none where it is skipped. -/
def Dev.itemValue (d : Dev) (i : Nat) : Option ItemValue :=
  match d.obis (d.f (Fld.LCD_ITEM_OBIS_A i)) (d.f (Fld.LCD_ITEM_OBIS_B i)) (d.f (Fld.LCD_ITEM_OBIS_C i))
    (d.f (Fld.LCD_ITEM_OBIS_D i)) (d.f (Fld.LCD_ITEM_FMT_E i)) with
  | some v => some v
  | none =>
    let hi := d.rd (Reg.LCD_FW_VAL_HI i)
    if bit hi 31 then some (.num (sgn 63 (d.rd (Reg.LCD_FW_VAL_LO i) + bits hi 0 31 * 2 ^ 32))) else none

/-- R319: item `i` is enabled and resolves. -/
def Dev.itemActive (d : Dev) (i : Nat) : Bool := d.on (Fld.LCD_ITEM_FMT_EN i) && (d.itemValue i).isSome

/-- R319: the active error items as ERR_STAT has them. -/
def Dev.activeErrors (d : Dev) : Nat :=
  let res := d.f Fld.FWALL_BOOT_RES_RESULT
  let fr := d.f Fld.MULE_RESTORE_RESULT
  b2n (res == 3) + b2n (res == 1 || res == 2 || res == 4) * 2 + b2n d.ifMismatched * 4 + b2n (3 ≤ fr && fr ≤ 6) * 8
  + d.f Fld.LCD_ERR_SET_E * 2 ^ 5

/-- The ERR_STAT bit of error place `n` (0 E-HW to 18 E-15). -/
def errBit (n : Nat) : Nat := if n < 4 then n else n + 1

/-- ERR_STAT follows the active errors; a change raises ERR_CHG (R319). -/
def Dev.errRefresh (d : Dev) : Dev :=
  if d.domOn .per && d.rd Reg.LCD_ERR_STAT != d.activeErrors then (d.wr Reg.LCD_ERR_STAT d.activeErrors).raise Ev.LCD_ERR_CHG
  else d

/-- A legal image has started (R320). -/
def Dev.legalStarted (d : Dev) : Bool := d.f Fld.SYSCTL_BOOT_STAT_STAGE == 1

/-- R319, R320: the codes of the scroll sequence, in order. -/
def Dev.scrollSeq (d : Dev) : List Nat :=
  [0, 1] ++ ((List.range 19).filter fun n => bit d.activeErrors (errBit n)).map (· + 2)
  ++ (if d.legalStarted then ((List.range 32).filter d.itemActive).map (· + 32) else [])

/-! ### The display -/

/-- The digits and symbols of a value in item `i`'s format. -/
def Dev.valueFace (d : Dev) (i : Nat) (v : ItemValue) : List Nat × Nat :=
  let sym := d.f (Fld.LCD_ITEM_FMT_SYM i)
  match v with
  | .num x => (numFace x (d.f (Fld.LCD_ITEM_FMT_SCALE i)) (d.f (Fld.LCD_ITEM_FMT_DEC i)), sym)
  | .clock => (clockFace (d.rd Reg.RTC_TIME_LO), sym)
  | .chk => (hexFace (d.rd Reg.FWALL_CHK), sym ||| 2 ^ symChk)
  | .ver => (hexFace (d.rd Reg.FWALL_IMG_VER), sym ||| 2 ^ symVer)

/-- The digits and symbols of the item with code `c`; none where it does not resolve. -/
def Dev.itemFace (d : Dev) (c : Nat) : Option (List Nat × Nat) :=
  if c = 0 then some (hexFace (d.rd Reg.FWALL_CHK), 2 ^ symChk)
  else if c = 1 then some (hexFace (d.rd Reg.FWALL_IMG_VER), 2 ^ symVer)
  else if c < 32 then some (errFace (c - 2), 2 ^ symErr)
  else (d.itemValue (c - 32)).map fun v => d.valueFace (c - 32) v

/-- DISP_LO, DISP_HI and DISP_SYM. -/
def Dev.face (d : Dev) (x : List Nat × Nat) : Dev :=
  let g := fun (i : Nat) => (x.1[i]?).getD 0
  let w := fun (i : Nat) => g i + g (i + 1) * 2 ^ 8 + g (i + 2) * 2 ^ 16 + g (i + 3) * 2 ^ 24
  ((d.wr Reg.LCD_DISP_LO (w 0)).wr Reg.LCD_DISP_HI (w 4)).wr Reg.LCD_DISP_SYM x.2

/-- R318: DISP_SYM as it reads, LOCK and CLOCK as they stand. -/
def Dev.dispSym (d : Dev) : Nat :=
  d.rd Reg.LCD_DISP_SYM ||| (b2n (d.on Fld.PREPAY_LOCK_LOCKED) * 2 ^ symLock) ||| (b2n d.timeLost * 2 ^ symClock)

/-- R321: what is shown is read again. -/
def Dev.lcdRefresh (d : Dev) : Dev :=
  match d.panel.shown with
  | .item c => match d.itemFace c with
    | some x => d.face x
    | none => d
  | .result i => match d.itemFace (i + 32) with
    | some x => d.face x
    | none => d
  | .refused => d.face (refusedFace, 0)
  | .accepted => d.face (acceptedFace, 0)
  | .echo => d

def Dev.showThing (d : Dev) (s : Shown) (mode : Nat) : Dev :=
  ({ d with panel.shown := s }.setF Fld.LCD_STATUS_MODE mode).lcdRefresh

/-- The scroll shows the item with code `c`. -/
def Dev.showItem (d : Dev) (c : Nat) : Dev := (d.setF Fld.LCD_STATUS_ITEM c).showThing (.item c) 0

/-- R319: the next item of the sequence as it is now. -/
def Dev.scrollNext (d : Dev) : Dev :=
  let c := d.f Fld.LCD_STATUS_ITEM
  d.showItem ((d.scrollSeq.find? fun x => c < x).getD 0)

/-- R323: the scroll resumes at the item it left, or at the next where that no longer resolves. -/
def Dev.scrollResume (d : Dev) : Dev :=
  let c := d.f Fld.LCD_STATUS_ITEM
  if (d.itemFace c).isSome then d.showItem c else d.scrollNext

/-- R319: the dwell of an item expires. -/
def Dev.scrollStep (d : Dev) : Dev := if d.domOn .per && d.f Fld.LCD_STATUS_MODE = 0 then d.scrollNext else d

/-- R321: the second's refresh. -/
def Dev.itemRefresh (d : Dev) : Dev := if d.domOn .per then d.lcdRefresh else d

/-- R323: the last eight keys of the entry, right-aligned; the manual gives '#' no pattern. -/
def Dev.echoFace (d : Dev) : List Nat × Dev :=
  let ks := d.prepay.keys
  let login := ks.takeWhile (· != keyHash)
  let ps := ks.mapIdx fun i c =>
    if login.length < i then glyphDash
    else if c = keyHash then d.fresh.1.toNat % 256
    else if c = keyStar then glyphStar
    else hexGlyph ((keyDigit c).getD 0)
  let last := ps.drop (ps.length - 8)
  (List.replicate (8 - last.length) 0 ++ last, if ks.contains keyHash then d.fresh.2 else d)

/-- R323: the entry takes the display over, or shows its keys. -/
def Dev.showEcho (d : Dev) : Dev :=
  let x := d.echoFace
  (({ x.2 with panel.shown := .echo }.setF Fld.LCD_STATUS_MODE 1)).face (x.1, 0)

/-- R323: the display at the release of an entry. -/
def Dev.showOutcome (d : Dev) (accepted : Bool) : Dev :=
  if d.domOn .per then
    let i := d.f Fld.LCD_RES_ITEM_IDX
    if !accepted then d.showThing .refused 2
    else if d.itemActive i then d.showThing (.result i) 2
    else d.showThing .accepted 2
  else d

/-- R323: RES_DWELL expires. -/
def Dev.resultEnd (d : Dev) : Dev :=
  if d.domOn .per && d.f Fld.LCD_STATUS_MODE = 2 then d.scrollResume.raise Ev.LCD_RESULT_SHOWN else d

/-- R323: an entry is gone without a result. -/
def Dev.lcdEntryGone (d : Dev) : Dev :=
  if d.domOn .per && d.f Fld.LCD_STATUS_MODE = 1 then d.scrollResume else d

/-- R319: the display runs from the moment PER is powered. -/
def Dev.lcdStart (d : Dev) : Dev := d.showItem 0

/-- R297, R323: the release of a held entry. -/
def Dev.releaseAll (d : Dev) : Dev :=
  match d.entryRelease with
  | (some ok, d) => d.showOutcome ok
  | (none, d) => d

/-! ### The keypad (R324–R327) -/

def countBits (x : Nat) : Nat := ((List.range 16).filter fun k => bit x k).length

/-- Keys that are down and not stuck. -/
def Dev.keysDown (d : Dev) : Nat := d.f Fld.KEYPAD_KEY_STAT_DOWN - (d.f Fld.KEYPAD_KEY_STAT_DOWN &&& d.panel.stuck)

/-- R325: the FIFO. -/
def Dev.keyPush (d : Dev) (c : Nat) : Dev :=
  if d.panel.fifo.length < 8 then { d with panel.fifo := d.panel.fifo ++ [c] }.raise Ev.KEYPAD_KEY
  else (d.raise Ev.KEYPAD_KEY).raise Ev.KEYPAD_FIFO_OVR

/-- R325: an accepted key goes to the FIFO, and to PREPAY or the scroll. -/
def Dev.keyRoute (d : Dev) (c : Nat) : Dev :=
  let d := d.keyPush c
  if c % 4 = 3 then d
  else if d.keyScrolls c then d.scrollNext.raise Ev.LCD_MANUAL
  else
    let d := d.prepayKey c
    if d.prepayOn && !d.prepay.keys.isEmpty then d.showEcho
    else if d.prepayOn && d.f Fld.PREPAY_ENT_STAT_STATE == 2 then { d with panel.shown := .echo }.setF Fld.LCD_STATUS_MODE 1
    else d

/-- R324, R326: a press of key `c` is debounced; `more`: the scan finds another key pressed with it. -/
def Dev.keyPress (d : Dev) (c : Nat) (more : Bool) : Dev :=
  if !d.domOn .per || !d.on Fld.KEYPAD_CTRL_EN || bit (d.f Fld.KEYPAD_KEY_STAT_DOWN) c then d
  else
    let several := more || d.keysDown != 0
    let d := d.setF Fld.KEYPAD_KEY_STAT_DOWN (d.f Fld.KEYPAD_KEY_STAT_DOWN + 2 ^ c)
    if d.panel.multi then d
    else if several then { d with panel.multi := true }.raise Ev.KEYPAD_MULTI
    else d.keyRoute c

/-- R326: presses are accepted again once all but one key has been released. -/
def Dev.multiCheck (d : Dev) : Dev := if countBits d.keysDown ≤ 1 then { d with panel.multi := false } else d

/-- R324: a release of key `c`. -/
def Dev.keyUp (d : Dev) (c : Nat) : Dev :=
  if d.domOn .per && d.on Fld.KEYPAD_CTRL_EN && bit (d.f Fld.KEYPAD_KEY_STAT_DOWN) c then
    let d := d.setF Fld.KEYPAD_KEY_STAT_DOWN (d.f Fld.KEYPAD_KEY_STAT_DOWN - 2 ^ c)
    { d with panel.stuck := setBits d.panel.stuck c 1 0 }.multiCheck
  else d

/-- R326: key `c` has stayed pressed for 30 s. -/
def Dev.keyStuck (d : Dev) (c : Nat) : Dev :=
  if d.domOn .per && bit (d.f Fld.KEYPAD_KEY_STAT_DOWN) c && !bit d.panel.stuck c then
    ({ d with panel.stuck := d.panel.stuck + 2 ^ c }.multiCheck).raise Ev.KEYPAD_STUCK
  else d

/-- R327: a legal-side read of KEY_FIFO. -/
def Dev.fifoPop (d : Dev) : Nat × Dev :=
  match d.panel.fifo with
  | c :: t => (c, { d with panel.fifo := t })
  | [] => (256, d)

/-- KEY_STAT as the legal side reads it. -/
def Dev.keyStat (d : Dev) : Nat := d.f Fld.KEYPAD_KEY_STAT_DOWN + d.panel.fifo.length * 2 ^ 16

/-- Display and keypad lose what they hold with PER. -/
def Dev.panelReset (d : Dev) : Dev := { d with panel := {} }

/-! ### Lamps (R328–R331) -/

/-- R328: LMP_DUTY of lamp `n` takes effect at the next period start; whether one has come since the write is free. -/
def Dev.lampDuty (d : Dev) (n : Nat) : Dev :=
  let v := d.f (Fld.LAMP_LMP_DUTY_DUTY n)
  if vGet d.lamp.duty n 0 = v then d
  else if bit d.fresh.1.toNat 0 then { d.fresh.2 with lamp.duty := vSet d.lamp.duty n v } else d.fresh.2

/-- R328: LMP_DUTY of lamp `n` is written. -/
def Dev.lampDutyWrite (d : Dev) (n new : Nat) : Dev := (d.lampDuty n).wr (Reg.LAMP_LMP_DUTY n) new

/-- R330: the sink of lamp `n` is off while SHORT is latched. -/
def Dev.lampShortOff (d : Dev) (n : Nat) : Bool :=
  d.on (Fld.LAMP_LMP_CFG_SHORT_OFF n) && d.on (Fld.LAMP_LMP_STAT_LATCHED n) && d.f (Fld.LAMP_LMP_STAT_STATE n) == 3

/-- R329: the result of diagnosing lamp `n`, and whether its pulse was stretched for it. -/
def Dev.lampResult (d : Dev) (n : Nat) (m : LampMeas) (since : Nat) : Nat × Bool :=
  let duty := vGet d.lamp.duty n 0
  let judged := if !m.reached then 2 else if d.f Fld.LAMP_DIAG_CFG_SHORT_THR < m.volt then 3 else 1
  if !d.on (Fld.LAMP_LMP_CFG_EN n) || duty = 0 || d.lampShortOff n then (0, false)
  else if 48 ≤ duty then (judged, false)
  else if d.on Fld.LAMP_DIAG_CFG_DIAG_STRETCH
      && (!bit d.lamp.stretched n || 100 * max 1 (d.f Fld.LAMP_DIAG_CFG_DIAG_PERIOD) ≤ since) then (judged, true)
  else (4, false)

/-- R330: STATE shows the last result while nothing is latched. -/
def Dev.lampShow (d : Dev) (n : Nat) : Dev :=
  if d.on (Fld.LAMP_LMP_STAT_LATCHED n) then d
  else
    let was := d.f (Fld.LAMP_LMP_STAT_STATE n)
    let now := vGet d.lamp.res n 0
    (d.setF (Fld.LAMP_LMP_STAT_STATE n) now).raiseIf ((was == 2 || was == 3) && now == 1) Ev.LAMP_LAMP_OK

/-- R330: the run and the latch of lamp `n` after result `r`. -/
def Dev.lampRun (d : Dev) (n r : Nat) : Dev :=
  if r = 1 then { d with lamp.last := vSet d.lamp.last n 0 }.setF (Fld.LAMP_LMP_STAT_RUN n) 0
  else if r = 2 || r = 3 then
    let run := if vGet d.lamp.last n 0 = r then d.f (Fld.LAMP_LMP_STAT_RUN n) + 1 else 1
    let d := { d with lamp.last := vSet d.lamp.last n r }.setF (Fld.LAMP_LMP_STAT_RUN n) (min 3 run)
    if run = 3 then
      let d := if d.on (Fld.LAMP_LMP_STAT_LATCHED n) then d
        else (d.setF (Fld.LAMP_LMP_STAT_LATCHED n) 1).setF (Fld.LAMP_LMP_STAT_STATE n) r
      d.raise (if r = 2 then Ev.LAMP_OPEN else Ev.LAMP_SHORT)
    else d
  else d

/-- R329, R330: the on-pulse of a lamp in diagnosis. -/
def Dev.lampDiagnose (d : Dev) (n : Nat) (m : LampMeas) (since : Nat) : Dev :=
  if d.domOn .per && bit d.lamp.diag n then
    let d := d.lampDuty n
    let x := d.lampResult n m since
    let l := d.lamp
    let d := { d with lamp := { l with
      diag := l.diag - 2 ^ n
      stretched := if x.2 then setBits l.stretched n 1 1 else l.stretched
      res := vSet l.res n x.1 } }
    let d := ((d.incF (Fld.LAMP_LMP_STAT_DIAG_CNT n)).raiseIf (x.1 == 4) Ev.LAMP_STARVED).lampRun n x.1
    (d.lampShow n).raiseIf (d.lamp.diag == 0) Ev.LAMP_DIAG_DONE
  else d

/-- R330: a write of CLR. -/
def Dev.lampClear (d : Dev) (n : Nat) : Dev :=
  ((d.setF (Fld.LAMP_LMP_STAT_LATCHED n) 0).setF (Fld.LAMP_LMP_STAT_RUN n) 0).lampShow n

/-- R331: lamp states reset where PER is isolated; a diagnosis in progress ends. -/
def Dev.lampReset (d : Dev) : Dev := forUpto 6 (fun n d => d.wr (Reg.LAMP_LMP_STAT n) 0) { d with lamp := {} }

end Sys2Proof.Machine
end

