-- ==== Sys2Proof/Machine/Gander.lean ====
section
/-! DEFINITION. GANDER: occurrences, classes, records, temperature and mesh (R332–R344). -/

namespace Sys2Proof.Machine

/-- Sources that are active only for the instant of their occurrence: LGL_UNSEAL at a release of SYS, AON_RST (R332,
R340). -/
def momentary (s : Nat) : Bool := s == 7 || s == 12

def Dev.srcActive (d : Dev) (s : Nat) : Bool := bit (d.f Fld.GANDER_STATUS_ACTIVE) s

def Dev.setActive (d : Dev) (s : Nat) (b : Bool) : Dev :=
  (d.setF Fld.GANDER_STATUS_ACTIVE (setBits (d.f Fld.GANDER_STATUS_ACTIVE) s 1 (b2n b))).setB (Fld.GANDER_REC_CNT_ACTIVE s) b

/-- R332: whether a source is monitored now; LGL_UNSEAL is at a release of SYS, where it is recorded (R341). -/
def Dev.monitored (d : Dev) (s : Nat) : Bool :=
  if s = 8 || s = 9 then !d.on Fld.PWR_SUPPLY_VBAT_ACTIVE else if s = 10 then d.pwr.hfxo else !momentary s

/-- R335: whether a source records and acts. -/
def Dev.srcEnabled (d : Dev) (s : Nat) : Bool := momentary s || d.on (Fld.GANDER_SRC_CFG_EN s)

/-- R334: the class of a source: 0 LOG, 1 ALERT, 2 ERASE. -/
def Dev.srcClass (d : Dev) (s : Nat) : Nat := if s = 12 then 2 else min 2 (d.f (Fld.GANDER_SRC_CFG_CLASS s))

/-- R336: the record of an occurrence of source `s`. -/
def Dev.tamperRecord (d : Dev) (s : Nat) : Dev :=
  let n := d.f (Fld.GANDER_REC_CNT_CNT s)
  let lo := d.stampLo
  let hi := d.stampHi
  let d := if n = 0 then d.wrs [(Reg.GANDER_FIRST_LO s, lo), (Reg.GANDER_FIRST_HI s, hi)] else d
  let d := d.wrs [(Reg.GANDER_LAST_LO s, lo), (Reg.GANDER_LAST_HI s, hi)]
  ((d.incF (Fld.GANDER_REC_CNT_CNT s)).raiseIf (n == 0xFFFE) Ev.GANDER_SAT).inc Reg.GANDER_TOTAL

/-- R343: what an ERASE occurrence destroys. -/
def Dev.destroyKwk (d : Dev) : Dev :=
  let d := if d.domOn .lgl then d.keyErase.entryTamper true false
    else { d with kwk := 0 }.setF Fld.CRYPTO_STAT_KWK_OK 0
  (d.setF Fld.GANDER_STATUS_KWK_GONE 1).raise Ev.GANDER_KWK_DESTROYED

/-- R334, R336, R338: the occurrences of the enabled sources `ss`, in ascending order, in one LFXO period. -/
def Dev.tamper (d : Dev) (ss : List Nat) : Dev :=
  let d := ss.foldl (fun d s =>
    let d := d.tamperRecord s
    let d := d.raiseIf (d.srcClass s != 0) (Ev.GANDER_SRC s)
    if d.srcClass s = 2 then d.setF Fld.GANDER_STATUS_LAST_ERASE s else d) d
  let d := if ss.any (fun s => d.srcClass s < 2) then d.tamperDuring else d
  let act := ss.any fun s => d.srcClass s != 0
  let d := if ss.any (fun s => d.srcClass s == 2) then d.destroyKwk else d
  if act then d.wakeRequest [3] else d

/-- R332: what source `s` measures is as the active state (`occur`), or the end of it, asks: the ball's level, DWELL
readings, three checks of the mesh; the voltages, the HFXO and the LGL_UNSEAL ball are as the command finds them. -/
def Dev.detected (d : Dev) (s : Nat) (occur : Bool) : Bool :=
  if s < 7 then (b2n (d.gander.balls.getLsbD s) == d.f (Fld.GANDER_SRC_CFG_POL s)) == occur
  else if s = 11 then max 1 (d.f Fld.GANDER_TEMP_CFG_DWELL) ≤ (if occur then d.gander.hot else d.gander.cool)
  else if s = 13 then (if occur then d.gander.differ else d.gander.same) == 3
  else true

/-- R332: the levels `high` of the balls among the sources `srcs` have been stable for DEB ms. -/
def Dev.ballsStable (d : Dev) (srcs : List Nat) (high : BitVec 7) : Dev :=
  { d with gander.balls := BitVec.ofNat 7 (srcs.foldl (fun v s => if s < 7 then setBits v s 1 (b2n (high.getLsbD s)) else v)
      d.gander.balls.toNat) }

/-- R332: the sources of `srcs` that are detected enter their active states; one that is active already, or not monitored,
does not. -/
def Dev.ganderOccur (d : Dev) (srcs : List Nat) : Dev :=
  let new := srcs.filter fun s => d.monitored s && !d.srcActive s && d.detected s true
  let d := new.foldl (fun d s => if momentary s then d else d.setActive s true) d
  d.tamper (new.filter d.srcEnabled)

/-- R332: a source leaves its active state. -/
def Dev.sourceRelease (d : Dev) (s : Nat) : Dev :=
  if d.srcActive s && d.detected s false then d.setActive s false else d

/-- R333: a reading of the AON temperature sensor. -/
def Dev.dieTemp (d : Dev) (t : Int) : Dev :=
  let d := d.wr Reg.GANDER_TEMP_NOW (unsgn 16 t)
  let lo := sgn 16 (d.f Fld.GANDER_TEMP_THR_TLO)
  let hi := sgn 16 (d.f Fld.GANDER_TEMP_THR_THI)
  let hyst : Int := max 5 (d.f Fld.GANDER_TEMP_CFG_HYST)
  let g := d.gander
  if hi ≤ t || t ≤ lo then
    let d := { d with gander := { g with hot := min 15 (g.hot + 1), cool := 0 } }
    d.ganderOccur [11]
  else if lo + hyst < t && t < hi - hyst then
    let d := { d with gander := { g with hot := 0, cool := min 15 (g.cool + 1) } }
    d.sourceRelease 11
  else { d with gander := { g with hot := 0, cool := 0 } }

/-- R332: a check of the mesh. -/
def Dev.meshCheck (d : Dev) (matched : Bool) : Dev :=
  let g := d.gander
  if matched then
    let d := { d with gander := { g with differ := 0, same := min 3 (g.same + 1) } }
    d.sourceRelease 13
  else
    let d := { d with gander := { g with differ := min 3 (g.differ + 1), same := 0 } }
    d.ganderOccur [13]

/-- R339: a write of CLR.GO. -/
def Dev.ganderClear (d : Dev) : Dev :=
  if d.lifecycle == .blank || d.lifecycle == .provisioned then
    forUpto 14 (fun s d =>
      if s = 12 then d
      else (d.setF (Fld.GANDER_REC_CNT_CNT s) 0).wrs [(Reg.GANDER_FIRST_LO s, 0), (Reg.GANDER_FIRST_HI s, 0),
        (Reg.GANDER_LAST_LO s, 0), (Reg.GANDER_LAST_HI s, 0)]) (d.wr Reg.GANDER_TOTAL 0)
  else d

/-- R340: the boot ROM burns the next bit of the AON reset thermometer. -/
def Dev.aonRstBurn (d : Dev) : Dev :=
  let was := d.otp.aonResets
  let n := min 64 (was + 1)
  let d := { d with otp.aonResets := n }.setF (Fld.GANDER_REC_CNT_CNT 12) n
  let d := d.wrs [(Reg.GANDER_LAST_LO 12, d.stampLo), (Reg.GANDER_LAST_HI 12, d.stampHi)]
  (d.raiseIf (was == 63) Ev.GANDER_SAT).inc Reg.GANDER_TOTAL

end Sys2Proof.Machine
end

