-- ==== Sys2Proof/Machine/MuleStore.lean ====
section
/-! DEFINITION. MULE's store: the images, the ends of save epochs, the restore, the format (R215–R229). -/

namespace Sys2Proof.Machine

/-! ### The images (R172, R216) -/

/-- The low words of the 64-bit registers in the ENERGY image, in the model's order. -/
def energyLows : List Nat :=
  ((List.range 4).flatMap fun k => (List.range 8).flatMap fun t => [Reg.ENERGY_TOT_LO k (t + 1) 0, Reg.ENERGY_TOT_LO k (t + 1) 1])
  ++ [Reg.ENERGY_IN_TOT_LO 0, Reg.ENERGY_IN_TOT_LO 1]
  ++ (List.range 4).flatMap fun k => [Reg.ENERGY_RAW_LO k, Reg.ENERGY_LOSS_LO k]

/-- The remainders of the ENERGY image, in the model's order. -/
def Remainders.list (r : Remainders) : List Nat :=
  r.out.toList.flatMap (fun p => [p.1, p.2]) ++ r.raw.toList ++ r.loss.toList ++ [r.inp.1, r.inp.2]

def Remainders.ofList (l : List Nat) : Remainders :=
  let g := fun (i : Nat) => (l[i]?).getD 0 % energyDen
  { out := #v[(g 0, g 1), (g 2, g 3), (g 4, g 5), (g 6, g 7)], raw := #v[g 8, g 9, g 10, g 11]
    loss := #v[g 12, g 13, g 14, g 15], inp := (g 16, g 17) }

/-- `bs` filled with zeros to `n` bytes. -/
def padTo (n : Nat) (bs : List Byte) : List Byte := (bs ++ List.replicate (n - bs.length) 0).take n

/-- The ENERGY image, 1,024 bytes. -/
def Dev.energyImage (d : Dev) : List Byte :=
  padTo 1024 (energyLows.flatMap (fun a => leBytes 8 (d.rd64 a)) ++ d.rem.list.flatMap (leBytes 16))

def Dev.energyLoad (d : Dev) (img : List Byte) : Dev :=
  let n := energyLows.length
  let d := energyLows.zipIdx.foldl (fun d p => d.wr64 p.1 (leNat ((img.drop (8 * p.2)).take 8))) d
  { d with rem := Remainders.ofList ((List.range 18).map fun i => leNat ((img.drop (8 * n + 16 * i)).take 16)) }

/-- The FLOW image, 64 bytes: volumes and residues (R118). -/
def Dev.flowImage (d : Dev) : List Byte :=
  (List.range 4).flatMap (fun n => leBytes 8 (d.rd64 (Reg.FLOW_VOL_LO n))) ++ d.flow.volRes.toList.flatMap (leBytes 8)

def Dev.flowLoad (d : Dev) (img : List Byte) : Dev :=
  let d := forUpto 4 (fun n d => d.wr64 (Reg.FLOW_VOL_LO n) (leNat ((img.drop (8 * n)).take 8))) d
  let g := fun (n : Nat) => leNat ((img.drop (32 + 8 * n)).take 8)
  { d with flow.volRes := #v[g 0, g 1, g 2, g 3] }

/-- R216: the post image, slot bytes 0x200–0xFFF. -/
def Dev.postImage (d : Dev) : List Byte × Dev :=
  match d.muleRead 18 3840 256 with
  | (ws, d') =>
    (padTo 0x600 (d.energyImage ++ d.flowImage) ++ padTo 0x200 d.billImage ++ padTo 0x200 d.prepayImage
      ++ bytesOf (ws.map (BitVec.ofNat 32)), d')

/-! ### Slot headers (R216) -/

def slotMagic : List Byte := [0x4D, 0x4C, 0x45, 0x31]
def headMagic : List Byte := [0x4D, 0x4C, 0x48, 0x44]

/-- R216: slot bytes 0x000–0x03F. -/
def slotHeader (e state cause cyc cycHi nctx : Nat) (time : List Byte) (imgCrc : Nat) : List Byte :=
  let b := slotMagic ++ leBytes 4 e ++ leBytes 1 state ++ leBytes 1 1 ++ leBytes 2 cause ++ leBytes 4 cyc
    ++ leBytes 2 cycHi ++ leBytes 2 nctx ++ padTo 8 time ++ leBytes 4 imgCrc
  let b := padTo 60 b
  b ++ leBytes 4 (crc32 b)

/-- R216: the slot at `a` is committed; its epoch. -/
def Dev.committed (d : Dev) (a : Nat) : Option Nat :=
  let h := d.framRd a 64
  let ok := h.take 4 == slotMagic && leNat ((h.drop 8).take 2) == 0x102 && leNat (h.drop 60) == crc32 (h.take 60)
    && leNat ((h.drop 28).take 4) == crc32 (d.framRd (a + 0x200) 0xE00)
  if ok then some (leNat ((h.drop 4).take 4)) else none

/-- R220, R225: the OPEN header of epoch `e` with maps WRITTEN and FORCED. -/
def Dev.openSlot (d : Dev) (e : Nat) (forced : List Byte) : Dev :=
  let d := d.framWr (slotBase e) (slotHeader e 1 0 0 0 0 [] 0)
  (d.framWr (slotBase e + 0x100) forced).framWr (slotBase e + 0x180) forced

/-- What MULE reports of the snapshot of LAST_COMMIT (R228). -/
def Dev.lastCommit (d : Dev) (e cyc : Nat) (time : List Byte) : Dev :=
  d.wrs [(Reg.MULE_LAST_COMMIT, e), (Reg.MULE_EPOCH_OPEN, e + 1), (Reg.MULE_LAST_CYC, cyc),
    (Reg.MULE_LAST_RTC_LO, leNat (time.take 4)), (Reg.MULE_LAST_RTC_HI, leNat (time.drop 4))]

/-! ### Epochs (R220–R223) -/

/-- R220 phase 1: a frame's snapshot into the staging bank. -/
def Dev.stageFrame (d : Dev) (f : Nat) : Dev :=
  match d.muleRead 19 (f * 64) 64 with
  | (ws, d) => (d.muleWrite d.stageBank (f * 64) ws).setF (Fld.MULE_FRAME_DIRTY f) 0

/-- R220 phase 1: the snapshot is complete. -/
def Dev.snapshot (d : Dev) (e : Epoch) : Dev :=
  let fs := d.epochFrames e.full
  let dirty := fs.filter fun f => d.on (Fld.MULE_FRAME_DIRTY f)
  let staged := fs.map fun f => (f, d.f (Fld.MULE_FRAME_ACCT f))
  let d := fs.foldl (fun d f => d.stageFrame f) d
  match d.postImage with
  | (img, d) =>
    let d := d.muleWrite d.stageBank 4096 ((wordsOf img).map (·.toNat))
    let maps := d.framRd (slotBase (d.rd Reg.MULE_EPOCH_OPEN) + 0x100) 256
    let d := d.muleWrite d.stageBank 4992 ((wordsOf maps).map (·.toNat))
    let e := { e with
      phase := .saving, staged := staged, dirty := dirty, cyc := d.mae.cyc.toNat, cycHi := d.cycHi, time := d.timeNow }
    { d.wr Reg.MULE_SINCE 0 with mule.epoch := some e }

/-- R229: the quiesce epoch that was held back starts. -/
def Dev.startOwed (d : Dev) : Dev :=
  if d.mule.owed then { d with mule.owed := false }.epochStart 3 false false else d

/-- R210, R220: the snapshot ends; held accesses proceed, an LC stall with it after `stall` × 0.1 µs. -/
def Dev.snapshotDone (d : Dev) (stall : Nat) : Dev :=
  match d.mule.epoch with
  | some e =>
    if e.phase == .snapshot then
      let d := match d.snapAsk e with
        | (true, d) => d.snapshot e
        | (false, d) => (d.epochDrop 15).startOwed
      let d := if d.stallOver then d.maxTime Reg.MULE_STALL_MAX stall else d
      d.muleGo
    else d
  | none => d

/-- R225: a forced context is rewritten from its trusted copy; the cause where it cannot be. -/
def Dev.rewriteForced (d : Dev) (n : Nat) : Option Nat × Dev :=
  match d.chooseCopy n with
  | none => (some causeNoCopy, d)
  | some c =>
    let bs := d.framRd (copyAddr c n) 256
    let d := d.fresh.2
    if contextGood bs n then (none, d.writeCopy n c bs) else (some causeCorrupt, d.raise Ev.MULE_CORRUPT)

/-- R220 phase 2: the forced set; stops at the first context that fails. -/
def Dev.saveForced : List Nat → Dev → Option Nat × Dev
  | [], d => (none, d)
  | n :: ns, d =>
    match d.rewriteForced n with
    | (none, d) => Dev.saveForced ns d
    | (some c, d) => (some c, d.pageErr n c 3)

/-- R220 phase 3: the parked contexts are written out in the epoch just opened. -/
def Dev.saveParked (d : Dev) : Dev :=
  let ps := d.mule.parked
  let d := { d with mule.parked := [] }
  ps.foldl (fun d p =>
    match d.stageBytes (5120 + 64 * p.place) 64 with
    | (bs, d) => d.writeCopy p.acct p.slot bs) d

/-- R220 phase 3: the commit of epoch `e`. -/
def Dev.commit (d : Dev) (e : Epoch) : Dev :=
  match d.stageBytes 4096 896 with
  | (img, d) =>
    let opn := d.rd Reg.MULE_EPOCH_OPEN
    let nctx := (mapAccts (d.framRd (slotBase opn + 0x100) 128)).length
    let d := d.framWr (slotBase opn + 0x200) img
    let d := d.framWr (slotBase opn) (slotHeader opn 2 e.cause e.cyc e.cycHi nctx e.time (crc32 img))
    let d := ((d.lastCommit opn e.cyc e.time).openSlot (opn + 1) (List.replicate 128 0)).saveParked
    let d := { (d.inc Reg.MULE_EPOCH_CNT) with mule.epoch := none, mule.fresh := false }
    let d := if e.byCmd then d.wr Reg.MULE_CMD_STAT 0 else d
    d.raise Ev.MULE_EPOCH_DONE

/-- R220, R222, R223: the save phase and the commit end. -/
def Dev.epochEnd (d : Dev) (framOk : Bool) : Dev :=
  match d.mule.epoch with
  | some e =>
    if e.phase == .saving then
      let d := if framOk then d.stagedOut else d.epochDrop causeFram
      let d :=
        if d.mule.epoch.isNone then d
        else match Dev.saveForced d.forcedSet d with
          | (some c, d) => d.epochDrop c
          | (none, d) => d.commit e
      (d.unitComplete 4).startOwed.muleGo
    else d
  | none => d

/-! ### The restore (R225, R226) -/

/-- RESTORE_FAIL with a result. -/
def Dev.restoreFail (d : Dev) (result : Nat) : Dev :=
  { (d.setF Fld.MULE_RESTORE_RESULT result).raise Ev.MULE_RESTORE_FAIL with mule.store := .failed, mule.owed := false }

/-- R215: the device header is present and good. -/
def Dev.headerGood (d : Dev) : Bool :=
  let h := d.framRd 0 256
  h.take 4 == headMagic && leNat ((h.drop 4).take 1) == 1 && leNat (h.drop 252) == crc32 (h.take 252)

/-- R225: the image of the slot at `a` into the post registers. -/
def Dev.loadImages (d : Dev) (a : Nat) : Dev :=
  let d := (d.energyLoad (d.framRd (a + 0x200) 1024)).flowLoad (d.framRd (a + 0x600) 64)
  let h := d.framRd a 64
  let d := d.lastCommit (leNat ((h.drop 4).take 4)) (leNat ((h.drop 12).take 4)) ((h.drop 20).take 8)
  let d := d.billRestore (d.framRd (a + 0x800) 512) (leNat ((h.drop 16).take 2))
  let d := (d.prepayLoad (d.framRd (a + 0xA00) 256)).lcdEntryGone
  d.muleWrite 18 3840 ((wordsOf (d.framRd (a + 0xC00) 1024)).map (·.toNat))

/-- R225 steps 2 to 5, from the slot at `a` with epoch `e`; the other slot is at `b`. -/
def Dev.restoreFrom (d : Dev) (a e b : Nat) : Dev :=
  let forced := if (d.committed b).isSome then List.replicate 128 0 else d.framRd (b + 0x100) 128
  let n := (mapAccts forced).length
  let d := (d.loadImages a).openSlot (e + 1) forced
  let d := (d.setF Fld.MULE_RESTORE_RESULT (if n = 0 then 1 else 2)).setF Fld.MULE_RESTORE_FORCED_CNT n
  let d := { d with mule.store := .ready, mule.fresh := true }
  (d.raiseIf (n != 0) Ev.MULE_FORCED).raise Ev.MULE_RESTORED

/-- R225: the restore in progress ends. -/
def Dev.restoreEnd (d : Dev) (framOk : Bool) : Dev :=
  if d.mule.store == .restoring then
    let ok := framOk && !d.mule.framBad
    let d := { d with mule.framBad := false }
    let d :=
      if !ok then d.restoreFail 6
      else if !d.headerGood then d.restoreFail 5
      else if leNat (d.framRd 8 8) != d.otp.devId % 2 ^ 64 then d.restoreFail 4
      else match d.committed 0x1000, d.committed 0x2000 with
        | none, none => d.restoreFail 3
        | some x, none => d.restoreFrom 0x1000 x 0x2000
        | none, some y => d.restoreFrom 0x2000 y 0x1000
        | some x, some y => if y < x then d.restoreFrom 0x1000 x 0x2000 else d.restoreFrom 0x2000 y 0x1000
    d.startOwed
  else d

/-! ### The format (R227) -/

/-- Byte `i` of the blank context of account `n`. -/
def blankByte (n i : Nat) : Byte :=
  let body := leBytes 2 n ++ [1] ++ List.replicate 249 0
  if i < 252 then (body[i]?).getD 0 else ((leBytes 4 (crc32 body))[i - 252]?).getD 0

/-- The bytes of both copies of every blank context. -/
def blankCopies : SMap Byte :=
  (List.range 0x80000).filterMap fun i =>
    let b := blankByte (i / 256 % 1024) (i % 256)
    if b = 0 then none else some (0x10000 + i, b)

/-- R227: the format in progress ends. -/
def Dev.formatEnd (d : Dev) (framOk : Bool) : Dev :=
  if d.mule.store == .formatting then
    if !framOk || d.mule.framBad then
      let d := { d with mule.store := .failed, mule.framBad := false, mule.owed := false }
      d.wr Reg.MULE_CMD_STAT (causeFram * 2)
    else
      let cnt := if d.headerGood then leNat (d.framRd 0x10 4) + 1 else 1
      let h := padTo 252 (headMagic ++ leBytes 4 1 ++ leBytes 8 d.otp.devId ++ leBytes 4 cnt)
      let m := d.mem.fram
      let m := m.filter (fun p => p.1 < 0x10000) ++ blankCopies ++ m.filter (fun p => 0x90000 ≤ p.1)
      let d := { d with mem.fram := SMap.clear m 0x1000 0x3000 }
      let d := d.framWr 0 (h ++ leBytes 4 (crc32 h))
      let d := d.framWr 0x1000 (slotHeader 0 2 0 d.mae.cyc.toNat d.cycHi 0 d.timeNow (crc32 (List.replicate 0xE00 0)))
      let d := (d.lastCommit 0 d.mae.cyc.toNat d.timeNow).openSlot 1 (List.replicate 128 0)
      let d := { d.wr Reg.MULE_CMD_STAT 0 with mule.store := .ready }
      (d.raise Ev.MULE_FORMAT_DONE).startOwed
  else d

end Sys2Proof.Machine
end

