-- ==== Sys2Proof/Machine/Cycle.lean ====
section
/-! DEFINITION. The passing of mains time and of calendar seconds across the blocks: sample ticks, angle 0x0000,
publications, RTC boundaries (R32, R34, R43, R160, R253). -/

namespace Sys2Proof.Machine

/-! ### Angle 0x0000 -/

/-- R32: what is due at angle 0x0000, in every block; `dieT`: the die temperature as it is measured there (R153). -/
def Dev.onZero (dieT : Int) (d : Dev) : Dev :=
  let d := ((d.energyZero.maeZero).calZero dieT).flowZero
  if d.domOn .sys then d.inc Reg.MULE_SINCE else d

/-! ### Sample ticks (R34) -/

/-- HERD's evaluations of the last splices and of the last tick, where they have not been held yet: they follow before
any other tick does (R69, R79). -/
def Dev.evalHeld (d : Dev) : Dev :=
  let d := if d.mae.splices.isEmpty then d else d.spliceEvals
  if d.herd.evalDue then d.herdEval else d

/-- Sample tick `k` is emitted, in this modulator clock. -/
def Dev.emitTick (d : Dev) (k : Nat) : Dev :=
  let d := ((d.evalHeld).feTick k d.mae.modClk).flowTick
  let d := { d with mae.nextTick := k + 1 }
  { d with herd.evalDue := d.herdRuns }

/-! ### Clocks

Before a clock passes, what was raised in the clocks before it is settled, so that it is captured at its own mains time
(R56); a reference whose time has run out is lost in its clock (R42). -/

/-- `n` modulator clocks pass, with nothing due in them. -/
def Dev.clocks (d : Dev) (n : Nat) : Dev := (if n = 0 then d else d.settleNow).maeRun n

/-- The reference to be lost within `n` clocks, with the clocks until then. -/
def Dev.lossWithin (d : Dev) (spare : Option (Fin 3)) (n : Nat) : Option (Nat × Fin 3) :=
  (d.nextLoss spare).filter (·.1 ≤ n)

/-- What the accumulator still has to add until the next tick of the cycle, or until the carry after the last one. -/
def Dev.toBoundary (d : Dev) : Nat := (if d.mae.nextTick < 256 then d.mae.nextTick * 2 ^ 32 else 2 ^ 40) - d.mae.acc

/-- Clocks pass until the next tick of the cycle, or the carry after the last one, is reached (fuel: each reference is lost
once). -/
def Dev.toNext : Nat → Dev → Dev
  | 0, d => d.clocks (d.clksFor d.toBoundary)
  | fuel + 1, d =>
    match d.lossWithin none (d.clksFor d.toBoundary) with
    | some (k, n) => Dev.toNext fuel ((d.clocks k).refLost n)
    | none => d.clocks (d.clksFor d.toBoundary)

/-- `n` modulator clocks pass, with the losses, the ticks and the carries they bring; a tick in the last of them is left to
its own command (fuel: two steps a clock, and the losses, are enough). -/
def Dev.advance (spare : Option (Fin 3)) (dieT : Int) : Nat → Nat → Dev → Dev
  | 0, _, d => d
  | fuel + 1, n, d =>
    let k := d.clksFor d.toBoundary
    match d.lossWithin spare (min n k) with
    | some (j, r) => Dev.advance spare dieT fuel (n - j) ((d.clocks j).refLost r)
    | none =>
      if d.mae.nextTick < 256 then
        if n ≤ k then d.clocks n
        else Dev.advance spare dieT fuel (n - k) ((d.clocks k).emitTick d.mae.nextTick)
      else if n < k then d.clocks n
      else Dev.advance spare dieT fuel (n - k) ((d.clocks k).evalHeld.maeCarry (Dev.onZero dieT))

/-- `n` modulator clocks pass, where the MAE runs; reference `spare` is not lost in them. -/
def Dev.passBut (d : Dev) (spare : Option (Fin 3)) (n : Nat) (dieT : Int) : Dev :=
  if d.mae.running then Dev.advance spare dieT (2 * n + 8) n d else d

/-- The time before a command passes. -/
def Dev.pass (d : Dev) (t : Elapse) : Dev := d.passBut none t.clks t.dieT

/-- The ticks of the present cycle up to but not including `k` are emitted, each in its clock. -/
def Dev.ticksTo (k : Nat) : Nat → Dev → Dev
  | 0, d => d
  | fuel + 1, d => if d.mae.nextTick < k then Dev.ticksTo k fuel ((d.toNext 4).emitTick d.mae.nextTick) else d

/-- R34: the angle reaches k × 256, unless a splice has jumped over it. -/
def Dev.sampleTick (d : Dev) (k : Nat) : Dev :=
  if d.mae.running && decide (d.mae.nextTick ≤ k) then Dev.ticksTo (k + 1) 257 d else d

/-- R32: the angle reaches its carry. -/
def Dev.cycleStart (d : Dev) (dieT : Int) : Dev :=
  if d.mae.running then ((Dev.ticksTo 256 257 d).toNext 4).evalHeld.maeCarry (Dev.onZero dieT) else d

/-- R43: the cycle start at which COAST_LEFT reaches 0. -/
def Dev.coastExpired (d : Dev) (dieT : Int) : Dev :=
  if d.maeState == maeCoast && decide (d.f Fld.MAE_STATUS_COAST_LEFT ≤ 1) then d.cycleStart dieT else d

/-- R42: the references whose time has run out by now are lost (fuel: each once). -/
def Dev.lossesNow : Nat → Dev → Dev
  | 0, d => d
  | fuel + 1, d =>
    match d.lossWithin none 0 with
    | some (_, n) => Dev.lossesNow fuel (d.refLost n)
    | none => d

/-- R37: a crossing of reference `n`, reported at the end of `t` and `late` clocks old.  One in the clock in which its time
runs out still counts as an arrival (R42), so the reference is spared from that clock on. -/
def Dev.zeroCrossing (d : Dev) (n : Fin 3) (t : Elapse) (late : Nat) : Dev :=
  if d.mae.running then
    let last := min t.clks (late + 1)
    let d := (d.passBut none (t.clks - last) t.dieT).passBut (some n) last t.dieT
    Dev.lossesNow 3 (d.evalHeld.crossing (Dev.onZero t.dieT) n late)
  else d

/-- R42: after `t` the time for a crossing of reference `n` has run out, or the cycle ends in which its RMS is too low: the
reference is lost, where that is so. -/
def Dev.lossOf (d : Dev) (n : Fin 3) (t : Elapse) (why : LossCause) : Dev :=
  if d.mae.running then
    match why with
    | .span =>
      let d := d.passBut (some n) t.clks t.dieT
      if (d.lossDist n.val).any (d.clksFor · == 0) then d.refLost n else d
    | .rms => (d.pass t).cycleStart t.dieT
  else d

/-- R55: a read of NOW. -/
def Dev.nowRead (d : Dev) (r : Requester) : Nat × Dev :=
  let i := r.capture
  (d.mae.angle + d.mae.cyc.toNat % 65536 * 65536,
    { d with caps := d.caps.set i { d.caps[i] with nowCyc := d.mae.cyc } })

/-! ### Sample words and publications -/

/-- R160: the oldest closed cycle is published; an isolated MET publishes nothing. -/
def Dev.cyclePublish (d : Dev) : Dev :=
  match d.domOn .met, d.qty.closed with
  | true, c :: cs =>
    let d := ({ d with qty.closed := cs } : Dev).publishQty c
    match d.publishEnergy c with
    | (gains, d) => d.publishGains gains
  | _, _ => d

/-- Every closed cycle is published. -/
def Dev.publishAll (d : Dev) : Dev := forUpto d.qty.closed.length (fun _ d => d.cyclePublish) d

/-- R146, R159: the words of the oldest tick whose words are still to come; a publication that is due comes before
them. -/
def Dev.sampleWords (d : Dev) (s : List AdcIn) (ovl : Nat) : Dev :=
  let d := d.publishAll
  match d.domOn .met, d.fe.ticks with
  | true, t :: ts => (({ d with fe.ticks := ts } : Dev).feEmit t s ovl).qtyRow t
  | _, _ => d

/-! ### Seconds (R253) -/

/-- A second boundary of the RTC, and what the legal island does at it. -/
def Dev.second (d : Dev) (t : Int) (vbat : Nat) : Dev :=
  let d := d.rtcSecond t vbat
  if d.domOn .lgl then
    let d := if d.edges.contains Ev.RTC_STEP then d.billStep d.mae.cyc.toNat d.cycHi else d
    d.tariffSecond.prepaySecond
  else d

end Sys2Proof.Machine
end

