-- ==== Sys2Proof/Machine/Boot.lean ====
section
/-! DEFINITION. The boot ROM and its services: OTP load, image checks, seal block, hand-over, APP_BOOT, SEAL_STORE, the host
loader; programming of AFL and of the fuses (R197, R236–R238, R409–R427). -/

namespace Sys2Proof.Machine

/-! ### Little-endian fields of a header -/

/-- The field of `n` bytes at offset `o` of a byte list. -/
def fieldLe (bs : List Byte) (o n : Nat) : Nat := leNat ((bs.drop o).take n)

def Dev.aflRd (d : Dev) (a n : Nat) : List Byte := d.mem.afl.getMany flashDflt a n

def natsOf (bs : List Byte) : List Nat := bs.map (·.toNat)

/-- A byte string as the number whose low byte is its first byte (R241). -/
def strNat (s : List Nat) : Nat := leNat (s.map (BitVec.ofNat 8))

/-! ### RWU fields (R358, R413) -/

/-- The offsets of the registers of page `p` that hold a field of a type that satisfies `q`, in order. -/
def typedOffsets (p : Page) (q : FieldRow → Bool) : List Nat :=
  if (pageRows p).any fun r => r.fields.any q then
    ((List.range 1008).map fun i => 0x40 + 4 * i).filter fun off => (fieldsAt p off).any q
  else []

/-- Every register that holds an RWU field, by page and then by offset. -/
def rwuRegs : List Nat := Page.all.flatMap fun p => (typedOffsets p fun f => f.ty == .rwu).map (pageBase p + ·)

/-- The RWU bits of the register at `a` take their places in `v`. -/
def Dev.setRwu (d : Dev) (a v : Nat) : Dev :=
  let m := rwuMask a
  d.wr a (d.rd a - (d.rd a &&& m) + (v &&& m))

/-- R425, R426: every RWU field takes its reset value. -/
def Dev.rwuReset (d : Dev) : Dev := rwuRegs.foldl (fun d a => d.setRwu a (regReset a).toNat) d

/-! ### The seal block (R412–R414) -/

def sealAt : Nat := 0x3F000

/-- The longest legal image beside a seal block. -/
def sealMaxLen : Nat := 0x3F000

/-- R412: the entries for the registers `rs`, with the values that `f` gives them. -/
def sealEntries (rs : List Nat) (f : Nat → Nat) : List Byte :=
  rs.flatMap fun a =>
    [BitVec.ofNat 8 ((a - 0x40000000) / 0x1000), 0] ++ leBytes 2 (a % 0x1000) ++ leBytes 4 (f a)

/-- R412: bytes 0x000–0x00B. -/
def sealHead (n seq : Nat) : List Byte := [0x4D, 0x53, 0x42, 0x4B, 0x01, 0x00] ++ leBytes 2 n ++ leBytes 4 seq

/-- The seal block in LFL is sound and lists the boot ROM's registers (R413). -/
def Dev.sealGood (d : Dev) : Bool :=
  let rs := rwuRegs
  let h := d.lflRd sealAt 16
  let n := fieldLe h 6 2
  let es := d.lflRd (sealAt + 16) (8 * rs.length)
  h.take 4 == [0x4D, 0x53, 0x42, 0x4B] && fieldLe h 4 1 == 1 && n == rs.length
    && fieldLe h 12 4 == crc32 (h.take 12 ++ es)
    && (List.range rs.length).all fun i =>
      (es.drop (8 * i)).take 4 == (sealEntries [(rs[i]?).getD 0] fun _ => 0).take 4

/-- R413: the RWU fields take their values from the seal block. -/
def Dev.sealLoad (d : Dev) : Dev :=
  let rs := rwuRegs
  let d := forUpto rs.length (fun i d =>
    d.setRwu ((rs[i]?).getD 0) (leNat (d.lflRd (sealAt + 16 + 8 * i + 4) 4))) d
  ((d.setF Fld.SYSCTL_BOOT_STAT_SEAL_OK 1).setF Fld.SYSCTL_BOOT_STAT_SEAL_N rs.length).wr Reg.SYSCTL_SEAL_CRC
    (leNat (d.lflRd (sealAt + 12) 4))

/-- R414, R415: SEAL_STORE; what it returns in a0.  `ok`: the block reads back as written. -/
def Dev.sealStore (d : Dev) (ok : Bool) : Nat × Dev :=
  if d.unsealed && d.rd Reg.FWALL_IMG_LEN ≤ sealMaxLen then
    let rs := rwuRegs
    let seq := if d.sealGood then fieldLe (d.lflRd sealAt 16) 8 4 + 1 else 1
    let es := sealEntries rs fun a => d.rd a &&& rwuMask a
    let h := sealHead rs.length seq
    let bs := h ++ leBytes 4 (crc32 (h ++ es)) ++ es
    let m := SMap.clear d.mem.lfl sealAt (sealAt + 4096)
    if ok then (0, { d with mem.lfl := m.setMany flashDflt sealAt bs })
    else match d.freshBytes 4096 with
      | (bs, d) => (2, { d with mem.lfl := m.setMany flashDflt sealAt bs })
  else (1, d)

/-! ### The legal image (R236–R238) -/

/-- R236: the header fields that R237 tests. -/
def headerOk (h : List Byte) : Bool :=
  let len := fieldLe h 8 4
  let entry := fieldLe h 0x18 4
  h.take 4 == [0x4D, 0x4C, 0x49, 0x4D] && fieldLe h 4 1 == 1 && fieldLe h 0x3C 4 == crc32 (h.take 0x3C)
    && len % 256 == 0 && 256 ≤ len && len ≤ 262144
    && entry % 4 == 0 && 0x40 ≤ entry && entry < len

/-- The silicon revision lies in the range from `lo` to `hi` (R19, R237). -/
def silOk (lo hi : Nat) : Bool := lo ≤ 0xA2 && 0xA2 ≤ hi

/-- R235: SHA-256 over the first `n` bytes of LFL, as LFL_SHA then shows it. -/
def Dev.hashLfl (d : Dev) (n : Nat) : Dev :=
  let h := strNat (sha256 (natsOf (d.lflRd 0 n)))
  forUpto 8 (fun w d => d.wr (Reg.FWALL_LFL_SHA w) (h / 2 ^ (32 * w))) { d with boot.lflSha := h }

/-- R237, R238: the check of the legal image; the failure code, 0 for none. -/
def Dev.imageCheck (d : Dev) : Nat × Dev :=
  if d.on Fld.SYSCTL_BOOT_STAT_OTP_ERR then (3, d)
  else match d.otp.active with
    | none => (4, d)
    | some digest =>
      let h := d.lflRd 0 64
      if headerOk h then
        let len := fieldLe h 8 4
        let d := d.hashLfl len
        let d := d.wrs [(Reg.FWALL_CHK, crc32 (d.lflRd 0 len)), (Reg.FWALL_IMG_VER, fieldLe h 0xC 4),
          (Reg.FWALL_IMG_LEN, len), (Reg.FWALL_IMG_SIL, fieldLe h 0x10 2), (Reg.LGLMBX_IF_RANGE, fieldLe h 0x14 4)]
        if d.boot.lflSha != digest then (2, d)
        else if silOk (fieldLe h 0x10 1) (fieldLe h 0x11 1) then (0, d)
        else (3, d)
      else (1, d)

/-! ### The start (R409–R411, R423, R426) -/

/-- R423: the lifecycle in force, at the release of the SYS reset. -/
def Dev.decideLifecycle (d : Dev) (unsealBall : Bool) : Dev :=
  let base := d.otp.lifecycle
  let st := if unsealBall && (base == .provisioned || base == .sealed) then Lifecycle.unsealed else base
  (d.setF Fld.FUSE_LIFECYCLE_STATE st.code).setF Fld.FUSE_LIFECYCLE_BASE base.code

/-- R409 step 1, R410: the OTP load. -/
def Dev.otpLoad (d : Dev) : Dev :=
  let d := (d.setB Fld.SYSCTL_BOOT_STAT_OTP_ERR d.otp.bad).digestStat
  let d := (d.wr Reg.FUSE_DEV_ID_LO d.otp.devId).wr Reg.FUSE_DEV_ID_HI (d.otp.devId / 2 ^ 32)
  let d := forUpto 8 (fun w d => d.wr (Reg.FUSE_CUST_KEY_HASH w) (d.otp.custHash / 2 ^ (32 * w))) d
  let d := forUpto 22 (fun b d => d.wr (Reg.MEMCTL_REPAIR b) ((d.otp.repair[b]?).getD 0)) d
  if d.boot.firstAon then
    let d := (d.wr (Reg.MEMCTL_REPAIR 22) ((d.otp.repair[22]?).getD 0)).loadComp.aonRstBurn
    { d with boot.firstAon := false }
  else d

/-- R195: the clear ends. -/
def Dev.clearDone (d : Dev) : Dev :=
  ((d.setF Fld.MEMCTL_CLEAR_BUSY 0).setF Fld.MEMCTL_CLEAR_DONE 1).raise Ev.MEMCTL_CLEAR_DONE

/-- `n` free words. -/
def Dev.freshWords (d : Dev) (n : Nat) : List Word × Dev :=
  match d.freshes n with
  | (xs, d) => (xs.map (BitVec.ofNat 32), d)

/-- R411: the hand-over to the legal image at its ENTRY: a0 and a1 as the rule says, what the boot ROM left in the other
registers is free. -/
def Dev.handOver (d : Dev) : Dev :=
  let entry := fieldLe (d.lflRd 0 64) 0x18 4
  let d := d.setF Fld.SYSCTL_BOOT_STAT_STAGE 1
  match d.freshWords 31 with
  | (ws, d) =>
    let x : Vector Word 32 := Vector.ofFn fun i : Fin 32 => if i.val = 0 then 0 else (ws[i.val - 1]?).getD 0
    let x := (vSet x 10 (BitVec.ofNat 32 (d.rd Reg.SYSCTL_RST_CAUSE))).set 11 (BitVec.ofNat 32 (d.rd Reg.SYSCTL_BOOT_STAT))
    let c := d.lc
    { d with boot.started := true, lc := { on := true, pc := BitVec.ofNat 32 (0x08000000 + entry), x := x,
                                           data0 := c.data0, progbuf := c.progbuf, cmderr := c.cmderr } }

/-- The addresses of the RW registers of page `p`, in order. -/
def rwRegs (p : Page) : List Nat := (typedOffsets p fun f => f.ty == .rw).map (pageBase p + ·)

/-- R320: without a legal image the LCD runs with the reset values of its page. -/
def Dev.lcdDefaults (d : Dev) : Dev :=
  { d.wrs ((rwRegs .lcd).map fun a => (a, (regReset a).toNat)) with panel.fwLo := Vector.replicate 32 0 }

/-- R348: the boot ROM votes its slot `n` on the domains `xs`, or clears it there. -/
def Dev.romVotes (d : Dev) (xs : List Dom) (n : Nat) (b : Bool) : Dev :=
  xs.foldl (fun d x => if b then d.voteSet .bootRom x (2 ^ n) else d.voteClr .bootRom x (2 ^ n)) d

/-- The domains with votes that hold an RWU field. -/
def rwuDoms : List Dom :=
  Dom.all.filter fun x => x != .aon && Page.all.any fun p => p.dom == x && (pageRows p).any fun r => r.fields.any (·.ty == .rwu)

/-- The domains in which the boot ROM writes (R413, R425, R426). -/
def BootFind.doms : BootFind → List Dom
  | .retired => rwuDoms ++ [.per]
  | .image | .failed _ => rwuDoms

/-- R426: no legal image starts. -/
def Dev.noImage (d : Dev) : Dev :=
  let d := (d.rwuReset.lcdDefaults.setF Fld.SYSCTL_BOOT_STAT_STAGE 2).romVotes [.app, .per] 0 true
  { d with boot.appDue := true, boot.started := false }

/-- R425: the boot ROM of a retired device. -/
def Dev.retiredLoop (d : Dev) : Dev :=
  let d := { d.rwuReset.lcdDefaults with boot.started := false }
  d.setF Fld.LCD_ERR_SET_E (d.f Fld.LCD_ERR_SET_E ||| 0x4000)

/-- The boot ROM is at its end: what a cold start leaves of it. -/
def Dev.bootEnd (d : Dev) : Dev :=
  let d := { d with boot.rom := false, boot.phase := .start }
  if d.pwr.cold == .rising then
    let woke := d.pwr.coldWake && d.f Fld.SYSCTL_BOOT_STAT_STAGE != 0
    let d := d.raiseIf woke Ev.ROOSTER_WOKE
    let owed := d.pwr.owed
    let d : Dev := { d with
      pwr.owed := none
      pwr.cold := .no
      pwr.coldWake := d.pwr.coldWake && !woke
      pwr.wakeOpen := d.pwr.wakeOpen && !woke
      boot.firstCall := true }
    match owed with
    | some t => d.runTo t
    | none => d
  else d

/-- The boot ROM can go on: LGL is on, and so are the domains that its next step needs; for the hand-over, the domains it
raised for its writes are off again (R409, R411, R413). -/
def Dev.bootReady (d : Dev) : Bool :=
  d.boot.rom && d.domOn .lgl && match d.boot.phase with
    | .start => !d.on Fld.SYSCTL_BOOT_STAT_COLD || (d.domOn .met && d.domOn .per)
    | .writing f => f.doms.all d.domOn
    | .leaving => rwuDoms.all fun x => d.wanted x || d.domStat x < 2

/-- Step 5: the hand-over, once nothing stands against it. -/
def Dev.bootLeave (d : Dev) : Dev := if d.bootReady then d.handOver.bootEnd else d

/-- R413, R425, R426: the writes to the RWU fields, once their domains are on, and what follows them. -/
def Dev.bootWrite (d : Dev) (f : BootFind) : Dev :=
  if d.bootReady then
    match f with
    | .retired => (d.retiredLoop.romVotes f.doms 8 false).bootEnd
    | .failed _ => (d.noImage.romVotes f.doms 8 false).bootEnd
    | .image => { d.sealLoad.romVotes f.doms 8 false with boot.phase := .leaving }.bootLeave
  else d

/-- R413: the boot ROM votes for the domains it is to write in. -/
def Dev.bootFound (d : Dev) (f : BootFind) : Dev :=
  ({ d.romVotes f.doms 8 true with boot.phase := .writing f } : Dev).bootWrite f

/-- R409, steps 1 to 3: the OTP load, the clear of the banks and the image check; then the seal load of a cold start, where
the seal block is used and sound. -/
def Dev.bootCheck (d : Dev) : Dev :=
  let cold := d.on Fld.SYSCTL_BOOT_STAT_COLD
  let d := if cold then d.otpLoad.clearBanks.clearDone else d
  if d.lifecycle == .retired then d.bootFound .retired
  else match d.imageCheck with
    | (0, d) =>
      let d := d.setF Fld.FWALL_BOOT_RES_RESULT 0
      let used := cold && d.rd Reg.FWALL_IMG_LEN ≤ sealMaxLen
      if used && d.sealGood then d.bootFound .image
      else
        let d := if used then (d.setF Fld.SYSCTL_BOOT_STAT_SEAL_OK 0).raise Ev.SYSCTL_SEAL_ERR else d
        ({ d with boot.phase := .leaving } : Dev).bootLeave
    | (code, d) => (d.setF Fld.FWALL_BOOT_RES_RESULT code).bootFound (.failed code)

/-- LGL starts: the LC is in the boot ROM (R409). -/
def Dev.bootBegin (d : Dev) (cold : Bool) : Dev :=
  let d := (d.setF Fld.SYSCTL_BOOT_STAT_STAGE 0).setB Fld.SYSCTL_BOOT_STAT_COLD cold
  { d with boot.rom := true, boot.phase := .start, boot.loader := none, boot.appDue := false }

/-- R409: the boot ROM goes on as far as the domains that are on let it. -/
def Dev.bootTry (d : Dev) : Dev :=
  if d.bootReady then
    match d.boot.phase with
    | .start => d.bootCheck
    | .writing f => d.bootWrite f
    | .leaving => d.bootLeave
  else d

/-! ### APP_BOOT (R416–R419) -/

/-- R416: the header fields that R417 tests. -/
def appHeaderOk (h : List Byte) : Bool :=
  let len := fieldLe h 8 4
  let entry := fieldLe h 0x18 4
  h.take 4 == [0x4D, 0x41, 0x49, 0x4D] && fieldLe h 4 1 == 1 && fieldLe h 0x3C 4 == crc32 (h.take 0x3C)
    && len % 256 == 0 && 512 ≤ len && len ≤ 2097152
    && entry % 4 == 0 && 0x100 ≤ entry && entry < len

/-- The AC is held in reset (R415, R419). -/
def Dev.acReset (d : Dev) : Dev :=
  let c := d.ac
  { d.setF Fld.SYSCTL_AC_CTRL_RUN 0 with ac := { data0 := c.data0, progbuf := c.progbuf, cmderr := c.cmderr } }

/-- R417: signature and key are not asked for. -/
def Dev.unsignedOk (d : Dev) : Bool :=
  d.otp.custHash == 0 && (d.otp.lifecycle == .blank || d.otp.lifecycle == .provisioned)

/-- R417: the code of the check of the application image; 0 for a pass. -/
def Dev.appCheck (d : Dev) : Nat :=
  let h := d.aflRd 0 256
  if !appHeaderOk h then 1
  else
    let key := natsOf ((h.drop 0x40).take 64)
    let sig := natsOf ((h.drop 0x80).take 64)
    let num := fun (s : List Nat) (o : Nat) => bytesNat ((s.drop o).take 32)
    let msg := natsOf (h.take 0x80 ++ d.aflRd 0xC0 (fieldLe h 8 4 - 0xC0))
    if !d.unsignedOk && (d.otp.custHash == 0 || strNat (sha256 key) != d.otp.custHash) then 2
    else if !d.unsignedOk && !ecdsaVerify (sha256 msg) (num key 0) (num key 32) (num sig 0) (num sig 32) then 3
    else if silOk (fieldLe h 0x10 1) (fieldLe h 0x11 1) then 0
    else 4

/-- R417, R418: the check, and the start of the AC. -/
def Dev.appStart (d : Dev) : Nat × Dev :=
  let h := d.aflRd 0 256
  let code := d.appCheck
  let d := (d.setF Fld.SYSCTL_AFL_RES_RESULT code).setB Fld.SYSCTL_AFL_RES_UNSIGNED (code != 1 && d.unsignedOk)
  let d := if code = 1 then d
    else (d.wr Reg.SYSCTL_AFL_VER (fieldLe h 0xC 4)).wr Reg.SYSCTL_AFL_INFO (fieldLe h 0x10 2 + fieldLe h 0x14 2 * 65536)
  if code = 0 then
    if d.on Fld.SYSCTL_AC_CTRL_HOLD then (0, d)
    else
      let d := { d with ac.on := true, ac.pc := BitVec.ofNat 32 (0x0C000000 + fieldLe h 0x18 4) }
      (0, (d.setF Fld.SYSCTL_AC_CTRL_RUN 1).raise Ev.SYSCTL_AC_STARTED)
  else (code, d.raise Ev.SYSCTL_AFL_FAIL)

/-- What the LC returns to when a boot ROM service ends with `a0`. -/
def Dev.serviceReturn (d : Dev) (a0 : Nat) : Dev :=
  if d.f Fld.SYSCTL_BOOT_STAT_STAGE == 1 then
    let c := d.lc
    let called := c.pc == 0x100 || c.pc == 0x104 || c.pc == 0x108
    { d with lc := { c with x := vSet c.x 10 (BitVec.ofNat 32 a0), pc := if called then vGet c.x 1 0 else c.pc } }
  else d

/-- Slot 8 on PER and APP while the loader runs (R422). -/
def Dev.loaderVotes (d : Dev) (b : Bool) : Dev := d.romVotes [.per, .app] 8 b

/-- R421: the loader starts. -/
def Dev.loaderStart (d : Dev) (endless thenBoot : Bool) : Dev :=
  { d.acReset.loaderVotes true with boot.loader := some { endless := endless, thenBoot := thenBoot } }

/-- The end of APP_BOOT: it returns, or, where no legal image runs, the loader serves without limits (R426). -/
def Dev.appBootEnd (d : Dev) (code : Nat) : Dev :=
  if d.f Fld.SYSCTL_BOOT_STAT_STAGE == 2 then
    { d.loaderVotes true with boot.loader := some { endless := true } }
  else d.serviceReturn code

/-- R417: APP_BOOT, called by the legal image or, where none runs, run by the boot ROM itself; it waits for APP to come on
where LC slot 0 asks for it, and for the crypto engine before it checks the image (R415). -/
def Dev.appBoot (d : Dev) : Dev :=
  let stage := d.f Fld.SYSCTL_BOOT_STAT_STAGE
  let voted := bit (d.slots .app) 0
  let waits := voted && !d.domOn .app
  let loads := d.boot.firstCall && d.on Fld.SYSCTL_STRAP_BOOT_HOST
  if !d.domOn .lgl || d.boot.rom || d.boot.loader.isSome || !(stage == 1 || d.boot.appDue) || waits then d
  else if voted && d.lifecycle != .retired && !loads && d.crypto.run.isSome then d.acReset
  else
    let d := { d.acReset with boot.appDue := false }
    if !voted then (d.setF Fld.SYSCTL_AFL_RES_RESULT 5).appBootEnd 5
    else if d.lifecycle == .retired then (d.setF Fld.SYSCTL_AFL_RES_RESULT 6).appBootEnd 6
    else
      let d := { d with boot.firstCall := false }
      if loads then d.loaderStart false true
      else match d.appStart with
        | (code, d) => d.appBootEnd code

/-- R426: the boot ROM runs APP_BOOT itself once APP and PER are on. -/
def Dev.appBootDue (d : Dev) : Dev := if d.boot.appDue && d.domOn .app && d.domOn .per then d.appBoot else d

/-! ### The loader (R421, R422) -/

/-- The status word of a command, and LDR_CMD. -/
def Dev.loaderStatus (d : Dev) (seq result : Nat) (atLimit : Bool) : Dev :=
  let d := match d.boot.loader with
    | some l => { d with boot.loader := some { l with seq := some seq } }
    | none => d
  let d := (d.memWrite 1 20 1 (seq % 256 * 2 ^ 24 + 256 + result)).2
  (if atLimit then d.setF Fld.SYSCTL_BOOT_STAT_LDR_AT_LIMIT 1 else d).raise Ev.SYSCTL_LDR_CMD

/-- Words of the DPM as the boot ROM and the flash controller read them; an uncorrectable one, and one past the end of the
DPM, gives a free value. -/
def Dev.dpmWords (d : Dev) (w : Nat) : Nat → List Nat × Dev
  | 0 => ([], d)
  | n + 1 =>
    match (if w < 2048 then d.readRow 1 20 w w false else (none, d)) with
    | (some x, d) =>
      match Dev.dpmWords d (w + 1) n with
      | (xs, d) => (x :: xs, d)
    | (none, d) =>
      match Dev.dpmWords d.fresh.2 (w + 1) n with
      | (xs, d') => (d.fresh.1.toNat :: xs, d')

/-- A sector of 4 KiB is erased and takes `bs`. -/
def sectorWrite (m : SMap Byte) (n : Nat) (bs : List Byte) : SMap Byte :=
  (SMap.clear m (n * 4096) (n * 4096 + 4096)).setMany flashDflt (n * 4096) bs

/-- R421 PROG; `ok`: the read-back agrees. -/
def Dev.loaderProg (d : Dev) (n : Nat) (lfl : Bool) (seq : Nat) (ok atLimit : Bool) : Dev :=
  match d.boot.loader with
  | none => d
  | some l =>
    if !d.domOn .per || !d.domOn .app then d
    else if (if lfl then d.unsealed && n < 64 else d.lifecycle != .retired) then
      match (if ok then d.dpmWords 0x400 1024 else d.freshes 1024) with
      | (ws, d) =>
        let bs := bytesOf (ws.map (BitVec.ofNat 32))
        let d :=
          if lfl then { d with mem.lfl := sectorWrite d.mem.lfl n bs, boot.loader := some { l with lflProg := true } }
          else { d with mem.afl := sectorWrite d.mem.afl n bs }
        d.loaderStatus seq (if ok then 0 else 2) atLimit
    else d.loaderStatus seq 1 atLimit

/-- R421 CHECK. -/
def Dev.loaderCheck (d : Dev) (seq : Nat) (atLimit : Bool) : Dev :=
  if d.boot.loader.isNone || !d.domOn .per then d
  else if d.unsealed then
    let len := min 262144 (fieldLe (d.lflRd 0 64) 8 4)
    let d := d.hashLfl len
    ((d.memWrite 1 20 2 (crc32 (d.lflRd 0 len))).2).loaderStatus seq 0 atLimit
  else d.loaderStatus seq 1 atLimit

/-- R421 BURN; `ok`: the slot reads back as burnt. -/
def Dev.loaderBurn (d : Dev) (seq : Nat) (ok atLimit : Bool) : Dev :=
  if d.boot.loader.isNone || !d.domOn .per then d
  else if d.unsealed && d.otp.freeSlot.isSome then
    if ok then
      (({ d with boot.digest := some d.boot.lflSha } : Dev).digestDone).loaderStatus seq 0 atLimit
    else d.loaderStatus seq 2 atLimit
  else d.loaderStatus seq 1 atLimit

/-- R421, R422: what follows the loader where LGL is not reset. -/
def Dev.loaderEnd (d : Dev) (l : Loader) : Dev :=
  if l.endless then d
  else
    let d := { d.loaderVotes false with boot.loader := none }
    if l.thenBoot then
      match d.appStart with
      | (code, d) => d.appBootEnd code
    else d.serviceReturn 0

/-! ### Flash and fuses (R420, R424, R425) -/

/-- R420: a write of AFL_CMD with GO. -/
def Dev.aflCmd (d : Dev) (r : Requester) (v : Nat) : Dev :=
  let refuse := d.setF Fld.SYSCTL_AFL_STAT_RESULT 1
  let begin_ := fun (d : Dev) (o : FlashOp) => { d with boot.afl := some o }.setF Fld.SYSCTL_AFL_STAT_BUSY 1
  if !bit v 31 || !(r.legal || r.isAc) || d.boot.afl.isSome then d
  else if d.lifecycle == .retired then refuse
  else match bits v 0 2 with
    | 1 =>
      if d.domOn .per && d.domOn .app then
        match d.dpmWords (d.f Fld.SYSCTL_AFL_SRC_WORD) 64 with
        | (ws, d) => begin_ d (.prog (bits v 8 13) (bytesOf (ws.map (BitVec.ofNat 32))))
      else refuse
    | 2 => if d.domOn .app then begin_ d (.eraseSector (bits v 8 13)) else refuse
    | _ => refuse

/-- R420: the AFL command in progress completes. -/
def Dev.aflDone (d : Dev) (ok : Bool) : Dev :=
  match d.boot.afl with
  | none => d
  | some o =>
    let prog := match o with
      | .prog _ _ => true
      | _ => false
    match d.flashApply d.mem.afl o 0x200000 ok with
    | (m, d) =>
      let d := { d with mem.afl := m, boot.afl := none }
      ((d.setF Fld.SYSCTL_AFL_STAT_RESULT (if ok || !prog then 0 else 2)).setF Fld.SYSCTL_AFL_STAT_BUSY 0).raise
        Ev.SYSCTL_AFL_DONE

/-- The words `n` to 0 of PROG_DATA as one number. -/
def Dev.progData (d : Dev) (n : Nat) : Nat :=
  sumN ((List.range n).map fun w => d.rd (Reg.FUSE_PROG_DATA w) * 2 ^ (32 * w))

/-- R424: what a PROG_CMD for a target would burn, where it is performed. -/
def Dev.progOp (d : Dev) (target : Nat) : Option ProgOp :=
  let o := d.otp
  let early := d.lifecycle == .blank || d.lifecycle == .provisioned
  let early' := early || (d.unsealed && o.lifecycle == .provisioned)
  let free := fun (l : Lifecycle) => !o.lifeFailed.contains l
  match target with
  | 1 => if early && o.devId == 0 && !o.devIdFailed then some (.devId (d.progData 2)) else none
  | 2 => if early' && o.custHash == 0 && !o.custHashFailed then some (.custHash (d.progData 8)) else none
  | 3 => if d.lifecycle == .blank && o.lifecycle == .blank && o.devId != 0 && free .provisioned then some (.lifecycle .provisioned) else none
  | 4 =>
    if (d.lifecycle == .provisioned || (d.unsealed && o.lifecycle == .provisioned)) && o.lifecycle == .provisioned
        && o.custHash != 0 && !o.digests.isEmpty && d.on Fld.SYSCTL_BOOT_STAT_SEAL_OK && free .sealed then some (.lifecycle .sealed)
    else none
  | 5 => if d.lifecycle != .retired && o.lifecycle != .retired && free .retired then some (.lifecycle .retired) else none
  | _ => none

/-- R424, R425: a write of PROG_CMD with GO. -/
def Dev.progCmd (d : Dev) (v : Nat) : Dev :=
  if !bit v 31 || d.boot.prog.isSome then d
  else match d.progOp (bits v 0 3) with
    | none => d.setF Fld.FUSE_PROG_STAT_RESULT 1
    | some o =>
      let d := ({ d with boot.prog := some o }.setF Fld.FUSE_PROG_STAT_BUSY 1).raise Ev.SYSCTL_LIFECYCLE
      if o == .lifecycle .retired then
        let d := d.keyErase
        if d.domOn .lgl then d.wr Reg.FWALL_ENA_CTRL 0 else d
      else d

/-- R424: the burn in progress completes; `ok`: it reads back as burnt. -/
def Dev.progDone (d : Dev) (ok : Bool) : Dev :=
  match d.boot.prog with
  | none => d
  | some p =>
    let o := d.otp
    let o := match p, ok with
      | .devId v, true => { o with devId := v }
      | .devId _, false => { o with devIdFailed := true }
      | .custHash v, true => { o with custHash := v }
      | .custHash _, false => { o with custHashFailed := true }
      | .lifecycle l, true => { o with lifecycle := l }
      | .lifecycle l, false => { o with lifeFailed := o.lifeFailed ++ [l] }
    let life := match p with
      | .lifecycle _ => true
      | _ => false
    let d := { d with otp := o, boot.prog := none }
    let d := match p, ok with
      | .devId v, true => (d.wr Reg.FUSE_DEV_ID_LO v).wr Reg.FUSE_DEV_ID_HI (v / 2 ^ 32)
      | .custHash v, true => forUpto 8 (fun w d => d.wr (Reg.FUSE_CUST_KEY_HASH w) (v / 2 ^ (32 * w))) d
      | _, _ => d
    let d := (d.setF Fld.FUSE_PROG_STAT_BUSY 0).setF Fld.FUSE_PROG_STAT_RESULT (if ok then 0 else 2)
    if life && ok then d.setF Fld.FUSE_PROG_STAT_PENDING 1 else d

end Sys2Proof.Machine
end

