-- ==== Sys2Proof/Machine/PowerSeq.lean ====
section
/-! DEFINITION. The power sequencer at work: drops, power-ups, the save set, resets, supplies, starts; and the checks of
WATCH (R345–R365, R375–R381, R407, R408). -/

namespace Sys2Proof.Machine

/-! ### What a domain loses beside its registers -/

/-- The banks of a domain that lose their contents when it drops, `off` telling a drop into OFF and `ret` what RET_CFG
held when the drop began (R351, R359). -/
def lostBanks (x : Dom) (off : Bool) (ret : Nat) : List Nat :=
  let s := fun (b : Nat) => off || !bit ret b
  match x with
  | .sha => (List.range 8).filter s
  | .shb => ((List.range 8).map (· + 8)).filter s
  | .lgl => if off then [16, 17, 18, 19] else []
  | .per => [20]
  | .sys => if off then [21] else []
  | _ => []

/-- The hidden state of a domain as its reset leaves it; `k`: whether the retention flops are lost too. -/
def Dev.domReset (d : Dev) (k : ResetKind) (x : Dom) : Dev :=
  match x with
  | .sys =>
    { d.muleReset with
      herd := {}, caps := Vector.replicate 3 {}
      mae.hasRun := d.mae.running
      mem.ceThrDone := false, boot.prog := none, ports.ir := 1 }
  | .lgl =>
    let c := d.lc
    { d.muleReset.lcdEntryGone with
      bill := {}, prepay := {}, tariff := {}, crypto := {}, mbx := Vector.replicate 2 {}
      boot.lfl := none, boot.digest := none, boot.rom := false, boot.phase := .start, boot.loader := none, boot.appDue := false
      lc := { data0 := c.data0, progbuf := c.progbuf, cmderr := c.cmderr } }
  | .app => d.acReset
  | .met => { d.metReset with mae.running := false }
  | .ufa => { d.ufeRest with rtd := {} }
  | .ufd => { d.flowReset k with ufe := {}, therm := Vector.replicate 4 {} }
  | .per => { d.panelReset.lampReset with ports := { ir := d.ports.ir }, mem.dpmWait := none }
  | _ => d

/-- A reset of the domains `xs`: registers and hidden state. -/
def Dev.resetDoms (d : Dev) (k : ResetKind) (xs : List Dom) : Dev := xs.foldl (fun d x => d.domReset k x) (d.resetRegs k xs)

/-! ### The register save set (R357) -/

/-- The registers of a domain's save words, in order; the last three MET words stand for the cycle count, CYC_HI, FREQ. -/
def saveRegs : Dom → List Nat
  | .sys => [Reg.CLK_AC_DIV, Reg.CLK_OUT_EN, Reg.HERD_CTRL, Reg.HERD_PART]
      ++ (List.range 16).map Reg.MEMCTL_BANK_OWN ++ [Reg.MULE_CTRL, Reg.MULE_SAVE_CFG]
  | .met => rwRegs .mae
  | .per => rwRegs .lcd
  | _ => []

/-- Word index in AON RAM of a domain's first save word. -/
def saveBase : Dom → Nat
  | .met => 24
  | .per => 48
  | _ => 0

/-- The save words of a domain as they stand. -/
def Dev.saveWords (d : Dev) (x : Dom) : List Nat :=
  (saveRegs x).map d.rd ++ (if x == .met then [d.mae.cyc.toNat, d.rd Reg.MAE_CYC_HI, d.rd Reg.MAE_FREQ] else [])

/-- Step 2 of a drop: the words go to AON RAM. -/
def Dev.saveDom (d : Dev) (x : Dom) : Dev :=
  let ws := d.saveWords x
  if ws.isEmpty then d
  else
    let d := forUpto ws.length (fun i d =>
      d.putCode 22 (saveBase x + i) (encodeWord 22 (saveBase x + i) ((ws[i]?).getD 0))) d
    d.setF Fld.PWR_SAVE_STAT_VALID (setBits (d.f Fld.PWR_SAVE_STAT_VALID) x.num 1 1)

/-- A save word as the restore reads it (R189, R190); an uncorrectable one is recorded here too. -/
def Dev.saveRead (d : Dev) (w : Nat) : Option Nat × Dev :=
  match d.memRead 7 22 w with
  | (some v, d) => (some v, d)
  | (none, d) => (none, ((d.setF Fld.PWR_SAVE_STAT_ERR_WORD w).setF Fld.PWR_SAVE_STAT_ERR 1).raise Ev.PWR_SAVE_ERR)

/-- The save words of a domain valid in AON RAM. -/
def Dev.saveValid (d : Dev) (x : Dom) : Bool := bit (d.f Fld.PWR_SAVE_STAT_VALID) x.num

/-- The registers of a domain take their save words. -/
def Dev.restoreRegs (d : Dev) (x : Dom) : Dev :=
  let rs := saveRegs x
  forUpto rs.length (fun i d =>
    match d.saveRead (saveBase x + i) with
    | (some v, d) => d.wr ((rs[i]?).getD 0) v
    | (none, d) => d) d

/-! ### Starts of domains -/

/-- R57, R58: MET has its reference, and the MAE starts, at an angle 0x0000 with the die temperature `dieT` (R153). -/
def Dev.metStart (d : Dev) (cold : Bool) (dieT : Int) : Dev :=
  let started := fun (d : Dev) (resumed : Bool) => { d.energyZero.calZero dieT with herd.resume := some resumed }
  let fresh := fun (d : Dev) =>
    started ((d.wrs ((rwRegs .mae).map fun a => (a, (regReset a).toNat))).maeStart 0 0 (50 * 65536) false) false
  if cold || !d.saveValid .met then fresh d
  else
    let d := d.restoreRegs .met
    let b := saveBase .met + (saveRegs .met).length
    match d.saveRead b with
    | (c, d) => match d.saveRead (b + 1) with
      | (h, d) => match d.saveRead (b + 2) with
        | (f, d) => match c, h, f with
          | some c, some h, some f =>
            let near := d.synthFreq f
            match d.uptimeNow with
            | (now, d) =>
              let n := resumeCycle (c + h % 65536 * 2 ^ 32) ((now + 2 ^ 48 - d.pwr.metOff) % 2 ^ 48) near
              started (d.maeStart (BitVec.ofNat 32 n) (n / 2 ^ 32 % 65536) f true) true
          | _, _, _ => fresh d

/-- R81, R357, R377: SYS is released for work (not for a check). -/
def Dev.sysStart (d : Dev) (cold : Bool) : Dev :=
  if cold then d
  else
    let d := if d.saveValid .sys then d.restoreRegs .sys else d
    (d.level Ev.HERD_HALTED (!d.on Fld.HERD_CTRL_EN)).herdRearm

/-- A start from cold is under way (R408). -/
def Dev.coldRising (d : Dev) : Bool := d.pwr.cold == .rising

/-- A domain is released: what its block starts with. -/
def Dev.domStart (d : Dev) (x : Dom) : Dev :=
  match x with
  | .sys => if d.watch.checking then { d with watch.checkMode := true } else d.sysStart d.coldRising
  | .met => d
  | .lgl =>
    let d := if d.coldRising then d else d.setF Fld.SYSCTL_RST_CAUSE_CAUSE (d.f Fld.SYSCTL_RST_CAUSE_CAUSE ||| 128)
    d.bootBegin d.coldRising
  | .per =>
    let d := if !d.coldRising && d.saveValid .per then d.restoreRegs .per else d
    let d := if d.f Fld.SYSCTL_BOOT_STAT_STAGE == 2 then d.lcdDefaults else d
    let d := d.lcdStart
    if d.pwr.stretch then
      let now := d.uptimeNow
      { now.2.setF Fld.ROOSTER_I2C_STAT_STRETCH (min 65535 ((now.1 + 2 ^ 48 - d.pwr.stretchAt) % 2 ^ 48)) with
        pwr.stretch := false }
    else d
  | _ => d

/-- A domain has been raised: DOM_UP. -/
def Dev.domUp (d : Dev) (x : Dom) : Dev :=
  let d := if d.pwr.up == some x then { d with pwr.up := none } else d
  ((d.setDom x 3).raise Ev.PWR_DOM_UP).domStart x

/-! ### The check of WATCH (R375–R381) -/

/-- R378: with its domains on the check writes the image, and with PLL_S locked it starts its pair and its conversion. -/
def Dev.watchStart (d : Dev) : Dev :=
  let w := d.watch
  if w.checking && !w.started && w.checkMode && d.domOn .sys && d.domOn .ufa && d.domOn .ufd && d.pwr.pllS then
    let d := w.img.foldl (fun d p => d.wr p.1 ((d.rd p.1 &&& rwuMask p.1) + p.2.toNat)) d
    let div := max 1 (d.f Fld.WATCH_CTRL_RTD_DIV)
    let conv := d.on Fld.WATCH_CTRL_RTD_EN && (d.rd Reg.WATCH_CHK_CNT + 1) % 2 ^ 32 % div == 0
    let d := { d with watch.started := true, watch.conv := conv }
    let d := d.pairOffer w.path (d.f Fld.WATCH_CTRL_SET) 2 0x3FF false false false
    if conv then d.rtdStart w.chan false else d
  else d

/-- R375: a period of WATCH has passed. -/
def Dev.watchCheck (d : Dev) : Dev :=
  if d.cur == .watch && !d.watch.checking && d.pwr.entry.isNone && d.pwr.waking.isNone then
    let s := min 3600 (max 1 (d.f Fld.WATCH_PERIOD_S))
    let d := { d with watch.due := (d.watch.due + s * 32768) % 2 ^ 48 }
    if !d.on Fld.WATCH_CTRL_EN || !d.on Fld.WATCH_STAT_IMG_VALID || d.on Fld.PWR_SUPPLY_PFW || d.on Fld.PWR_SUPPLY_VBAT_ACTIVE
    then (d.inc Reg.WATCH_SKIP_CNT).raise Ev.WATCH_SKIPPED
    else
      let d := ({ d with watch.checking := true, watch.started := false } : Dev).setF Fld.WATCH_STAT_CHECKING 1
      let d := if d.domOn .sys then { d with watch.checkMode := true } else d
      d.dropCheck.watchStart
  else d

/-- The temperatures a check compares, in 0.01 °C: the coolant's and the channel's, none where not available. -/
structure CheckTemps where
  cool : Option Int
  rtd : Option Int

/-- A temperature word in 0.01 °C; 0x8000 stands for none. -/
def tempOf (v : Nat) : Option Int := if v % 65536 = 0x8000 then none else some (sgn 16 v)

/-- R379: the cause bits of a check. -/
def Dev.checkCauses (d : Dev) (t : CheckTemps) : Nat :=
  let n := d.watch.path
  let st := d.rd (Reg.UFE_TOF_RES_STAT n)
  let bad := fun (c : Nat) => c == 2 || c == 3
  let pairOk := bits st 16 3 == 0
  let src := d.f Fld.WATCH_CTRL_TSRC
  let amp := d.rd (Reg.UFE_TOF_RES_AMP n)
  let q := d.flowQ n
  let lo := sgn 16 (d.f Fld.WATCH_T_WIN_T_LO) * 10
  let hi := sgn 16 (d.f Fld.WATCH_T_WIN_T_HI) * 10
  let out := fun (x : Option Int) => x.any fun v => hi ≤ v || v ≤ lo
  let code := d.f (Fld.RTD_RTD_STAT_CODE d.watch.chan)
  b2n (bad (bits st 8 4) || bad (bits st 12 4))
  + b2n (!pairOk || (bit src 0 && t.cool.isNone)) * 2
  + b2n (pairOk && min (bits amp 0 12) (bits amp 16 12) < d.f Fld.WATCH_AMP_MIN_A) * 4
  + b2n (pairOk && (q < sgn 32 (d.rd Reg.WATCH_FLOW_LO) || sgn 32 (d.rd Reg.WATCH_FLOW_HI) < q)) * 8
  + b2n (pairOk && bit src 0 && out t.cool) * 16
  + b2n (bit src 1 && out t.rtd) * 32
  + b2n (d.watch.conv && (code == 1 || code == 2 || code == 3)) * 64

/-- R379: RUN_T after a check; `used`: the temperatures compared. -/
def Dev.runT (d : Dev) (used : List Int) (outside : Bool) : Nat :=
  let lo := sgn 16 (d.f Fld.WATCH_T_WIN_T_LO) * 10
  let hi := sgn 16 (d.f Fld.WATCH_T_WIN_T_HI) * 10
  let h : Int := (max 5 (d.f Fld.WATCH_JUDGE_HYST) * 10 : Nat)
  let was := d.f Fld.WATCH_STAT_RUN_T
  if outside then satInc 4 was
  else if !used.isEmpty && used.all (fun v => lo + h < v && v < hi - h) then 0
  else was

/-- R380: SYS leaves check mode and works. -/
def Dev.leaveCheck (d : Dev) : Dev :=
  if d.watch.checkMode && d.domOn .sys then ({ d with watch.checkMode := false } : Dev).sysStart false else d

/-- R381: a wake that began while the island was dropped finds SYS still on. -/
def Dev.wakeCheck (d : Dev) : Dev :=
  if d.pwr.waking.isSome && !d.watch.checking && !d.pwr.drop.any (·.dom == .sys) then d.leaveCheck else d

/-- R378–R381: the judgement of a check. -/
def Dev.watchJudge (d : Dev) : Dev :=
  let w := d.watch
  if w.checking && w.started && d.ufe.pair.isNone && d.rtd.conv.isNone then
    let n := w.path
    let st := d.rd (Reg.UFE_TOF_RES_STAT n)
    let src := d.f Fld.WATCH_CTRL_TSRC
    let t : CheckTemps := { cool := tempOf (d.rd (Reg.FLOW_COOL_T n)), rtd := if w.conv then d.rtdTemp w.chan else none }
    let causes := d.checkCauses t
    let pairOk := bits st 16 3 == 0
    let used := (if pairOk && bit src 0 then t.cool.toList else []) ++ (if bit src 1 then t.rtd.toList else [])
    let runC := if causes &&& 14 != 0 then satInc 4 (d.f Fld.WATCH_STAT_RUN_C) else 0
    let runT := d.runT used (causes &&& 48 != 0)
    let up := causes &&& 65 != 0 || max 1 (d.f Fld.WATCH_JUDGE_CONFIRM) ≤ runC || max 1 (d.f Fld.WATCH_JUDGE_DWELL) ≤ runT
    let d := d.wr Reg.WATCH_LAST_CODES (bits st 16 3 + bits st 8 4 * 16 + bits st 12 4 * 256
      + (if w.conv then d.f (Fld.RTD_RTD_STAT_CODE w.chan) else 7) * 2 ^ 12
      + (if up then causes else d.f Fld.WATCH_LAST_CODES_CAUSE) * 2 ^ 16)
    let d := d.wrs [(Reg.WATCH_LAST_AMP, d.rd (Reg.UFE_TOF_RES_AMP n)), (Reg.WATCH_LAST_FLOW, d.rd (Reg.FLOW_FLOW n)),
      (Reg.WATCH_LAST_T, unsgn 16 (t.cool.getD (-32768)) + unsgn 16 (t.rtd.getD (-32768)) * 65536)]
    let d := (d.setF Fld.WATCH_STAT_RUN_C (if up then 0 else runC)).setF Fld.WATCH_STAT_RUN_T (if up then 0 else runT)
    let d := (d.incWrap Reg.WATCH_CHK_CNT).raise Ev.WATCH_CHECK_DONE
    let d := if up then (d.inc Reg.WATCH_ANOM_CNT).raise Ev.WATCH_ANOMALY else d
    let wake := up && d.wakeEnabled 6
    let d := if wake then d.wakeRequest [6] else d
    let after := d.watch.wakeAfter
    let d := { d with watch.checking := false, watch.started := false, watch.wakeAfter := false }.setF
      Fld.WATCH_STAT_CHECKING 0
    if after then
      let d := if wake then [Dom.sys, .ufa, .ufd].foldl (fun d x => d.hwSlot x 5 true) d else d
      d.startWake.leaveCheck
    else d
  else d

/-! ### Drops (R356) -/

def dropOrder : List Dom := [.app, .ufd, .ufa, .lgl, .per, .sha, .shb, .met, .sys]

def raiseOrder : List Dom := [.sys, .sha, .shb, .lgl, .app, .per, .ufd, .ufa]

/-- The order in which a check raises its domains (R378). -/
def checkOrder : List Dom := [.ufa, .sys, .ufd]

/-- The next domain to be raised (R346, R364); MET has its own sequence. -/
def Dev.nextUp (d : Dev) : Option Dom :=
  if d.on Fld.PWR_SUPPLY_PFW || d.pwr.cold == .due then none
  else (if d.watch.checking then checkOrder else raiseOrder).find? fun x =>
    d.wanted x && d.domStat x < 2 && d.domOn x.parent

/-- The next domain to be dropped. -/
def Dev.nextDown (d : Dev) : Option Dom :=
  if d.seqRuns || d.nextUp.isSome || d.pwr.cold == .due then none
  else dropOrder.find? fun x => d.domStat x == 3 && !d.wanted x

/-- R346: with no sequence running the next power-up begins; begun, it runs to its end. -/
def Dev.upBegin (d : Dev) : Dev := if d.seqRuns then d else { d with pwr.up := d.nextUp }

/-- Step 1 in domain `x`: the work in it ends (R110, R229, R356). -/
def Dev.quiesce (d : Dev) (x : Dom) : Dev :=
  match x with
  | .sys | .lgl => if d.watch.checkMode then d else d.quiesceEpoch
  | .met => d.publishAll
  | .ufa => { d.pairAbort .ufa with rtd.conv := none }
  | .ufd => d.pairAbort .ufd
  | .per =>
    let d := match d.ports.dma with
      | some _ => { d with ports.dma := none }.setF Fld.HSPI_DMA_CTRL_BUSY 0
      | none => d
    { d with ports.dir := none, ports.uart.stop := true }
  | _ => d

/-- The sequencer begins the next drop. -/
def Dev.dropStart (d : Dev) : Dev :=
  match d.nextDown with
  | none => d
  | some x =>
    let d := { d with pwr.drop := some { dom := x, ret := d.rd Reg.PWR_RET_CFG } }
    ((d.setF Fld.PWR_SEQ_DOM x.num).setF Fld.PWR_SEQ_STEP 1).quiesce x

/-- The end of step 2 is reached: the quiesce has ended. -/
def Dev.dropReady (d : Dev) (x : Dom) : Bool :=
  !((x == .lgl || x == .sys) && !d.watch.checkMode && d.muleBusySaving)

/-- The decision: step 3 begins. -/
def Dev.isolate (d : Dev) (q : DropSeq) : Dev :=
  let x := q.dom
  let d := if d.watch.checkMode then d else d.saveDom x
  let d := if x == .met then { d.uptimeNow.2 with mae.running := false, pwr.metOff := d.uptimeNow.1 } else d
  let d := if x == .met then d.pulseStop else d
  let d := if x == .ufa then forUpto 4 (fun k d => d.touchOutlet k) d else d
  let d := if x == .per then d.lampReset else d
  let d := { d with pwr.drop := some { q with decided := true } }
  let d := (d.setDom x 2).setF Fld.PWR_SEQ_STEP 3
  match d.pwr.entry with
  | some e => if e.target.allows x then d else { d with pwr.entry := some { e with passed := true } }
  | none => d

/-- R356: the decision at the end of step 2; `arrived`: the device with what arrives in its clock. -/
def Dev.dropDecision (d arrived : Dev) : Dev :=
  match d.pwr.drop, arrived.dropCheck with
  | none, a => a
  | some q, a =>
    if q.decided || !d.dropReady q.dom then a
    else if a.pwr.drop.isNone then (a.setF Fld.PWR_STATE_AT_LIMIT 1).raise Ev.PWR_AT_LIMIT
    else a.isolate q

/-- DOM_STAT of a domain whose drop has ended: retained where something of it is (R359). -/
def offStat (x : Dom) (off : Bool) (ret : Nat) : Nat :=
  match x with
  | .lgl | .sys => b2n (!off)
  | .sha | .shb => b2n ((lostBanks x off ret).length < 8)
  | _ => 0

/-- R362: what stops with its domains: PLL_S with SYS, PLL_M with MET, the HFXO with both; the buck after a check. -/
def Dev.clocksOff (d : Dev) : Dev :=
  let sys := d.domStat .sys ≥ 2
  let met := d.domStat .met ≥ 2
  let d := { d with
    pwr.pllS := d.pwr.pllS && sys
    pwr.pllM := d.pwr.pllM && met
    pwr.hfxo := d.pwr.hfxo && (sys || met || d.watch.checking) }
  if d.cur == .watch && !d.watch.checking && d.pwr.waking.isNone && Dom.all.all (fun x => x == .aon || d.domStat x < 2) then
    { d with pwr.buck := .retention }
  else d

/-- R356: steps 4 and 5 end. -/
def Dev.domainOff (d : Dev) : Dev :=
  match d.pwr.drop with
  | none => d
  | some q =>
    if !q.decided then d
    else
      let x := q.dom
      let off := d.pwr.entry.any fun e => e.target == .off
      let lost := lostBanks x off q.ret
      let st := offStat x off q.ret
      let d := { d with pwr.drop := none }
      let d := (d.setF Fld.PWR_SEQ_DOM 0).setF Fld.PWR_SEQ_STEP 0
      let d := (d.resetDoms .drop [x]).setDom x st
      let d := if lost.isEmpty then d else d.loseBanks lost
      let d := if x == .sys then { d with watch.checkMode := false } else d
      let d := (d.incF (Fld.PWR_DOM_CNT_DROPS x.num)).raise Ev.PWR_DOM_DOWN
      let again := d.wanted x || q.again
      let d := if again then (d.incF (Fld.PWR_DOM_CNT_REWAKES x.num)).raise Ev.PWR_DROP_REWAKE else d
      let d := if again && x != .met && !d.on Fld.PWR_SUPPLY_PFW then { d with pwr.up := some x } else d
      let d := d.clocksOff.entryTryComplete
      if d.cur == .off then { d.loseBanks (List.range 22) with flow := {} }
      else d

/-! ### Power-ups (R361) -/

/-- A domain waits to be raised, or the chip is on its way up: the buck and the clocks are called for. -/
def Dev.calledUp (d : Dev) : Bool :=
  d.pwr.cold != .due && (d.pwr.waking.isSome || d.coldRising || d.watch.checking || d.pwr.up.isSome
    || Dom.all.any fun x => x != .aon && d.wanted x)

/-- R354, R361: the chip has reached RUN_NORMAL after a wake. -/
def Dev.runReached (d : Dev) : Bool :=
  d.pwr.waking.isSome && d.pwr.buck == .full && d.pwr.hfxo && d.pwr.pllS && d.pwr.drop.isNone && !d.watch.checkMode
    && Dom.all.all fun x => x == .met || !d.wanted x || d.domOn x

def Dev.runEnter (d : Dev) : Dev :=
  if d.runReached then
    let woke := d.pwr.waking == some true
    let owed := d.pwr.owed
    let d := { d with pwr.waking := none, pwr.wakeOpen := false, pwr.owed := none }
    let d := (d.clearRequest.enter .runNormal).raiseIf woke Ev.ROOSTER_WOKE
    match owed with
    | some t => d.runTo t
    | none => d
  else d

/-- The buck stands at 0.90 V, or in SLEEP at its 0.75 V. -/
def Dev.buckReady (d : Dev) : Bool := d.pwr.buck == .full || (d.pwr.buck == .low && d.pwr.waking.isNone)

/-- R361: one item's delay has elapsed. -/
def Dev.itemDone (d : Dev) (i : PowerItem) : Dev :=
  match i with
  | .buck =>
    if d.calledUp && (d.pwr.buck == .off || d.pwr.buck == .retention || (d.pwr.buck == .low && d.pwr.waking.isSome)) then
      { d with pwr.buck := .full }
    else d
  | .hfxo => if d.calledUp && d.pwr.buck == .full then { d with pwr.hfxo := true } else d
  | .pllS =>
    if d.pwr.hfxo && !d.pwr.pllS && d.wanted .sys && !(d.cur == .sleep && d.pwr.waking.isNone) then
      { d with pwr.pllS := true }.raise Ev.CLK_PLL_S_LOCK
    else d
  | .pllM =>
    if d.pwr.hfxo && !d.pwr.pllM && d.wanted .met then { d with pwr.pllM := true }.raise Ev.CLK_PLL_M_LOCK else d
  | .sys host unseal_ =>
    if d.pwr.up == some .sys && d.pwr.hfxo && d.buckReady then
      let d := (d.setB Fld.SYSCTL_STRAP_BOOT_HOST host).setB Fld.SYSCTL_STRAP_UNSEAL unseal_
      let d := if unseal_ then d.tamper [7] else d
      (d.decideLifecycle unseal_).domUp .sys
    else d
  | .met dieT =>
    if d.wanted .met && d.domStat .met < 2 && d.buckReady && d.pwr.cold != .due && !d.on Fld.PWR_SUPPLY_PFW then
      (d.domUp .met).metStart d.coldRising dieT
    else d
  | .dom x =>
    if x == .sys || x == .met then d
    else if d.pwr.up == some x && d.buckReady then d.domUp x
    else d

/-- R361: an item's delay has elapsed, and what follows from it. -/
def Dev.powerItem (d : Dev) (i : PowerItem) : Dev := (((d.upBegin.itemDone i).bootTry.appBootDue).watchStart).runEnter

/-- R363: a change of body bias is complete. -/
def Dev.biasDone (d : Dev) : Dev :=
  match d.pwr.bias with
  | some t => (({ d with pwr.bias := none } : Dev).clearRequest.enter t).raise Ev.CLK_CLK_SW
  | none => d

/-- R347: WAKE_HOLD has passed since RUN was reached. -/
def Dev.holdEnd (d : Dev) : Dev :=
  if d.pwr.waking.isNone then Dom.all.foldl (fun d x => d.hwSlot x 5 false) d else d

/-! ### Supplies and starts (R364, R365, R407, R408) -/

/-- Every domain but AON at once: switched off, with nothing retained in memories. -/
def Dev.allOff (d : Dev) (k : ResetKind) : Dev :=
  let xs := Dom.all.filter (· != .aon)
  let d := d.resetDoms k xs
  let d := xs.foldl (fun d x => (d.setDom x 0).setSlots x 0) d
  let d := d.loseBanks (List.range 22)
  let p := d.pwr
  let w := d.watch
  let d := { d with
    pwr := { cold := .due, coldWake := p.coldWake, coldBor := p.coldBor, wakeOpen := p.wakeOpen, vbatLow := p.vbatLow
             wakeAt := p.wakeAt, pin := p.pin, stretch := p.stretch, stretchAt := p.stretchAt }
    watch := { img := w.img, path := w.path, chan := w.chan }
    boot.started := false }
  let d := (d.clearRequest.setF Fld.PWR_SEQ_DOM 0).setF Fld.PWR_SEQ_STEP 0
  d.setF Fld.WATCH_STAT_CHECKING 0

/-- The bit `b` of RST_CAUSE is set. -/
def Dev.cause (d : Dev) (b : Nat) : Dev := d.setF Fld.SYSCTL_RST_CAUSE_CAUSE (d.f Fld.SYSCTL_RST_CAUSE_CAUSE ||| 2 ^ b)

/-- R365: a brown-out. -/
def Dev.brownOut (d : Dev) : Dev :=
  let d := (d.allOff .lose).setF Fld.PWR_SAVE_STAT_VALID 0
  { d with pwr.coldBor := true, pwr.coldWake := false, pwr.wakeOpen := false }

/-- R364: the power-fail warning begins; no domain is raised under it, and a power-up under way begins anew after it. -/
def Dev.pfwSet (d : Dev) : Dev :=
  if d.on Fld.PWR_SUPPLY_PFW then d
  else ({ (d.setF Fld.PWR_SUPPLY_PFW 1).setF Fld.PWR_SUPPLY_PFW_LATCH 1 with pwr.up := none } : Dev).raise Ev.PWR_PFW

/-- R364: the warning ends. -/
def Dev.pfwClear (d : Dev) : Dev :=
  if d.on Fld.PWR_SUPPLY_PFW then (d.setF Fld.PWR_SUPPLY_PFW 0).raise Ev.PWR_PFW_CLR else d

/-- The states in which the return of VDD asks for a wake (R370). -/
def PState.low : PState → Bool
  | .sleep | .deep | .watch | .off => true
  | _ => false

/-- R365, R370: AON moves to VBAT, whose voltage is measured. -/
def Dev.vbatSwitch (d : Dev) (vbat : Nat) : Dev :=
  if d.on Fld.PWR_SUPPLY_VBAT_ACTIVE then d
  else
    let d := (d.setF Fld.PWR_SUPPLY_VBAT_ACTIVE 1).raise Ev.PWR_VBAT_SW
    { d.vbatMeasure vbat with pwr.vbatLow := d.cur.low }

/-- R365, R370: AON returns to VDD. -/
def Dev.vddReturn (d : Dev) : Dev :=
  if d.on Fld.PWR_SUPPLY_VBAT_ACTIVE then
    let d := (d.setF Fld.PWR_SUPPLY_VBAT_ACTIVE 0).raise Ev.PWR_VBAT_SW
    let asks := d.pwr.vbatLow && d.cur.low
    let d := { d with pwr.vbatLow := false }
    if asks then d.wakeRequest [7] else d
  else d

/-- R408, R411: VDD is qualified and a cold start begins. -/
def Dev.coldStart (d : Dev) : Dev :=
  if d.pwr.cold == .due && !d.on Fld.PWR_SUPPLY_VBAT_ACTIVE then
    let d := if d.pwr.coldWake then d.cause 2 else d
    let d := if d.pwr.coldBor then ((d.cause 1).setF Fld.PWR_SUPPLY_BOR_SEEN 1).raise Ev.PWR_BOR_SEEN else d
    let d := if d.cur == .runNormal then d else d.enter .runNormal
    let d := Dom.all.foldl (fun d x => d.setSlots x 0) d
    let d := (d.hwSlot .lgl 0 true).hwSlot .per 0 true
    { d with pwr.cold := .rising, pwr.coldBor := false }
  else d

/-- R407: RST_N or SWRST, with bit `b` of RST_CAUSE. -/
def Dev.chipReset (d : Dev) (b : Nat) : Dev := (d.allOff .drop).cause b

/-- R407: an AON reset resets everything; flash, fuses and the FRAM outside keep what they hold. -/
def Dev.powerOn (d : Dev) : Dev :=
  { Dev.reset with
    otp := d.otp
    mem := { undef := (List.range 23).map fun b => (b, d.free), lfl := d.mem.lfl, afl := d.mem.afl, fram := d.mem.fram }
    fe.pins := d.fe.pins
    free := d.free + 1 }

/-- A reset of LGL without its power: the LC starts anew through the boot ROM (R240, R405, R407). -/
def Dev.lglReset (d : Dev) (b : Nat) : Dev :=
  if d.domOn .lgl then (((d.resetDoms .drop [.lgl]).cause b).bootBegin false).bootTry else d

/-- R421, R422: the loader ends, by DONE or by its time limit. -/
def Dev.loaderFinish (d : Dev) : Dev :=
  match d.boot.loader with
  | none => d
  | some l =>
    if l.lflProg then
      let d := d.loaderVotes false
      d.lglReset 7
    else d.loaderEnd l

/-! ### ROOSTER (R369–R374) -/

/-- R369: a level of the WAKE ball is accepted. -/
def Dev.wakePin (d : Dev) (level : Bool) : Dev :=
  { d with pwr.pin := b2n level == d.f Fld.ROOSTER_PIN_CFG_POL }.pinRequest

/-- R371–R373: an address on the I²C bus while PER is off; the general call and the bytes that begin a 10-bit address never
match. -/
def Dev.i2cMatch (d : Dev) (a : Nat) : Dev :=
  if d.domStat .per < 3 && d.wakeEnabled 4 && d.on Fld.I2CT_ADDR_EN && a == d.f Fld.I2CT_ADDR_ADDR && a != 0
      && a / 4 != 0x1E then
    if d.on Fld.ROOSTER_I2C_CFG_NACK_WAKE || d.cur == .off then (d.wakeRequest [4]).raise Ev.ROOSTER_I2C_WAKE
    else { d.uptimeNow.2 with pwr.stretch := true, pwr.stretchAt := d.uptimeNow.1 }.wakeRequest [4]
  else d

/-- R374: the stretch has lasted 2.0 ms, `n` periods; `running`: I2CT reports itself running in this period. -/
def Dev.i2cTimeout (d : Dev) (running : Bool) (n : Nat) : Dev :=
  if d.pwr.stretch then
    let d := { d with pwr.stretch := false }.setF Fld.ROOSTER_I2C_STAT_STRETCH (min 65535 n)
    if running then d.raise Ev.ROOSTER_AT_LIMIT
    else (d.incF Fld.ROOSTER_I2C_STAT_TO_CNT).raise Ev.ROOSTER_I2C_TO
  else d

/-! ### Registers computed on read -/

/-- SEQ as it reads: a power-up shows as step 6. -/
def Dev.seqWord (d : Dev) : Nat :=
  if d.f Fld.PWR_SEQ_STEP != 0 || d.f Fld.PWR_SEQ_DOM != 0 then d.rd Reg.PWR_SEQ
  else match d.pwr.up with
    | some x => x.num + 96
    | none => 0

/-- R362, R363: the AC clock in units of 8 MHz. -/
def Dev.acMhz (d : Dev) : Nat :=
  if !d.domOn .app then 0
  else
    let point := if d.cur == .idle then d.pwr.idleFrom else d.cur
    let div := d.f Fld.CLK_AC_DIV_DIV
    let div := if point == .runHigh && d.pwr.bias.isNone then div else max 1 div
    24 / 2 ^ div

/-- CLK_STAT as it reads. -/
def Dev.clkStat (d : Dev) : Nat :=
  let src := if d.watch.checkMode then 2 else if d.pwr.pllS then 0 else if d.cur == .sleep then 1 else 2
  b2n d.pwr.hfxo + b2n d.pwr.pllS * 2 + b2n d.pwr.pllM * 4 + src * 8 + d.acMhz * 32

/-- WATCH.STAT as it reads. -/
def Dev.watchStat (d : Dev) : Nat × Dev :=
  if d.cur == .watch then
    match d.uptimeNow with
    | (now, d) =>
      let left := (d.watch.due + 2 ^ 48 - now) % 2 ^ 48
      (d.rd Reg.WATCH_STAT + (if left < 2 ^ 47 then min 4095 (ceilDiv left 32768) else 0) * 2 ^ 16, d)
  else (d.rd Reg.WATCH_STAT, d)

end Sys2Proof.Machine
end

