-- ==== Sys2Proof/Machine/Ports.lean ====
section
/-! DEFINITION. The DPM ports, MSPI, the HSPI DMA, the UART and debug availability (R198–R201, R382–R406); the transactions
of the host port stand in HostPort.lean. -/

namespace Sys2Proof.Machine

/-- R356: a domain in step 1 or 2 of a drop, whose accesses are held. -/
def Dev.quiescing (d : Dev) (x : Dom) : Bool := d.pwr.drop.any fun q => q.dom == x && !q.decided

/-- R195: a clear of the memories runs. -/
def Dev.clearing (d : Dev) : Bool := d.on Fld.MEMCTL_CLEAR_BUSY

/-! ### DPM collisions (R199–R201) -/

/-- R199: a collision on word `w`; `b`: port B is the later port. -/
def Dev.collide (d : Dev) (w : Nat) (b : Bool) : Dev :=
  let d := (d.incF Fld.DPM_DPM_STAT_COLL_CNT).setB Fld.DPM_DPM_STAT_LAST_LATER b
  let d := d.wr Reg.DPM_COLL_ADDR w
  d.raise (if b then Ev.DPM_COLL_B else Ev.DPM_COLL_A)

/-- R199: the accesses of `c` on word `w` collide with one that writes (`write`) or reads. -/
def PortClash.hits (c : PortClash) (w : Nat) (write : Bool) : Bool := c.word == w && c.otherWrites != write

/-- R199, R200: whether a port A access to word `w` has to wait, and what the collision leaves.  A collision is counted by
the later of its two accesses; COLL_A tells every port A access that is retried or held. -/
def Dev.portA (d : Dev) (clash : Option PortClash) (w : Nat) (write : Bool) : Bool × Dev :=
  match clash with
  | some c =>
    if c.hits w write then
      let d := if c.selfLater then d.collide w false else d.raiseIf (!write) Ev.DPM_COLL_A
      (!write || c.selfLater, d)
    else (false, d)
  | none => (false, d)

/-- R201: a port B access to word `w` is the later one of a collision. -/
def Dev.portB (d : Dev) (clash : Option PortClash) (w : Nat) (write : Bool) : Bool :=
  d.domOn .per && clash.any fun c => c.hits w write && c.selfLater

/-- R199, R200: `n` words from word `w` on are read through port A by the flash controller or the boot ROM; a collision
retries the read, which returns what then stands there. -/
def Dev.portAReads (d : Dev) (clash : Option PortClash) (w n : Nat) : Dev :=
  match clash with
  | some c => if w ≤ c.word && c.word < w + n then (d.portA clash c.word false).2 else d
  | none => d

/-- R201, R390: the DPM_BUSY ball. -/
def Dev.dpmBusy (d : Dev) : Bool := !d.domOn .per || d.ports.host.tx.any (·.coll)

/-- R199: COLL_CLR. -/
def Dev.collClr (d : Dev) : Dev := d.setF Fld.DPM_DPM_STAT_COLL_CNT 0

/-! ### MSPI (R397–R401) -/

/-- R398: the clocks of the longer of a context read and a context write. -/
def Dev.mspiClocks (d : Dev) : Nat :=
  let w := match d.f Fld.MSPI_CFG_MODE with
    | 1 => 2
    | 2 => 4
    | _ => 1
  max (8 + 24 / w + d.f Fld.MSPI_CFG_DUMMY + 2048 / w) (18 + 24 / w + 2048 / w)

/-- R397, R398: T_X in µs as a fraction; none while MSPI has no clock. -/
def Dev.mspiTx (d : Dev) : Option (Nat × Nat) :=
  if d.pwr.pllS then some (d.mspiClocks * max 20 (d.f Fld.MSPI_CFG_DIV), 768)
  else if d.cur == .sleep then some (d.mspiClocks * max 1 (d.f Fld.MSPI_CFG_SDIV), 16)
  else none

/-- R398: TX_NOW and TX_OK follow the settings and the state. -/
def Dev.mspiRefresh (d : Dev) : Dev :=
  if d.domOn .per then
    match d.mspiTx with
    | some (n, q) =>
      let ok := decide (n ≤ 46 * q)
      let was := d.on Fld.MSPI_STAT_TX_OK
      ((d.wr Reg.MSPI_TX_NOW (ceilDiv (10 * n) q)).setB Fld.MSPI_STAT_TX_OK ok).raiseIf (was && !ok) Ev.MSPI_TX_SLOW
    | none => d
  else d

/-- MULE or BILL is at work with the FRAM. -/
def Dev.framBusy (d : Dev) : Bool :=
  d.mule.op.isSome || d.mule.store == .restoring || d.mule.store == .formatting
  || (d.mule.epoch.any fun e => e.phase == .saving) || d.bill.out.isSome || d.bill.reading.isSome

/-- R399: a failed transfer is the cause FRAM of the operation that made it; an epoch is abandoned at once (R223). -/
def Dev.framFailed (d : Dev) : Dev :=
  if d.mule.op.isSome || d.mule.store == .restoring || d.mule.store == .formatting then { d with mule.framBad := true }
  else if d.muleSaving then (d.epochDrop causeFram).startOwed.muleGo
  else d.ringFailed

/-- R399, R400: a transfer and its status check have ended, with status byte `st`; `atLimit`: in the clock in which its
time expired. -/
def Dev.mspiDone (d : Dev) (st : Nat) (atLimit : Bool) : Dev :=
  if d.domOn .per && d.framBusy then
    let d := (d.incWrap Reg.MSPI_XFER_CNT).setF Fld.MSPI_STAT_SR_LAST st
    let d := if atLimit then (d.setF Fld.MSPI_STAT_AT_LIMIT 1).raise Ev.MSPI_AT_LIMIT else d
    if st &&& d.f Fld.MSPI_SR_CHK_MASK == d.f Fld.MSPI_SR_CHK_EXP then d.setF Fld.MSPI_STAT_RESULT 0
    else (((d.setF Fld.MSPI_STAT_RESULT 1).inc Reg.MSPI_FAIL_CNT).raise Ev.MSPI_FAIL).framFailed
  else d

/-- R400: a transfer has taken XFER_TMO. -/
def Dev.mspiTimeout (d : Dev) : Dev :=
  if d.domOn .per then
    let late := fun (d : Dev) => ((d.setF Fld.MSPI_STAT_RESULT 2).inc Reg.MSPI_FAIL_CNT).raise Ev.MSPI_TIMEOUT
    if d.framBusy then (late d).framFailed
    else match d.ports.dir with
      | some _ => late ({ d with ports.dir := none } : Dev)
      | none => d
  else d

/-- R401: GO has been written with DIR_CTRL. -/
def Dev.dirGo (d : Dev) : Dev :=
  if d.on Fld.MULE_CTRL_EN then d.setF Fld.MSPI_STAT_RESULT 3
  else if d.ports.dir.isSome then d
  else { d with ports.dir := some ⟨d.on Fld.MSPI_DIR_CTRL_READ, min 64 (d.f Fld.MSPI_DIR_CTRL_LEN)⟩ }

/-- R401: the direct transfer in progress ends, having read `rx` where it reads. -/
def Dev.dirDone (d : Dev) (rx : List Byte) : Dev :=
  match d.ports.dir with
  | none => d
  | some x =>
    let d : Dev := { d with ports.dir := none }
    let d := if x.read then
        (((rx.take x.len).zipIdx).foldl (fun (d : Dev) (p : Byte × Nat) =>
          let a := Reg.MSPI_DIR_DATA (p.2 / 4)
          d.wr a (setBits (d.rd a) (8 * (p.2 % 4)) 8 p.1.toNat)) d)
      else d
    ((d.incWrap Reg.MSPI_XFER_CNT).setF Fld.MSPI_STAT_RESULT 0).raise Ev.MSPI_DIR_DONE

/-! ### HSPI DMA (R392) -/

/-- GO has been written with DMA_CTRL. -/
def Dev.dmaGo (d : Dev) : Dev :=
  match d.ports.dma with
  | some _ => d
  | none =>
    let q : HostDma := {
      dpm := d.f Fld.HSPI_DMA_DPM_WORD, bank := d.f Fld.HSPI_DMA_S_BANK, word := d.f Fld.HSPI_DMA_S_WORD
      len := min 2048 (max 1 (d.f Fld.HSPI_DMA_LEN_LEN)), toDpm := d.on Fld.HSPI_DMA_CTRL_DIR }
    ({ d with ports.dma := some q } : Dev).setF Fld.HSPI_DMA_CTRL_BUSY 1

/-- R200: the port A access of the HSPI DMA to word `w` of bank `b`, where it meets port B; whether it is served. -/
def Dev.dmaPort (d : Dev) (c : Option DmaClash) (b w : Nat) (write : Bool) : Bool × Dev :=
  match c with
  | some c =>
    if b = 20 then
      match d.portA (some c.clash) w write with
      | (true, d) =>
        (c.served, if c.served && c.atLimit then (d.setF Fld.DPM_DPM_STAT_AT_LIMIT 1).raise Ev.DPM_AT_LIMIT else d)
      | (false, d) => (true, d)
    else (true, d)
  | none => (true, d)

/-- One word from bank `b1` to bank `b2` by group HOSTDMA; whether it was copied. -/
def Dev.dmaWord (d : Dev) (c : Option DmaClash) (b1 w1 b2 w2 : Nat) : Bool × Dev :=
  if !d.domOn (bankDom b1) || !d.domOn (bankDom b2) || bankWords b1 ≤ w1 || bankWords b2 ≤ w2 then (false, d)
  else match (d.drained 6 b1).dmaPort c b1 w1 false with
    | (false, d) => (false, d)
    | (true, d) => match d.memRead 6 b1 w1 with
      | (none, d) => (false, d)
      | (some x, d) => match (d.drained 6 b2).dmaPort c b2 w2 true with
        | (false, d) => (false, d)
        | (true, d) => d.memWrite 6 b2 w2 x

/-- `n` words; stops at the first that is refused. -/
def Dev.dmaCopy (c : Option DmaClash) (b1 b2 : Nat) : Nat → Nat → Nat → Dev → Bool × Dev
  | 0, _, _, d => (true, d)
  | n + 1, w1, w2, d =>
    match d.dmaWord c b1 w1 b2 w2 with
    | (true, d) => Dev.dmaCopy c b1 b2 n (w1 + 1) (w2 + 1) d
    | (false, d) => (false, d)

/-- R392: the copy in progress completes, or stops on a refused access; `c`: how port B meets one of its words. -/
def Dev.dmaDone (d : Dev) (c : Option DmaClash) : Dev :=
  match d.ports.dma with
  | none => d
  | some q =>
    if d.clearing then d
    else
      let d := ({ d with ports.dma := none } : Dev).setF Fld.HSPI_DMA_CTRL_BUSY 0
      match (if q.toDpm then Dev.dmaCopy c q.bank 20 q.len q.word q.dpm d
        else Dev.dmaCopy c 20 q.bank q.len q.dpm q.word d) with
      | (true, d) => d.raise Ev.HSPI_DMA_DONE
      | (false, d) => d.raise Ev.HSPI_DMA_ERR

/-! ### UART (R402, R403) -/

def Dev.uartDma (d : Dev) (x : Nat) : Bool := d.on (Fld.UART_DMA_CFG_EN x)

/-- The ring or the transmit area of engine `x`: word `w` of its bank; none where it is not reached. -/
def Dev.uartWord (d : Dev) (x w : Nat) : Option (Nat × Nat) :=
  let b := d.f (Fld.UART_DMA_CFG_BANK x)
  let i := d.f (Fld.UART_DMA_CFG_WORD0 x) + w
  if d.domOn (bankDom b) && i < bankWords b then some (b, i) else none

/-- R403: an engine stops. -/
def Dev.uartStop (d : Dev) (x : Nat) : Dev := d.setF (Fld.UART_DMA_CFG_EN x) 0

/-- R403: four received bytes as one word into the ring; bytes that do not fill a word stay in the FIFO. -/
def Dev.uartRing : Nat → Dev → Dev
  | 0, d => d
  | n + 1, d =>
    let len := d.f (Fld.UART_DMA_LEN_LEN 0)
    if d.uartDma 0 && !d.ports.uart.stop && 4 ≤ d.ports.uart.rx.length && len != 0 then
      let p := d.f (Fld.UART_DMA_PTR_PTR 0)
      match d.uartWord 0 p with
      | none => d.uartStop 0
      | some (b, w) =>
        match (d.drained 6 b).memWrite 6 b w (leNat (d.ports.uart.rx.take 4)) with
        | (true, d) =>
          let d : Dev := { d with ports.uart.rx := d.ports.uart.rx.drop 4 }
          Dev.uartRing n (d.setF (Fld.UART_DMA_PTR_PTR 0) (if p + 1 < len then p + 1 else 0))
        | (false, d) => d.uartStop 0
    else d

/-- R403: the next byte of the transmit engine, if it has one; a refused or uncorrectable word stops it. -/
def Dev.uartDmaByte (d : Dev) : Option Byte × Dev :=
  let p := d.f (Fld.UART_DMA_PTR_PTR 1)
  if d.uartDma 1 && p < d.f (Fld.UART_DMA_LEN_LEN 1) then
    match d.uartWord 1 (p / 4) with
    | none => (none, d.uartStop 1)
    | some (b, w) =>
      match (d.drained 6 b).memRead 6 b w with
      | (some x, d) => (some (BitVec.ofNat 8 (bits x (8 * (p % 4)) 8)), d.setF (Fld.UART_DMA_PTR_PTR 1) (p + 1))
      | (none, d) => (none, d.uartStop 1)
  else (none, d)

/-- R402, R403: with nothing being sent, the next byte is taken from the FIFO, or from the transmit engine. -/
def Dev.uartSend (d : Dev) : Dev :=
  if d.on Fld.UART_CFG_EN && d.ports.uart.out.isNone && !d.ports.uart.stop then
    match d.ports.uart.tx with
    | b :: t => { d with ports.uart.tx := t, ports.uart.out := some b, ports.uart.last := false }
    | [] =>
      match d.uartDmaByte with
      | (some b, d) =>
        let ended := d.f (Fld.UART_DMA_PTR_PTR 1) == d.f (Fld.UART_DMA_LEN_LEN 1)
        { d with ports.uart.out := some b, ports.uart.last := ended }
      | (none, d) => d
  else d

/-- R402: a byte has been received, with a framing or a parity error. -/
def Dev.uartRx (d : Dev) (b : Byte) (fe pe : Bool) : Dev :=
  if d.domOn .per && d.on Fld.UART_CFG_EN then
    let pe := pe && (d.f Fld.UART_CFG_PARITY == 1 || d.f Fld.UART_CFG_PARITY == 2)
    let full := decide (16 ≤ d.ports.uart.rx.length)
    let d := if fe then d.setF Fld.UART_STAT_FE 1 else d
    let d := if pe then d.setF Fld.UART_STAT_PE 1 else d
    let d := if full then d.setF Fld.UART_STAT_OVR 1 else d
    let d := d.raiseIf (fe || pe || full) Ev.UART_RX_ERR
    if full then d
    else Dev.uartRing 4 (({ d with ports.uart.rx := d.ports.uart.rx ++ [b] } : Dev).raise Ev.UART_RX_DATA)
  else d

/-- R402, R403: the byte being sent is out. -/
def Dev.uartTxDone (d : Dev) : Dev :=
  match d.ports.uart.out with
  | none => d
  | some _ =>
    let ended := d.ports.uart.last
    let d := ({ d with ports.uart.out := none, ports.uart.last := false } : Dev).uartSend
    (d.raiseIf d.ports.uart.out.isNone Ev.UART_TX_EMPTY).raiseIf ended Ev.UART_DMA_DONE

/-- R402: a byte written to DATA; a full FIFO does not take it. -/
def Dev.uartPush (d : Dev) (b : Byte) : Dev :=
  if 16 ≤ d.ports.uart.tx.length then d else ({ d with ports.uart.tx := d.ports.uart.tx ++ [b] } : Dev).uartSend

/-- R402: a byte read from DATA; an empty FIFO gives no stated value. -/
def Dev.uartPop (d : Dev) : Nat × Dev :=
  match d.ports.uart.rx with
  | b :: t => (b.toNat, { d with ports.uart.rx := t })
  | [] => (d.fresh.1.toNat % 256, d.fresh.2)

/-- R403: DMA_CFG of engine `x` has been written; `was`: EN before. -/
def Dev.uartDmaSet (d : Dev) (x : Nat) (was : Bool) : Dev :=
  if d.uartDma x && !was then
    let d := d.setF (Fld.UART_DMA_PTR_PTR x) 0
    if x = 0 then Dev.uartRing 4 d else d.uartSend
  else d

/-- R356: an undone drop of PER lets the UART go on. -/
def Dev.uartGo (d : Dev) : Dev :=
  if d.ports.uart.stop && d.domOn .per && !d.quiescing .per then
    Dev.uartRing 4 { d with ports.uart.stop := false }.uartSend
  else d

/-- UART STAT as it reads. -/
def Dev.uartStat (d : Dev) : Nat :=
  d.rd Reg.UART_STAT + d.ports.uart.rx.length + d.ports.uart.tx.length * 256

/-! ### Debug (R404–R406) -/

/-- R406: boundary scan and LC debug are available. -/
def Dev.lcDebug (d : Dev) : Bool :=
  match d.lifecycle with
  | .blank | .provisioned | .unsealed => true
  | _ => false

/-- R406: AC debug is available. -/
def Dev.acDebug (d : Dev) : Bool :=
  match d.lifecycle with
  | .blank | .provisioned => true
  | .sealed | .unsealed => !d.on Fld.DEBUG_DBG_STAT_AC_LOCK
  | .retired => false

/-- R404, R406: the instruction that a code selects. -/
def Dev.jtagSelect (d : Dev) (ir : Nat) : Nat :=
  let ok := match ir with
    | 0x01 => true
    | 0x00 | 0x02 | 0x12 | 0x13 => d.lcDebug
    | 0x10 | 0x11 => d.acDebug
    | _ => false
  if ok then ir else 0x1F

/-- R404: an instruction is loaded. -/
def Dev.jtagIr (d : Dev) (ir : BitVec 5) : Dev :=
  if d.domOn .sys then
    ({ d with ports.ir := BitVec.ofNat 5 (d.jtagSelect ir.toNat) } : Dev).setF Fld.DEBUG_DBG_STAT_TCK_SEEN 1
  else d

/-- R404: the debugger reaches a core's Debug Module through its DMI instruction. -/
def Dev.dmi (d : Dev) (id : CoreId) : Dev := d.jtagIr (if id == .lc then 0x13 else 0x11)

/-- DBG_STAT as it reads. -/
def Dev.dbgStat (d : Dev) : Nat :=
  d.rd Reg.DEBUG_DBG_STAT + b2n d.lcDebug + b2n d.acDebug * 2 + b2n d.lcDebug * 4 + b2n d.lc.halted * 32 + b2n d.ac.halted * 64

end Sys2Proof.Machine
end

