-- ==== Sys2Proof/Machine/RegRead.lean ====
section
/-! DEFINITION. What a granted word read of a register page returns, and what it does besides (R12, R14, R16, R27, R31,
R55, R108, R161, R252, R327, R402, R431). -/

namespace Sys2Proof.Machine

/-- The place of page offset `off` in an array of `count` registers `stride` bytes apart from `base` on. -/
def nth (off base count stride : Nat) : Option Nat :=
  if base ≤ off && (off - base) % stride == 0 && (off - base) / stride < count then some ((off - base) / stride) else none

/-- The register as it stands, WO fields reading 0 (R12). -/
def Dev.plain (d : Dev) (a : Nat) : Nat :=
  let x := d.rd a
  x - (x &&& fieldMask (fun f => f.ty == .wo) (fieldsOf a))

def Dev.cap (d : Dev) (r : Requester) : Captures := d.caps[r.capture]

def Dev.setCap (d : Dev) (r : Requester) (c : Captures) : Dev := { d with caps := d.caps.set r.capture c }

/-! ### The header (R31) -/

def Dev.headerRead (d : Dev) (p : Page) (off : Nat) : Nat :=
  if off == 0 then p.num
  else if off == 4 then 0x100
  else if off == 8 then p.owner.code
  else if off == 0xC then
    d.rd (Reg.PG_LOCK p) + b2n (!d.unsealed && (pageRows p).any fun w => w.fields.any (·.ty == .rwu)) * 2
  else d.rd (pageBase p + off)

/-! ### Pairs (R16) -/

/-- Whether page offset `off` is the low (`true`) or the high word of a 64-bit pair. -/
def pairPlace (p : Page) (off : Nat) : Option Bool :=
  let at_ := fun (lo hi base count stride : Nat) =>
    if (nth off (base + lo) count stride).isSome then some true
    else if (nth off (base + hi) count stride).isSome then some false else none
  match p with
  | .energy =>
    if (0x200 ≤ off && off < 0x450) || (0x500 ≤ off && off < 0x550) then some (off % 8 == 0) else none
  | .mae => at_ 0 4 0xA0 4 8
  | .flow => at_ 0 4 0x508 4 0x20
  | .rtc => at_ 0 4 0x4C 1 4
  | .bill => (at_ 0 4 0x118 4 0x80).or (at_ 0 4 0x120 4 0x80)
  | .prepay => (at_ 0 4 0x12C 1 4).or (at_ 0 4 0x184 4 0x10)
  | .lcd => at_ 0 4 0x108 32 0x10
  | _ => none

/-- R16: a read of the low word captures the high word for the reader. -/
def Dev.lowRead (d : Dev) (r : Requester) (a : Nat) : Nat × Dev :=
  if a == Reg.RTC_UPTIME_LO then
    match d.uptimeNow with
    | (t, d) => (t % 2 ^ 32, d.setCap r { d.cap r with hi := BitVec.ofNat 32 (t / 2 ^ 32) })
  else (d.plain a, d.setCap r { d.cap r with hi := BitVec.ofNat 32 (d.plain (a + 4)) })

/-! ### Pages -/

def Dev.readRtc (d : Dev) (r : Requester) (off : Nat) : Nat × Dev :=
  if off == 0x40 then d.subNow.2.timeLoRead r d.subNow.1
  else if off == 0x44 then ((d.cap r).timeHi.toNat, d)
  else if off == 0x48 then ((d.cap r).subsec.toNat, d)
  else if off == 0x54 then (d.rtcStatus, d)
  else (d.plain (pageBase .rtc + off), d)

def Dev.readMae (d : Dev) (r : Requester) (off : Nat) : Nat × Dev :=
  if off == 0x48 then d.nowRead r
  else if off == 0x4C then ((d.cap r).nowCyc.toNat, d)
  else (d.plain (pageBase .mae + off), d)

def Dev.readHerd (d : Dev) (off : Nat) : Nat :=
  if off == 0x48 then d.herdStatus
  else if off == 0x4C then d.herdUnitBusy
  else if off == 0x88 then d.peekDue
  else if off == 0x8C then d.peekState
  else d.plain (pageBase .herd + off)

/-- R431, R432: EVTMX; the application side sees nothing of the events of CRYPTO. -/
def Dev.readEvtmx (d : Dev) (r : Requester) (off : Nat) : Nat :=
  let shown := fun (e : Nat) => r.legal || !hiddenEvent e
  match nth off 0x40 10 4, nth off 0x80 4 4 with
  | some w, _ => maskOf ((List.range 32).filter fun b => d.pendEn (32 * w + b) && shown (32 * w + b))
  | _, some t =>
    match (List.range 320).find? fun e => d.pendEn e && d.routed e t && shown e with
    | some e => e
    | none => 2 ^ 15
  | _, _ => d.plain (pageBase .evtmx + off)

def Dev.readFwall (d : Dev) (off : Nat) : Nat × Dev :=
  if off == 0x44 then (d.enaStat, d)
  else if off == 0x50 then
    match d.lwdgLeft with
    | (x, d) => (setBits (d.rd Reg.FWALL_LWDG_STAT) 0 10 x, d)
  else (d.plain (pageBase .fwall + off), d)

/-- R161: QSTAT fills the reader's shadow, and the other per-cycle registers are read from it. -/
def Dev.readQty (d : Dev) (r : Requester) (off : Nat) : Nat × Dev :=
  let a := pageBase .metQty + off
  if off == 0x40 then (d.plain a, d.setCap r { d.cap r with qty := d.qtyShadow })
  else if isQtyReg a then (((d.cap r).qty.get regReset a).toNat, d)
  else (d.plain a, d)

/-- R108: RES_STAT_n fills the reader's shadow. -/
def Dev.resRead (d : Dev) (r : Requester) (n : Nat) : Nat × Dev :=
  let c := d.cap r
  let ws := (resultRegs n).map fun a => BitVec.ofNat 32 (d.rd a)
  (d.plain (Reg.UFE_TOF_RES_STAT n), d.setCap r { c with res := ws })

def Dev.readTof (d : Dev) (r : Requester) (off : Nat) : Nat × Dev :=
  if off == 0x104 then (d.waveCtrl, d)
  else match nth off 0x800 512 4 with
    | some w => (d.waveWord w, d)
    | none =>
      if 0x200 ≤ off && off < 0x300 && off % 0x40 < 0x20 && off % 4 == 0 then
        let n := (off - 0x200) / 0x40
        if off % 0x40 == 0 then d.resRead r n
        else ((((d.cap r).res[off % 0x40 / 4 - 1]?).getD 0).toNat, d)
      else (d.plain (pageBase .ufeTof + off), d)

def Dev.readFlow (d : Dev) (off : Nat) : Nat :=
  match nth off 0x500 4 0x20 with
  | some n => d.flowStat n
  | none => d.plain (pageBase .flow + off)

def Dev.readRtd (d : Dev) (off : Nat) : Nat :=
  if off == 0x204 then d.rtdStatus
  else match nth off 0x100 8 0x10 with
    | some n => d.rtdStat n
    | none => d.plain (pageBase .rtd + off)

def Dev.readBill (d : Dev) (off : Nat) : Nat × Dev :=
  match nth off 0x400 24 4 with
  | some w => d.recBodyWord w
  | none => (d.plain (pageBase .bill + off), d)

/-- PREPAY; the application side reads 0 at 0x100–0x17F. -/
def Dev.readPrepay (d : Dev) (r : Requester) (off : Nat) : Nat × Dev :=
  if !r.legal && 0x100 ≤ off && off < 0x180 then (0, d)
  else if off == 0x140 then d.loginRead
  else if off == 0x150 then d.lockRead
  else match nth off 0x180 4 0x10 with
    | some k => (d.ppStat k, d)
    | none => (d.plain (pageBase .prepay + off), d)

/-- R327: the key FIFO and KEY_STAT, which the application side reads as 0. -/
def Dev.readKeypad (d : Dev) (r : Requester) (off : Nat) : Nat × Dev :=
  if off == 0x44 then (if r.legal then d.fifoPop else (0, d))
  else if off == 0x48 then (if r.legal then d.keyStat else 0, d)
  else (d.plain (pageBase .keypad + off), d)

/-- A granted read of page offset `off`, from 0x040 on, that is no word of a pair. -/
def Dev.pageRead (d : Dev) (r : Requester) (p : Page) (off : Nat) : Nat × Dev :=
  let x := d.plain (pageBase p + off)
  match p with
  | .pwr => (if off == 0x4C then d.seqWord else x, d)
  | .clk => (if off == 0x48 then d.clkStat else x, d)
  | .rooster => (if off == 0x40 then x ||| 4 else x, d)
  | .rtc => d.readRtc r off
  | .mae => d.readMae r off
  | .herd => (d.readHerd off, d)
  | .mule => (if off == 0x44 then d.muleStatus else x, d)
  | .evtmx => (d.readEvtmx r off, d)
  | .fwall => d.readFwall off
  | .metFe => (if off == 0x1C4 then b2n d.mae.running else x, d)
  | .metQty => d.readQty r off
  | .ufeTof => d.readTof r off
  | .flow => (d.readFlow off, d)
  | .rtd => (d.readRtd off, d)
  | .therm => ((match nth off 0x208 4 0x10 with
    | some k => d.heatWord k
    | none => x), d)
  | .bill => d.readBill off
  | .prepay => d.readPrepay r off
  | .lcd => (if off == 0x78 then d.dispSym else x, d)
  | .keypad => d.readKeypad r off
  | .i2ct => (if off == 0x48 then setBits x 4 1 1 else x, d)
  | .mspi => (if off == 0x50 then setBits x 0 1 (b2n (d.ports.dir.isSome || d.framBusy)) else x, d)
  | .uart => if off == 0x48 then d.uartPop else (if off == 0x4C then d.uartStat else x, d)
  | .dpm => (if off == 0x40 then setBits x 18 1 (b2n d.dpmBusy) else x, d)
  | .debug => (if off == 0x40 then d.dbgStat else x, d)
  | .watch => if off == 0x60 then d.watchStat else (x, d)
  | .sysctl | .gander | .memctl | .metCal | .energy | .pulse | .ufeDrv | .ufeRx | .tariff | .crypto | .lamp
  | .hspi | .lglmbx | .fuse => (x, d)

/-- A granted word read of a register page. -/
def Dev.regRead (d : Dev) (r : Requester) (p : Page) (off : Nat) : Nat × Dev :=
  if off < 0x40 then (d.headerRead p off, d)
  else if p == .prepay && !r.legal && 0x100 ≤ off && off < 0x180 then (0, d)
  else match pairPlace p off with
    | some true => d.lowRead r (pageBase p + off)
    | some false => ((d.cap r).hi.toNat, d)
    | none => d.pageRead r p off

end Sys2Proof.Machine
end

