-- ==== Sys2Proof/Machine/RegWrite.lean ====
section
/-! DEFINITION. What a granted word write of a register page does: the field types (R12–R14, R31), and the registers whose
writes start something. -/

namespace Sys2Proof.Machine

/-! ### Field types -/

/-- R12: what a field comes to by a write of `v` over `old`; `lock`: the page's lock stands; `legal`: the writer is on the
legal side. -/
def FieldRow.next (f : FieldRow) (old v : Nat) (lock legal unsealed : Bool) : Nat :=
  let o := bits old f.lo f.width
  let n := bits v f.lo f.width
  match f.ty with
  | .rw => if lock then o else n
  | .ro | .wo => o
  | .w1c => o - (o &&& n)
  | .w1s => o ||| n
  | .rwo => if legal then n else o
  | .rwu => if unsealed then n else o

/-- The word that a register of fields `fs` comes to. -/
def fieldsAfter (fs : List FieldRow) (old v : Nat) (lock legal unsealed : Bool) : Nat :=
  sumN (fs.map fun f => f.next old v lock legal unsealed * 2 ^ f.lo)

/-- R31: whether the page's lock makes its RW fields at `off` read-only. -/
def Dev.locked (d : Dev) (p : Page) (off : Nat) : Bool := 0x40 ≤ off && bit (d.rd (Reg.PG_LOCK p)) 0

/-- The word that a write of `v` by `r` leaves by the field types alone. -/
def Dev.afterWrite (d : Dev) (r : Requester) (p : Page) (off v : Nat) : Nat :=
  fieldsAfter (fieldsAt p off) (d.rd (pageBase p + off)) v (d.locked p off) r.legal d.unsealed

/-! ### The header (R30, R31) -/

/-- R30: the events of page `p` among the header bits `m` are forwarded where they are pending. -/
def Dev.forwardBits (d : Dev) (p : Page) (m : Nat) : Dev :=
  match p.events with
  | some (b, n) => forUpto n (fun k d => if bit m k then d.forward (b + k) else d) d
  | none => d

/-- R30: a write of EVT_EN forwards at once what is pending and newly enabled. -/
def Dev.evtEnSet (d : Dev) (p : Page) (new : Nat) : Dev :=
  let was := d.rd (Reg.EVT_EN p)
  (d.wr (Reg.EVT_EN p) new).forwardBits p (new - (new &&& was))

/-- R30: a write of EVT_ROUTE that newly routes a page TO_WAKE forwards what is pending. -/
def Dev.evtRouteSet (d : Dev) (p : Page) (new : Nat) : Dev :=
  let was := d.rd (Reg.EVT_ROUTE p)
  let d := d.wr (Reg.EVT_ROUTE p) new
  if bit new 3 && !bit was 3 then d.forwardBits p (2 ^ 32 - 1) else d

def Dev.headerWrite (d : Dev) (p : Page) (off new : Nat) : Dev :=
  if off == 0x14 then d.evtEnSet p new
  else if off == 0x1C then d.evtRouteSet p new
  else d.wr (pageBase p + off) new

/-! ### Pages: `v` is the word written, `new` what the field types make of it -/

def Dev.writeSysctl (d : Dev) (r : Requester) (off v new : Nat) : Dev :=
  if off == 0x5C then
    let d :=
      if r.legal then
        let d := d.setF Fld.SYSCTL_AC_CTRL_HOLD (bits new 1 1)
        if bit new 1 then d.acReset else d
      else d
    d.raiseIf (bit v 2 && r.isAc) Ev.SYSCTL_RESTART_REQ
  else if off == 0x60 then (if r.legal && bit v 31 && bits v 0 16 == 0xC724 then d.chipReset 4 else d)
  else if off == 0x68 then d.aflCmd r v
  else d.wr (pageBase .sysctl + off) new

/-- The domain with number `n`. -/
def Dom.ofNum (n : Nat) : Dom := (Dom.all[n]?).getD .aon

/-- R364, R365: a write of SUPPLY. -/
def Dev.supplyWrite (d : Dev) (r : Requester) (v : Nat) : Dev :=
  let d := if bit v 3 then d.setF Fld.PWR_SUPPLY_BOR_SEEN 0 else d
  if bit v 1 && r.legal && !d.on Fld.PWR_SUPPLY_PFW then d.setF Fld.PWR_SUPPLY_PFW_LATCH 0 else d

def Dev.writePwr (d : Dev) (r : Requester) (off v new : Nat) : Dev :=
  if off == 0x40 then (if bit v 31 then d.cmdState (bits v 0 4) else d)
  else if off == 0x108 then d.supplyWrite r v
  else match nth off 0x64 9 0x10, nth off 0x68 9 0x10 with
    | some i, _ => d.voteSet r (Dom.ofNum (i + 1)) (bits v 0 16)
    | _, some i => d.voteClr r (Dom.ofNum (i + 1)) (bits v 0 16)
    | _, _ => d.wr (pageBase .pwr + off) new

/-- R369: a change of POL turns what the WAKE ball is accepted as. -/
def Dev.writeRooster (d : Dev) (off new : Nat) : Dev :=
  let flip := off == 0x44 && bits new 0 1 != d.f Fld.ROOSTER_PIN_CFG_POL
  let d := d.wr (pageBase .rooster + off) new
  let d := if flip then { d with pwr.pin := !d.pwr.pin } else d
  if off == 0x40 || off == 0x44 then d.pinRequest else d

def Dev.writeGander (d : Dev) (off v new : Nat) : Dev :=
  if off == 0x204 then (if bit v 0 then d.ganderClear else d) else d.wr (pageBase .gander + off) new

def Dev.writeRtc (d : Dev) (off v new : Nat) : Dev :=
  if off == 0x54 then (if bit v 1 then d.vbatClear else d)
  else if off == 0x60 then (if bit v 31 then d.rtcCommand (bits v 0 3) else d)
  else d.wr (pageBase .rtc + off) new

/-- R53: a write of QWM_LO waits for its high word; a write of QWM_HI commits the mask. -/
def Dev.writeMae (d : Dev) (off v new : Nat) : Dev :=
  match nth off 0xA0 4 8, nth off 0xA4 4 8 with
  | some m, _ => if d.locked .mae off then d else { d with mae.qwmLo := vSet d.mae.qwmLo m (BitVec.ofNat 32 v) }
  | _, some m =>
    if d.locked .mae off then d
    else { d with mae.qwmNext := vSet d.mae.qwmNext m (some (vGet d.mae.qwmLo m 0, BitVec.ofNat 32 v)) }
  | _, _ => d.wr (pageBase .mae + off) new

def Dev.writeHerd (d : Dev) (r : Requester) (off v new : Nat) : Dev :=
  if off == 0x40 then
    let was := d.on Fld.HERD_CTRL_EN
    (d.wr Reg.HERD_CTRL new).herdEnable was (bit new 0)
  else if off == 0x44 then (if r.legal then d.partWrite (bits v 0 6) else d)
  else if off == 0x7C then (if bit v 0 then d.herdCntClr else d)
  else if off == 0x80 then d.usrRaise (bits v 0 16)
  else d.wr (pageBase .herd + off) new

def Dev.writeMule (d : Dev) (off v new : Nat) : Dev :=
  if off == 0x6C then (if bit v 31 then d.mulePin (bits v 0 10) (bits v 16 2) else d)
  else if off == 0x74 then (if bit v 31 then d.muleCmd (bits v 0 3) (bits v 16 10) else d)
  else if off == 0x9C then (if bit v 0 then d.muleCntClr else d)
  else d.wr (pageBase .mule + off) new

/-- R192: MEMCTL CNT_CLR. -/
def Dev.eccCntClr (d : Dev) : Dev :=
  { forUpto 23 (fun b d => d.wr (Reg.MEMCTL_ECC_CNT b) 0) d with mem.ceThrDone := false }

/-- R195: CLEAR.GO.  Whatever reaches the banks before the clear ends waits for its end and meets cleared words: the words
are cleared here, and what hardware accesses meanwhile comes after that. -/
def Dev.clearGo (d : Dev) (r : Requester) : Dev :=
  if r.legal && !d.clearing then d.clearBanks.setF Fld.MEMCTL_CLEAR_BUSY 1 else d

/-- R185: a write of STORE_CFG_g or STORE_CHMASK_g; those of the MET store are performed for the legal side only. -/
def Dev.storeCfgWrite (d : Dev) (r : Requester) (g off new : Nat) : Dev :=
  let a := pageBase .memctl + off
  if g == 1 && !r.legal then d
  else
    let was := d.on (Fld.MEMCTL_STORE_CFG_EN g)
    let d := (d.wr a new).storeStop g
    if d.on (Fld.MEMCTL_STORE_CFG_EN g) && !was then d.setF (Fld.MEMCTL_STORE_PTR_PTR g) (d.f (Fld.MEMCTL_STORE_CFG_WORD0 g))
    else d

def Dev.writeMemctl (d : Dev) (r : Requester) (off v new : Nat) : Dev :=
  if off == 0x100 then (if bit v 0 then d.eccCntClr else d)
  else if off == 0x120 then (if bit v 0 then d.clearGo r else d)
  else match nth off 0x40 20 4, nth off 0x200 2 0x10, nth off 0x20C 2 0x10, nth off 0x204 2 0x10 with
    | some n, _, _, _ => if d.locked .memctl off then d else d.bankOwnWrite r n (bits v 0 3)
    | _, some g, _, _ => d.storeCfgWrite r g off new
    | _, _, some g, _ => if g == 1 && r.legal then d.wr (pageBase .memctl + off) new else d
    | _, _, _, some g => (d.wr (pageBase .memctl + off) new).storeStop g
    | _, _, _, _ => d.wr (pageBase .memctl + off) new

/-- R433: FLOG_CLR. -/
def Dev.flogClr (d : Dev) : Dev :=
  let d := forUpto 16 (fun n d => (d.wr (Reg.EVTMX_FLOG_EVT n) 0).wr (Reg.EVTMX_FLOG_CYC n) 0) d
  (d.wr Reg.EVTMX_FLOG_WR 0).wr Reg.EVTMX_FLOG_CNT 0

/-- R431: the events of CRYPTO are never logged: their FLT_EN bits read 0. -/
def Dev.writeEvtmx (d : Dev) (off v new : Nat) : Dev :=
  if off == 0x108 then (if bit v 0 then d.flogClr else d)
  else if off == 0xE0 then d.wr (pageBase .evtmx + off) (new - (new &&& 0x3C000))
  else d.wr (pageBase .evtmx + off) new

def Dev.writeFwall (d : Dev) (r : Requester) (off v new : Nat) : Dev :=
  let rom := r == .bootRom
  if off == 0x40 then d.enaWrite (bits new 0 4)
  else if off == 0x48 then d.lwdgCfg new
  else if off == 0x4C then (if bit v 0 then d.lwdgKick false else d)
  else if off == 0x78 then d.digestCmd rom v
  else if off == 0x80 then d.lflCmd rom v
  else d.wr (pageBase .fwall + off) new

/-- R138, R150: a write of CH_CFG_n that names a mode not allowed is refused. -/
def Dev.chCfgSet (d : Dev) (n v new : Nat) : Dev :=
  if modeAllowed n (bits v 1 3) then (d.chCfgWrite n new).typeChecks else d.raise Ev.MET_FE_CFG_ERR

def Dev.writeMetFe (d : Dev) (off v new : Nat) : Dev :=
  match nth off 0x40 16 4 with
  | some n => d.chCfgSet n v new
  | none => d.wr (pageBase .metFe + off) new

def Dev.writeEnergy (d : Dev) (off new : Nat) : Dev :=
  let d := d.wr (pageBase .energy + off) new
  if (nth off 0x40 4 0x20).isSome then d.typeChecks else d

def Dev.writeFlow (d : Dev) (off new : Nat) : Dev :=
  let d := d.wr (pageBase .flow + off) new
  match nth off 0x400 4 0x10, nth off 0x600 4 8 with
  | some k, _ => d.touchOutlet k
  | _, some k => d.touchOutlet k
  | _, _ => d

/-- R124: configuration registers of channel `n`, and MAN_CONV. -/
def Dev.writeRtd (d : Dev) (off v new : Nat) : Dev :=
  if off == 0x200 then d.rtdManual v
  else
    let d := d.wr (pageBase .rtd + off) new
    if 0x40 ≤ off && off < 0xC0 && off % 0x10 < 0xC then d.rtdConfigured ((off - 0x40) / 0x10) else d

def Dev.writeTherm (d : Dev) (off new : Nat) : Dev :=
  let d := d.wr (pageBase .therm + off) new
  match nth off 0x80 4 0x40 with
  | some k => d.thermEnable k
  | none => d

def Dev.writeTariff (d : Dev) (off v new : Nat) : Dev :=
  if off == 0x4C then (if bit v 0 then d.tableCommit else d)
  else
    let d := d.wr (pageBase .tariff + off) new
    if off == 0x40 || off == 0x44 then d.tariffEval else d

/-- R277: a write of SESS_CMD. -/
def Dev.sessCmd (d : Dev) (v : Nat) : Dev :=
  let k := bits v 0 2
  if !bit v 31 then d
  else match bits v 4 2 with
    | 1 => d.sessOpenAll k (bits v 16 10) (bit v 26) (bit v 27)
    | 2 => d.sessCloseAll k
    | 3 => d.sessSettleAll k
    | _ => d

def Dev.writeBill (d : Dev) (off v new : Nat) : Dev :=
  if off == 0x54 then d.sessCmd v
  else if off == 0x4C0 then (if bit v 0 then d.recCommit else d)
  else if off == 0x504 then (if bit v 0 then d.recRdGo else d)
  else d.wr (pageBase .bill + off) new

/-- R310: a write of LOGIN_SET; CLR goes before SET. -/
def Dev.loginWrite (d : Dev) (v : Nat) : Dev :=
  if bit v 30 then d.loginEnd else if bit v 31 then d.loginSet (bits v 0 10) else d

def Dev.writePrepay (d : Dev) (off v new : Nat) : Dev :=
  if off == 0x124 then (if bit v 31 then d.verdict (bits v 0 2) false else d)
  else if off == 0x144 then d.loginWrite v
  else d.wr (pageBase .prepay + off) new

/-- Bits 30:0 of what the field types leave, with bit 31 as written. -/
def withGo (new v : Nat) : Nat := setBits new 31 1 (bits v 31 1)

/-- R242: CTRL starts an operation; DIN takes no write while one runs. -/
def Dev.writeCrypto (d : Dev) (off v new : Nat) : Dev :=
  if off == 0x40 then d.cryptoCtrl (withGo new v)
  else if (nth off 0x100 64 4).isSome then (if d.crypto.run.isSome then d else d.wr (pageBase .crypto + off) v)
  else d.wr (pageBase .crypto + off) new

/-- R16: FW_VAL takes effect when its high word is written. -/
def Dev.writeLcd (d : Dev) (off new : Nat) : Dev :=
  match nth off 0x108 32 0x10, nth off 0x10C 32 0x10 with
  | some i, _ =>
    if d.locked .lcd off then d else { d with panel.fwLo := vSet d.panel.fwLo i (BitVec.ofNat 32 new) }
  | _, some i =>
    if d.locked .lcd off then d
    else (d.wr (Reg.LCD_FW_VAL_LO i) (vGet d.panel.fwLo i 0).toNat).wr (Reg.LCD_FW_VAL_HI i) new
  | _, _ => d.wr (pageBase .lcd + off) new

def Dev.writeLamp (d : Dev) (off v new : Nat) : Dev :=
  match nth off 0x48 6 0x10 with
  | some n => if bit v 8 then d.lampClear n else d
  | none =>
    match nth off 0x44 6 0x10 with
    | some n => d.lampDutyWrite n new
    | none => d.wr (pageBase .lamp + off) new

def Dev.writeHspi (d : Dev) (off v new : Nat) : Dev :=
  let d := d.wr (pageBase .hspi + off) new
  if off == 0x5C && bit v 31 then d.dmaGo else d

def Dev.writeMspi (d : Dev) (off v new : Nat) : Dev :=
  let d := d.wr (pageBase .mspi + off) new
  if off == 0x60 && bit v 31 then d.dirGo else d

def Dev.writeUart (d : Dev) (off v new : Nat) : Dev :=
  if off == 0x48 then (if d.locked .uart off then d else d.uartPush (BitVec.ofNat 8 v))
  else match nth off 0x50 2 0x10 with
    | some x =>
      let was := d.uartDma x
      (d.wr (pageBase .uart + off) new).uartDmaSet x was
    | none =>
      let d := d.wr (pageBase .uart + off) new
      if off == 0x40 then d.uartSend else d

/-- R244: the fields of a request are written by the requester of their channel only. -/
def Dev.writeLglmbx (d : Dev) (r : Requester) (off v new : Nat) : Dev :=
  let c := b2n (0x200 ≤ off)
  match (if off < 0x100 || 0x300 ≤ off then 0 else off % 0x100 + 1) with
  | 0x01 => d.reqHdr r c (withGo new v)
  | 0x05 => if mbxRequester r c then d.wr (Reg.LGLMBX_REQ_STAT c) new else d
  | 0x09 => d.ifverWrite r c (bits new 0 16)
  | 0x61 => if r.legal then d.rspHdr c v false else d
  | i =>
    if 0x11 ≤ i && i < 0x51 && !(mbxRequester r c && !d.mbxIs c mbxPending) then d
    else d.wr (pageBase .lglmbx + off) new

def Dev.writeDpm (d : Dev) (off v new : Nat) : Dev :=
  if off == 0x4C then (if bit v 0 then d.collClr else d) else d.wr (pageBase .dpm + off) new

def Dev.writeFuse (d : Dev) (off v new : Nat) : Dev :=
  if off == 0x80 then d.progCmd v
  else if (nth off 0xA0 8 4).isSome then d.wr (pageBase .fuse + off) v
  else d.wr (pageBase .fuse + off) new

/-- R406: AC_LOCK is set by the AC only. -/
def Dev.writeDebug (d : Dev) (r : Requester) (off new : Nat) : Dev :=
  let keep := off == 0x40 && !r.isAc
  d.wr (pageBase .debug + off) (if keep then setBits new 3 1 (d.f Fld.DEBUG_DBG_STAT_AC_LOCK) else new)

def Dev.writeWatch (d : Dev) (off v new : Nat) : Dev :=
  let d := d.wr (pageBase .watch + off) new
  if off == 0x40 && bit v 31 then d.watchCapture else d

/-- A granted write of `v` to page offset `off`, from 0x040 on. -/
def Dev.pageWrite (d : Dev) (r : Requester) (p : Page) (off v new : Nat) : Dev :=
  match p with
  | .sysctl => d.writeSysctl r off v new
  | .pwr => d.writePwr r off v new
  | .rooster => d.writeRooster off new
  | .gander => d.writeGander off v new
  | .rtc => d.writeRtc off v new
  | .mae => d.writeMae off v new
  | .herd => d.writeHerd r off v new
  | .mule => d.writeMule off v new
  | .memctl => d.writeMemctl r off v new
  | .evtmx => d.writeEvtmx off v new
  | .fwall => d.writeFwall r off v new
  | .metFe => d.writeMetFe off v new
  | .energy => d.writeEnergy off new
  | .ufeDrv => if off == 0xC0 then d.manFire v false else d.wr (pageBase p + off) new
  | .ufeTof => if off == 0x104 then d.waveCtrlWrite new else d.wr (pageBase p + off) new
  | .flow => d.writeFlow off new
  | .rtd => d.writeRtd off v new
  | .therm => d.writeTherm off new
  | .tariff => d.writeTariff off v new
  | .bill => d.writeBill off v new
  | .prepay => d.writePrepay off v new
  | .crypto => d.writeCrypto off v new
  | .lcd => d.writeLcd off new
  | .lamp => d.writeLamp off v new
  | .hspi => d.writeHspi off v new
  | .mspi => d.writeMspi off v new
  | .uart => d.writeUart off v new
  | .lglmbx => d.writeLglmbx r off v new
  | .dpm => d.writeDpm off v new
  | .fuse => d.writeFuse off v new
  | .debug => d.writeDebug r off new
  | .watch => d.writeWatch off v new
  | .clk | .metCal | .metQty | .pulse | .ufeRx | .keypad | .i2ct => d.wr (pageBase p + off) new

/-- A granted word write of a register page. -/
def Dev.regWrite (d : Dev) (r : Requester) (p : Page) (off v : Nat) : Dev :=
  let new := d.afterWrite r p off v
  if off < 0x40 then d.headerWrite p off new else d.pageWrite r p off v new

end Sys2Proof.Machine
end

