-- ==== Sys2Proof/Machine/Bus.lean ====
section
/-! DEFINITION. The fabric: who reaches what, what is held, and the outcome of every read and write (R10, R21–R27, R180,
R195, R199, R203, R210, R231, R234, R356). -/

namespace Sys2Proof.Machine

/-- The outcome of an access on the fabric: data, a bus error, or held for now. -/
inductive Resp where
  | ok (v : Nat) | error | wait
deriving DecidableEq, Repr

/-- Whether an access may go on. -/
inductive Gate where
  | go | refuse | wait
deriving DecidableEq, Repr

def Resp.bus : Resp → BusResp
  | .ok v => .data (BitVec.ofNat 32 v)
  | .error => .error
  | .wait => .none

/-- The answer to a write. -/
def Resp.written : Resp → BusResp
  | .ok _ => .done
  | .error => .error
  | .wait => .none

/-- R21, R356: the domain is reached, or holds new accesses while it is quiesced. -/
def Dev.domGate (d : Dev) (x : Dom) : Gate :=
  if !d.reaches x then .refuse else if d.quiescing x then .wait else .go

/-- R20, R406: whether the requester is there at all: debug access to a core, only as far as the lifecycle allows it. -/
def Dev.present (d : Dev) (r : Requester) : Bool :=
  match r with
  | .lcDbg => d.lcDebug
  | .acDbg => d.acDebug
  | _ => true

/-- R24, R231: whether the target is open to the requester; a refusal on legal grounds is recorded. -/
def Dev.reachGate (d : Dev) (r : Requester) (t : Target) (a : Nat) (write : Bool) : Gate × Dev :=
  if !d.present r then (.refuse, d)
  else match reach r t write with
  | .ok _ => (d.domGate t.dom, d)
  | .error true => (.refuse, d.violation r 4 a write)
  | .error false => (.refuse, d)

/-- R181: the new owner waits while a bank is in transit. -/
def Dev.inTransit (d : Dev) (r : Requester) (b : Nat) : Bool :=
  b < 16 && d.on (Fld.MEMCTL_BANK_OWN_IN_TRANSIT b) && d.owns r.group b

/-- R181, R195, R199: whether an access to an SRAM word goes on now. -/
def Dev.bankGate (d : Dev) (r : Requester) (b w : Nat) (write : Bool) (clash : Option PortClash) : Gate × Dev :=
  if (b < 22 && d.clearing) || d.inTransit r b then (.wait, d)
  else if b == 20 && (r.isLc || r.isAc) then
    match d.portA clash w write with
    | (true, d) => (.wait, { d with mem.dpmWait := some ⟨r, w⟩ })
    | (false, d) => (.go, d)
  else (.go, d)

/-- The part of a word that an access of `size` at address `a` takes. -/
def pick (size : Size) (a x : Nat) : Nat := bits x (8 * (a % 4)) (8 * size.bytes)

/-- The byte lanes of an access of `size` at address `a` (R191). -/
def lanes (size : Size) (a : Nat) : Nat := (2 ^ size.bytes - 1) * 2 ^ (a % 4)

/-- The word of a flash array. -/
def flashWord (m : SMap Byte) (off : Nat) : Nat := leNat (m.getMany flashDflt (off / 4 * 4) 4)

/-- A read of word `w` of bank `b` by the fabric. -/
def Dev.sramRead (d : Dev) (r : Requester) (b w : Nat) (clash : Option PortClash) : Resp × Dev :=
  match d.bankGate r b w false clash with
  | (.go, d) =>
    match d.memRead r.group b w with
    | (some x, d) => (.ok x, d)
    | (none, d) => (.error, d)
  | (.refuse, d) => (.error, d)
  | (.wait, d) => (.wait, d)

/-- A write of the lanes `be` of word `w` of bank `b` by the fabric; the word `x` has its bytes in place. -/
def Dev.sramWrite (d : Dev) (r : Requester) (b w be x : Nat) (clash : Option PortClash) : Resp × Dev :=
  match d.bankGate r b w true clash with
  | (.go, d) =>
    match (if be == 15 then d.memWrite r.group b w x else d.memPartial r.group b w be x) with
    | (true, d) => (.ok 0, d)
    | (false, d) => (.error, d)
  | (.refuse, d) => (.error, d)
  | (.wait, d) => (.wait, d)

/-- R195, R212: a clear holds an access to the window, but for one that MULE answers without a frame. -/
def Dev.windowHeld (d : Dev) (off : Nat) : Bool := d.clearing && (d.muleReady || (d.frameOf (off / 256)).isSome)

/-- R203, R210: a read of window offset `off`. -/
def Dev.windowRead (d : Dev) (off : Nat) : Resp × Dev :=
  if d.windowHeld off then (.wait, d)
  else match d.windowAsk off false with
    | (.frame f, d) =>
      match d.readRow 1 19 (f * 64 + off % 256 / 4) (f * 64 + off % 256 / 4) false with
      | (some x, d) => (.ok x, d)
      | (none, d) => (.error, d)
    | (.refused, d) => (.error, d)
    | (.stalled, d) => (.wait, d)

/-- R203, R210: a write of window offset `off`. -/
def Dev.windowWrite (d : Dev) (off be x : Nat) : Resp × Dev :=
  if d.windowHeld off then (.wait, d)
  else match d.windowAsk off true with
    | (.frame f, d) =>
      let w := f * 64 + off % 256 / 4
      if be == 15 then (.ok 0, d.putCode 19 w (encodeWord 19 w x))
      else match d.readRow 1 19 w w true with
        | (some old, d) => (.ok 0, d.putCode 19 w (encodeWord 19 w (mergeBytes be old x)))
        | (none, d) => (.error, d.raise Ev.MEMCTL_RMW_FAIL)
    | (.refused, d) => (.error, d)
    | (.stalled, d) => (.wait, d)

/-- R10, R27, R231: a read of a register page. -/
def Dev.pageAccessRead (d : Dev) (r : Requester) (p : Page) (off a : Nat) (size : Size) : Resp × Dev :=
  if size != .word || off % 4 != 0 then (.error, d)
  else if p == .crypto && !r.legal then (.error, d.violation r 3 a false)
  else match d.regRead r p off with
    | (x, d) => (.ok x, d)

/-- R10, R26, R231: a write of a register page. -/
def Dev.pageAccessWrite (d : Dev) (r : Requester) (p : Page) (off a v : Nat) (size : Size) : Resp × Dev :=
  if size != .word || off % 4 != 0 then (.error, d)
  else if !r.legal && p.owner == .legal then (.ok 0, d.violation r 1 a true)
  else
    let d := if !r.legal && (fieldsAt p off).any (·.ty == .rwo) then d.violation r 2 a true else d
    (.ok 0, d.regWrite r p off v)

/-- A read of `size` at bus address `a` by requester `r`; the data stand in the low bits of the answer. -/
def Dev.busRead (d : Dev) (r : Requester) (a : Nat) (size : Size) (clash : Option PortClash) : Resp × Dev :=
  match decodeAddr a with
  | none => (.error, d)
  | some t =>
    match d.reachGate r t a false with
    | (.refuse, d) => (.error, d)
    | (.wait, d) => (.wait, d)
    | (.go, d) =>
      let word : Resp × Dev := match t with
        | .bootRom off => (.ok (Config.bootRom (off / 4)).toNat, d)
        | .lfl off => if d.boot.lfl.isSome then (.wait, d) else (.ok (flashWord d.mem.lfl off), d)
        | .afl off => if d.boot.afl.isSome then (.wait, d) else (.ok (flashWord d.mem.afl off), d)
        | .sram b w => d.sramRead r b w clash
        | .window off => d.windowRead off
        | .reg p off => d.pageAccessRead r p off a size
      match word with
      | (.ok x, d) => (.ok (pick size a x), d)
      | other => other

/-- A write of the low bits of `v`, of `size`, at bus address `a` by requester `r`. -/
def Dev.busWrite (d : Dev) (r : Requester) (a v : Nat) (size : Size) (clash : Option PortClash) : Resp × Dev :=
  match decodeAddr a with
  | none => (.error, d)
  | some t =>
    match d.reachGate r t a true with
    | (.refuse, d) => (.error, d)
    | (.wait, d) => (.wait, d)
    | (.go, d) =>
      let x := v % 2 ^ (8 * size.bytes) * 2 ^ (8 * (a % 4))
      match t with
      | .bootRom _ | .lfl _ | .afl _ => (.error, d)
      | .sram b w =>
        if b = 21 then
          if d.clearing then (.wait, d)
          else
            let d := d.taskWrite r (a % 0x4000) (v % 2 ^ (8 * size.bytes)) size
            (if d.bus == .error then .error else .ok 0, d)
        else d.sramWrite r b w (lanes size a) x clash
      | .window off => d.windowWrite off (lanes size a) x
      | .reg p off => d.pageAccessWrite r p off a v size

/-! ### Accesses that a command makes -/

/-- A misaligned access ends in a bus error; the cores raise their exception before it comes to that. -/
def aligned (a : Nat) (size : Size) : Bool := a % size.bytes == 0

/-- A command's write. -/
def Dev.cmdWrite (d : Dev) (r : Requester) (a v : Nat) (size : Size) : Dev :=
  if aligned a size then
    match d.busWrite r a v size none with
    | (x, d) => d.answer x.written
  else d.answer .error

/-- A command's read. -/
def Dev.cmdRead (d : Dev) (r : Requester) (a : Nat) : Dev :=
  if aligned a .word then
    match d.busRead r a .word none with
    | (x, d) => d.answer x.bus
  else d.answer .error

/-- A command's write of the register at `a`, where what it does is `k` in place of `regWrite`: the same requester, page
and domain rules stand before it. -/
def Dev.regGate (d : Dev) (r : Requester) (a : Nat) (k : Dev → Dev) : Dev :=
  match decodeAddr a with
  | some (.reg p off) =>
    match d.reachGate r (.reg p off) a true with
    | (.refuse, d) => d.answer .error
    | (.wait, d) => d.answer .none
    | (.go, d) =>
      if !r.legal && p.owner == .legal then (d.violation r 1 a true).answer .done
      else
        let d := if !r.legal && (fieldsAt p off).any (·.ty == .rwo) then d.violation r 2 a true else d
        (k d).answer .done
  | _ => d.answer .error

end Sys2Proof.Machine
end

