-- ==== Sys2Proof/Machine/Rv.lean ====
section
/-! DEFINITION. The instruction formats of RV32IMAC (R232, R418): fields and immediates of a 32-bit instruction, the
32-bit equivalents of the compressed ones, and the arithmetic. -/

namespace Sys2Proof.Machine

/-! ### Fields of a 32-bit instruction -/

def rvOp (w : Nat) : Nat := bits w 0 7
def rvRd (w : Nat) : Nat := bits w 7 5
def rvF3 (w : Nat) : Nat := bits w 12 3
def rvRs1 (w : Nat) : Nat := bits w 15 5
def rvRs2 (w : Nat) : Nat := bits w 20 5
def rvF7 (w : Nat) : Nat := bits w 25 7

def immI (w : Nat) : Int := sgn 12 (bits w 20 12)
def immS (w : Nat) : Int := sgn 12 (bits w 7 5 + bits w 25 7 * 32)
def immB (w : Nat) : Int := sgn 13 (bits w 8 4 * 2 + bits w 25 6 * 32 + bits w 7 1 * 2048 + bits w 31 1 * 4096)
def immU (w : Nat) : Int := sgn 32 (bits w 12 20 * 4096)
def immJ (w : Nat) : Int := sgn 21 (bits w 21 10 * 2 + bits w 20 1 * 2048 + bits w 12 8 * 4096 + bits w 31 1 * 2 ^ 20)

/-! ### Building 32-bit instructions -/

def encR (f7 rs2 rs1 f3 rd op : Nat) : Nat := f7 * 2 ^ 25 + rs2 * 2 ^ 20 + rs1 * 2 ^ 15 + f3 * 2 ^ 12 + rd * 2 ^ 7 + op
def encI (imm : Int) (rs1 f3 rd op : Nat) : Nat := unsgn 12 imm * 2 ^ 20 + rs1 * 2 ^ 15 + f3 * 2 ^ 12 + rd * 2 ^ 7 + op
def encS (imm : Int) (rs2 rs1 f3 op : Nat) : Nat :=
  let i := unsgn 12 imm
  encR (i / 32) rs2 rs1 f3 (i % 32) op
def encB (imm : Int) (rs2 rs1 f3 : Nat) : Nat :=
  let i := unsgn 13 imm
  encR (bits i 5 6 + bits i 12 1 * 64) rs2 rs1 f3 (bits i 11 1 + bits i 1 4 * 2) 0x63
def encJ (imm : Int) (rd : Nat) : Nat :=
  let i := unsgn 21 imm
  bits i 20 1 * 2 ^ 31 + bits i 1 10 * 2 ^ 21 + bits i 11 1 * 2 ^ 20 + bits i 12 8 * 2 ^ 12 + rd * 2 ^ 7 + 0x6F

/-! ### Compressed instructions (C 2.0) -/

/-- Quadrant 0. -/
def expand0 (h : Nat) : Option Nat :=
  let rd := 8 + bits h 2 3
  let rs := 8 + bits h 7 3
  let wordOfs : Int := (bits h 10 3 * 8 + bits h 6 1 * 4 + bits h 5 1 * 64 : Nat)
  match bits h 13 3 with
  | 0 =>
    let i := bits h 7 4 * 64 + bits h 11 2 * 16 + bits h 5 1 * 8 + bits h 6 1 * 4
    if i = 0 then none else some (encI i 2 0 rd 0x13)
  | 2 => some (encI wordOfs rs 2 rd 0x03)
  | 6 => some (encS wordOfs rd rs 2 0x23)
  | _ => none

/-- Quadrant 1. -/
def expand1 (h : Nat) : Option Nat :=
  let rd := bits h 7 5
  let rd' := 8 + bits h 7 3
  let rs' := 8 + bits h 2 3
  let imm6 := sgn 6 (bits h 2 5 + bits h 12 1 * 32)
  let jmp := sgn 12 (bits h 3 3 * 2 + bits h 11 1 * 16 + bits h 2 1 * 32 + bits h 7 1 * 64 + bits h 6 1 * 128
    + bits h 9 2 * 256 + bits h 8 1 * 1024 + bits h 12 1 * 2048)
  let br := sgn 9 (bits h 3 2 * 2 + bits h 10 2 * 8 + bits h 2 1 * 32 + bits h 5 2 * 64 + bits h 12 1 * 256)
  match bits h 13 3 with
  | 0 => some (encI imm6 rd 0 rd 0x13)
  | 1 => some (encJ jmp 1)
  | 2 => some (encI imm6 0 0 rd 0x13)
  | 3 =>
    if imm6 = 0 then none
    else if rd = 2 then
      let i := sgn 10 (bits h 6 1 * 16 + bits h 2 1 * 32 + bits h 5 1 * 64 + bits h 3 2 * 128 + bits h 12 1 * 512)
      some (encI i 2 0 2 0x13)
    else some (unsgn 20 imm6 * 4096 + rd * 128 + 0x37)
  | 4 =>
    match bits h 10 2 with
    | 0 => if bit h 12 then none else some (encR 0 (bits h 2 5) rd' 5 rd' 0x13)
    | 1 => if bit h 12 then none else some (encR 0x20 (bits h 2 5) rd' 5 rd' 0x13)
    | 2 => some (encI imm6 rd' 7 rd' 0x13)
    | _ =>
      if bit h 12 then none
      else match bits h 5 2 with
        | 0 => some (encR 0x20 rs' rd' 0 rd' 0x33)
        | 1 => some (encR 0 rs' rd' 4 rd' 0x33)
        | 2 => some (encR 0 rs' rd' 6 rd' 0x33)
        | _ => some (encR 0 rs' rd' 7 rd' 0x33)
  | 5 => some (encJ jmp 0)
  | 6 => some (encB br 0 rd' 0)
  | _ => some (encB br 0 rd' 1)

/-- Quadrant 2. -/
def expand2 (h : Nat) : Option Nat :=
  let rd := bits h 7 5
  let rs2 := bits h 2 5
  match bits h 13 3 with
  | 0 => if bit h 12 then none else some (encR 0 rs2 rd 1 rd 0x13)
  | 2 =>
    if rd = 0 then none
    else some (encI ((bits h 4 3 * 4 + bits h 12 1 * 32 + bits h 2 2 * 64 : Nat) : Int) 2 2 rd 0x03)
  | 4 =>
    if bit h 12 then
      if rs2 = 0 then (if rd = 0 then some 0x100073 else some (encI 0 rd 0 1 0x67))
      else some (encR 0 rs2 rd 0 rd 0x33)
    else if rs2 = 0 then (if rd = 0 then none else some (encI 0 rd 0 0 0x67))
    else some (encR 0 rs2 0 0 rd 0x33)
  | 6 => some (encS ((bits h 9 4 * 4 + bits h 7 2 * 64 : Nat) : Int) rs2 2 2 0x23)
  | _ => none

/-- The 32-bit equivalent of a 16-bit instruction; none where it is reserved or not implemented. -/
def expandC (h : Nat) : Option Nat :=
  match h % 4 with
  | 0 => expand0 h
  | 1 => expand1 h
  | 2 => expand2 h
  | _ => none

/-! ### Arithmetic -/

/-- The operations of OP and OP-IMM; `alt`: SUB, SRA. -/
def alu (f3 : Nat) (alt : Bool) (a b : Word) : Word :=
  match f3 with
  | 0 => if alt then a - b else a + b
  | 1 => a <<< (b.toNat % 32)
  | 2 => if a.slt b then 1 else 0
  | 3 => if a.ult b then 1 else 0
  | 4 => a ^^^ b
  | 5 => if alt then a.sshiftRight (b.toNat % 32) else a >>> (b.toNat % 32)
  | 6 => a ||| b
  | _ => a &&& b

/-- The M extension, with its results for a zero divisor and for overflow. -/
def mulDiv (f3 : Nat) (a b : Word) : Word :=
  match f3 with
  | 0 => a * b
  | 1 => BitVec.ofInt 32 (a.toInt * b.toInt / 2 ^ 32)
  | 2 => BitVec.ofInt 32 (a.toInt * b.toNat / 2 ^ 32)
  | 3 => BitVec.ofNat 32 (a.toNat * b.toNat / 2 ^ 32)
  | 4 => if b = 0 then BitVec.ofInt 32 (-1) else BitVec.ofInt 32 (a.toInt.tdiv b.toInt)
  | 5 => if b = 0 then BitVec.ofInt 32 (-1) else BitVec.ofNat 32 (a.toNat / b.toNat)
  | 6 => if b = 0 then a else BitVec.ofInt 32 (a.toInt.tmod b.toInt)
  | _ => if b = 0 then a else BitVec.ofNat 32 (a.toNat % b.toNat)

/-- Whether a branch with `f3` is taken; none where `f3` is no branch. -/
def branchTaken (f3 : Nat) (a b : Word) : Option Bool :=
  match f3 with
  | 0 => some (a == b)
  | 1 => some (a != b)
  | 4 => some (a.slt b)
  | 5 => some (!a.slt b)
  | 6 => some (a.ult b)
  | 7 => some (!a.ult b)
  | _ => none

/-- What an AMO with bits 31:27 `f5` stores; none where `f5` is no AMO. -/
def amo (f5 : Nat) (m s : Word) : Option Word :=
  match f5 with
  | 0 => some (m + s)
  | 1 => some s
  | 4 => some (m ^^^ s)
  | 8 => some (m ||| s)
  | 12 => some (m &&& s)
  | 16 => some (if m.slt s then m else s)
  | 20 => some (if s.slt m then m else s)
  | 24 => some (if m.ult s then m else s)
  | 28 => some (if s.ult m then m else s)
  | _ => none

end Sys2Proof.Machine
end

