-- ==== Sys2Proof/Machine/Cpu.lean ====
section
/-! DEFINITION. The cores' state: registers, CSRs, physical memory protection, triggers, traps, Debug Mode, and their
memory accesses (R24, R232, R233, R405, R418). -/

namespace Sys2Proof.Machine

/-! ### The two cores -/

def Dev.core (d : Dev) : CoreId → Core
  | .lc => d.lc
  | .ac => d.ac

def Dev.setCore (d : Dev) (i : CoreId) (c : Core) : Dev :=
  match i with
  | .lc => { d with lc := c }
  | .ac => { d with ac := c }

def Dev.modCore (d : Dev) (i : CoreId) (f : Core → Core) : Dev := d.setCore i (f (d.core i))

def CoreId.dom : CoreId → Dom
  | .lc => .lgl
  | .ac => .app

/-- The number of mcontrol triggers (R405). -/
def CoreId.triggers : CoreId → Nat
  | .lc => 2
  | .ac => 4

/-- EVT_ROUTE target of the core's external interrupt. -/
def CoreId.target : CoreId → Nat
  | .lc => 0
  | .ac => 1

/-- Register `n`; x0 reads 0. -/
def Core.get (c : Core) (n : Nat) : Word := if n = 0 then 0 else vGet c.x n 0

/-- Register `n` written; x0 discards. -/
def Core.set (c : Core) (n : Nat) (v : Word) : Core := if n = 0 then c else { c with x := vSet c.x n v }

/-- Who executes: the core, the requester its accesses carry, and whether the program buffer does (Debug Mode). -/
structure Env where
  id : CoreId
  req : Requester
  dbg : Bool
deriving DecidableEq, Repr

/-- The privilege instructions have. -/
def Env.priv (e : Env) (c : Core) : Priv := if e.dbg then .machine else c.priv

/-- The privilege loads and stores have (MPRV; not in Debug Mode). -/
def Env.dataPriv (e : Env) (c : Core) : Priv :=
  if e.dbg then .machine else if c.mprv && c.priv == .machine then c.mpp else c.priv

/-! ### Debug Mode (R405) -/

/-- dcsr's bits that can be written: ebreakm, stepie, stopcount, step; ebreaku and prv on the AC. -/
def dcsrMask : CoreId → Nat
  | .lc => 0x8C04
  | .ac => 0x9C07

/-- dcsr with a cause and the privilege the core had. -/
def Core.dcsrEnter (c : Core) (cause : Nat) : Word :=
  BitVec.ofNat 32 (setBits (setBits c.dcsr.toNat 6 3 cause) 0 2 (if c.priv == .machine then 3 else 0))

/-- Debug Mode is entered with a cause; the core would go on at `pc`. -/
def Core.enterDebug (c : Core) (cause : Nat) (pc : Word) : Core :=
  { c with halted := true, wfi := false, dpc := pc, dcsr := c.dcsrEnter cause, pc := pc }

/-- Debug Mode is left for dpc in dcsr.prv. -/
def Core.leaveDebug (c : Core) : Core :=
  { c with halted := false, pc := c.dpc, priv := if bits c.dcsr.toNat 0 2 == 3 then .machine else .user }

def Core.stepping (c : Core) : Bool := bit c.dcsr.toNat 2

/-! ### Traps -/

/-- A trap: an exception (`irq` false) or the external interrupt; mepc, mcause, mtval and mstatus, and the handler. -/
def Core.trap (c : Core) (irq : Bool) (cause : Nat) (pc tval : Word) : Core :=
  let base := c.mtvec.toNat / 64 * 64
  { c with
    mepc := pc
    mcause := BitVec.ofNat 32 (cause + b2n irq * 2 ^ 31)
    mtval := tval
    mpie := c.mie
    mie := false
    mpp := c.priv
    priv := .machine
    wfi := false
    pc := BitVec.ofNat 32 (if irq && bit c.mtvec.toNat 0 then base + 4 * cause else base) }

/-- MRET.  mepc holds all 32 bits; an instruction address has no bit 0. -/
def Core.mret (c : Core) (id : CoreId) : Core :=
  { c with mie := c.mpie, mpie := true, priv := c.mpp, mpp := if id == .lc then .machine else .user, pc := c.mepc &&& ~~~1#32 }

/-! ### CSRs (R233, R418) -/

/-- mstatus. -/
def Core.mstatus (c : Core) : Nat :=
  b2n c.mie * 8 + b2n c.mpie * 128 + (if c.mpp == .machine then 3 else 0) * 2 ^ 11 + b2n c.mprv * 2 ^ 17 + b2n c.tw * 2 ^ 21

/-- Word `k` of pmpcfg. -/
def Core.pmpcfgWord (c : Core) (k : Nat) : Nat := leNat ((List.range 4).map fun i => vGet c.pmpcfg (4 * k + i) 0)

/-- mcycle now: cycles pass between commands, by a number no command carries. -/
def Dev.cycles (d : Dev) (i : CoreId) : Nat × Dev :=
  let c := d.core i
  if bit c.mcountinhibit.toNat 0 || (c.halted && bit c.dcsr.toNat 10) then (c.mcycle, d)
  else
    let n := (c.mcycle + d.fresh.1.toNat) % 2 ^ 64
    (n, d.fresh.2.modCore i fun c => { c with mcycle := n })

/-- The CSRs both cores have; none: not one of them. -/
def Core.csrPlain (c : Core) (id : CoreId) (line : Bool) (n : Nat) : Option Nat :=
  let ac := id == .ac
  match n with
  | 0x300 => some c.mstatus
  | 0x301 => some (if ac then 0x40101105 else 0x40001104)
  | 0x304 => some (b2n c.meie * 2048)
  | 0x305 => some c.mtvec.toNat
  | 0x306 => if ac then some c.mcounteren.toNat else none
  | 0x320 => some c.mcountinhibit.toNat
  | 0x340 => some c.mscratch.toNat
  | 0x341 => some c.mepc.toNat
  | 0x342 => some c.mcause.toNat
  | 0x343 => some c.mtval.toNat
  | 0x344 => some (b2n line * 2048)
  | 0x3A0 | 0x3A1 | 0x3A2 | 0x3A3 => if ac then some (c.pmpcfgWord (n - 0x3A0)) else none
  | 0x7A0 => some c.tselect
  | 0x7A1 => some (vGet c.trig c.tselect {}).ctl.toNat
  | 0x7A2 => some (vGet c.trig c.tselect {}).addr.toNat
  | 0xB02 => some (c.minstret % 2 ^ 32)
  | 0xB82 => some (c.minstret / 2 ^ 32)
  | 0xC02 => if ac then some (c.minstret % 2 ^ 32) else none
  | 0xC82 => if ac then some (c.minstret / 2 ^ 32) else none
  | 0xF11 | 0xF12 => some 0
  | 0xF13 => some 0xA2
  | 0xF14 => some (b2n ac)
  | _ => if ac && 0x3B0 ≤ n && n < 0x3C0 then some (vGet c.pmpaddr (n - 0x3B0) 0).toNat else none

/-- A CSR read; none: the core does not implement it, or not where it stands. -/
def Dev.csrRead (d : Dev) (e : Env) (n : Nat) : Option Nat × Dev :=
  let c := d.core e.id
  match n with
  | 0xB00 => match d.cycles e.id with
    | (v, d) => (some (v % 2 ^ 32), d)
  | 0xB80 => match d.cycles e.id with
    | (v, d) => (some (v / 2 ^ 32), d)
  | 0xC00 => if e.id == .ac then (match d.cycles e.id with
    | (v, d) => (some (v % 2 ^ 32), d)) else (none, d)
  | 0xC80 => if e.id == .ac then (match d.cycles e.id with
    | (v, d) => (some (v / 2 ^ 32), d)) else (none, d)
  | 0x7B0 => (if e.dbg then some c.dcsr.toNat else none, d)
  | 0x7B1 => (if e.dbg then some c.dpc.toNat else none, d)
  | 0x7B2 => (if e.dbg then some c.dscratch0.toNat else none, d)
  | _ => (c.csrPlain e.id (d.line e.id.target) n, d)

/-- A legal value of pmpcfg for a byte written over `old` (W without R is reserved: what it leaves is open, `free`). -/
def pmpByte (old : Byte) (v : Nat) (free : Bool) : Byte :=
  if bit old.toNat 7 then old
  else if bit v 1 && !bit v 0 then (if free then old else BitVec.ofNat 8 (v % 256 &&& 0x9D))
  else BitVec.ofNat 8 (v % 256 &&& 0x9F)

/-- Whether pmpaddr `i` is locked. -/
def Core.pmpLocked (c : Core) (i : Nat) : Bool :=
  let next := (vGet c.pmpcfg (i + 1) 0).toNat
  bit (vGet c.pmpcfg i 0).toNat 7 || (i + 1 < 16 && bit next 7 && bits next 3 2 == 1)

/-- tdata1 as a write of `v` leaves it: type mcontrol, equal match, address, timing before; actions breakpoint and, with
dmode, Debug Mode. -/
def trigWrite (id : CoreId) (dbg : Bool) (v : Nat) : Word :=
  let dmode := dbg && bit v 27
  BitVec.ofNat 32 (2 * 2 ^ 28 + b2n dmode * 2 ^ 27 + b2n (dmode && bits v 12 4 == 1) * 4096
    + (v &&& (if id == .ac then 0x4F else 0x47)))

/-- A CSR write of `v`, `free` standing for a value the architecture leaves open; none: not implemented. -/
def Core.csrWrite (c : Core) (e : Env) (free : Word) (n v : Nat) : Option Core :=
  let w : Word := BitVec.ofNat 32 v
  let ac := e.id == .ac
  let t := vGet c.trig c.tselect {}
  let trigOpen := e.dbg || !bit t.ctl.toNat 27
  match n with
  | 0x300 =>
    let mpp : Priv :=
      if !ac then .machine
      else match bits v 11 2 with
        | 0 => .user
        | 3 => .machine
        | _ => if bit free.toNat 0 then .machine else .user
    some { c with mie := bit v 3, mpie := bit v 7, mpp := mpp, mprv := ac && bit v 17, tw := ac && bit v 21 }
  | 0x301 | 0x344 => some c
  | 0x304 => some { c with meie := bit v 11 }
  | 0x305 =>
    some { c with mtvec := BitVec.ofNat 32 (v / 64 * 64 + (if bit v 1 then bits free.toNat 0 1 else bits v 0 1)) }
  | 0x306 => if ac then some { c with mcounteren := w } else none
  | 0x320 => some { c with mcountinhibit := w &&& 5 }
  | 0x340 => some { c with mscratch := w }
  | 0x341 => some { c with mepc := w }
  | 0x342 => some { c with mcause := w }
  | 0x343 => some { c with mtval := w }
  | 0x3A0 | 0x3A1 | 0x3A2 | 0x3A3 =>
    if ac then
      let k := 4 * (n - 0x3A0)
      some (forUpto 4 (fun i c =>
        { c with pmpcfg := vSet c.pmpcfg (k + i) (pmpByte (vGet c.pmpcfg (k + i) 0) (bits v (8 * i) 8) (bit free.toNat i)) }) c)
    else none
  | 0x7A0 => some { c with tselect := if v < e.id.triggers then v else free.toNat % e.id.triggers }
  | 0x7A1 =>
    some (if trigOpen then { c with trig := vSet c.trig c.tselect { t with ctl := trigWrite e.id e.dbg v } } else c)
  | 0x7A2 => some (if trigOpen then { c with trig := vSet c.trig c.tselect { t with addr := w } } else c)
  | 0x7B0 =>
    if e.dbg then
      let m : Word := BitVec.ofNat 32 (dcsrMask e.id)
      let x := (c.dcsr &&& ~~~m) ||| (w &&& m)
      let prv := if bits x.toNat 0 2 == 3 || bits x.toNat 0 2 == 0 then bits x.toNat 0 2 else 3 * bits free.toNat 0 1
      some { c with dcsr := BitVec.ofNat 32 (setBits x.toNat 0 2 prv) }
    else none
  | 0x7B1 => if e.dbg then some { c with dpc := BitVec.ofNat 32 (v / 2 * 2) } else none
  | 0x7B2 => if e.dbg then some { c with dscratch0 := w } else none
  | 0xB00 => some { c with mcycle := c.mcycle / 2 ^ 32 * 2 ^ 32 + v }
  | 0xB80 => some { c with mcycle := c.mcycle % 2 ^ 32 + v * 2 ^ 32 }
  | 0xB02 => some { c with minstret := c.minstret / 2 ^ 32 * 2 ^ 32 + v }
  | 0xB82 => some { c with minstret := c.minstret % 2 ^ 32 + v * 2 ^ 32 }
  | _ =>
    if ac && 0x3B0 ≤ n && n < 0x3C0 then
      some (if c.pmpLocked (n - 0x3B0) then c else { c with pmpaddr := vSet c.pmpaddr (n - 0x3B0) w })
    else none

/-- Whether code at privilege `p` may touch CSR `n`, `write` telling writes (the address says so; U-mode has the counters
that mcounteren opens). -/
def Core.csrOpen (c : Core) (p : Priv) (n : Nat) (write : Bool) : Bool :=
  !(write && n / 1024 == 3)
  && (p == .machine || ((n == 0xC00 || n == 0xC80) && bit c.mcounteren.toNat 0)
    || ((n == 0xC02 || n == 0xC82) && bit c.mcounteren.toNat 2))

/-- A CSR write, with its free value. -/
def Dev.csrSet (d : Dev) (e : Env) (n v : Nat) : Option Dev :=
  ((d.core e.id).csrWrite e d.fresh.1 n v).map fun c => d.fresh.2.setCore e.id c

/-! ### Physical memory protection (R418) -/

/-- The bytes `lo ≤ a < hi` that PMP entry `i` covers (bus addresses; the registers hold bits 33:2). -/
def Core.pmpRange (c : Core) (i : Nat) : Nat × Nat :=
  let a := (vGet c.pmpaddr i 0).toNat
  match bits (vGet c.pmpcfg i 0).toNat 3 2 with
  | 0 => (0, 0)
  | 1 => ((if i = 0 then 0 else (vGet c.pmpaddr (i - 1) 0).toNat) * 4, a * 4)
  | 2 => (a * 4, a * 4 + 4)
  | _ =>
    let ones := ((List.range 32).find? fun k => !bit a k).getD 32
    (a / 2 ^ ones * 2 ^ ones * 4, a / 2 ^ ones * 2 ^ ones * 4 + 2 ^ (ones + 3))

/-- Whether an access to `n` bytes at `a` is allowed; `k`: bit 0 read, 1 write, 2 execute. -/
def Core.pmpOk (c : Core) (p : Priv) (a n k : Nat) : Bool :=
  match (List.range 16).find? fun i => (c.pmpRange i).1 < a + n && a < (c.pmpRange i).2 with
  | some i =>
    let g := (vGet c.pmpcfg i 0).toNat
    let whole := (c.pmpRange i).1 ≤ a && a + n ≤ (c.pmpRange i).2
    whole && ((p == .machine && !bit g 7) || bit g k)
  | none => p == .machine

/-- The LC has no PMP (R233). -/
def Dev.protects (d : Dev) (e : Env) (p : Priv) (a n k : Nat) : Bool := e.id == .ac && !(d.core .ac).pmpOk p a n k

/-! ### Triggers (R405) -/

/-- The action of a trigger that fires at address `a` for kind `k` (0 load, 1 store, 2 execute); none fires in Debug
Mode. -/
def Dev.triggered (d : Dev) (e : Env) (a k : Nat) : Option Nat :=
  let c := d.core e.id
  if e.dbg then none
  else ((List.range e.id.triggers).find? fun i =>
    let t := vGet c.trig i {}
    t.addr.toNat == a && bit t.ctl.toNat k && bit t.ctl.toNat (if c.priv == .machine then 6 else 3)).map
      fun i => bits (vGet c.trig i {}).ctl.toNat 12 4

/-! ### Memory accesses -/

/-- How an access of a core goes: data; an exception with its cause and mtval; Debug Mode by a trigger; held. -/
inductive MemRes where
  | ok (v : Nat) | trap (cause : Nat) (tval : Nat) | debug | wait
deriving DecidableEq, Repr

/-- What a bus answer is to the core; `cause`: the access fault. -/
def Resp.mem (x : Resp) (cause a : Nat) : MemRes :=
  match x with
  | .ok v => .ok v
  | .error => .trap cause a
  | .wait => .wait

/-- A load of `size` at `a`. -/
def Dev.load (d : Dev) (e : Env) (a : Nat) (size : Size) (clash : Option PortClash) : MemRes × Dev :=
  match d.triggered e a 0 with
  | some 0 => (.trap 3 a, d)
  | some _ => (.debug, d)
  | none =>
    if !aligned a size then (.trap 4 a, d)
    else if d.protects e (e.dataPriv (d.core e.id)) a size.bytes 0 then (.trap 5 a, d)
    else match d.busRead e.req a size clash with
      | (x, d) => (x.mem 5 a, d)

/-- A store of the low bits of `v`, of `size`, at `a`. -/
def Dev.store (d : Dev) (e : Env) (a v : Nat) (size : Size) (clash : Option PortClash) : MemRes × Dev :=
  match d.triggered e a 1 with
  | some 0 => (.trap 3 a, d)
  | some _ => (.debug, d)
  | none =>
    if !aligned a size then (.trap 6 a, d)
    else if d.protects e (e.dataPriv (d.core e.id)) a size.bytes 1 then (.trap 7 a, d)
    else match d.busWrite e.req a v size clash with
      | (x, d) => (x.mem 7 a, d)

/-- R24: the regions that may be executed. -/
def executable (a : Nat) : Bool :=
  match decodeAddr a with
  | some (.bootRom _) | some (.lfl _) | some (.afl _) => true
  | some (.sram b _) => b < 16
  | _ => false

/-- R24: whether the core may fetch at `a`: the LC reads AFL and does not execute from it. -/
def fetchable (id : CoreId) (a : Nat) : Bool := executable a && !(id == .lc && 0x0C000000 ≤ a && a < 0x0C200000)

/-- R231: what a fetch from an address that holds no instructions leaves: a region for the LC only is recorded. -/
def Dev.fetchRefused (d : Dev) (e : Env) (a : Nat) : Dev :=
  match decodeAddr a with
  | some t => (d.reachGate e.req t a false).2
  | none => d

/-- A fetch of the halfword at `a`. -/
def Dev.fetchHalf (d : Dev) (e : Env) (a tval : Nat) : MemRes × Dev :=
  if d.protects e (e.priv (d.core e.id)) a 2 4 then (.trap 1 tval, d)
  else if !fetchable e.id a then (.trap 1 tval, d.fetchRefused e a)
  else match d.busRead e.req a .half none with
    | (x, d) => (x.mem 1 tval, d)

/-- A fetch at `pc`: 16 or 32 bits. -/
def Dev.fetch (d : Dev) (e : Env) (pc : Nat) : MemRes × Dev :=
  match d.fetchHalf e pc pc with
  | (.ok lo, d) =>
    if lo % 4 != 3 then (.ok lo, d)
    else
      let a := (pc + 2) % 2 ^ 32
      match d.fetchHalf e a a with
      | (.ok hi, d) => (.ok (lo + hi * 65536), d)
      | other => other
  | other => other

/-- The key of the SRAM word at `a`, where atomics are performed: S0–S15 and the DPM (R418). -/
def atomicKey (a : Nat) : Option Nat :=
  match decodeAddr a with
  | some (.sram b w) => if b < 16 || b == 20 then some (sramKey b w) else none
  | _ => none

end Sys2Proof.Machine
end

