-- ==== Sys2Proof/Machine/CpuExec.lean ====
section
/-! DEFINITION. One instruction of a core (R232, R418), its exceptions and interrupts, the boot ROM services an LC
instruction may enter (R415), and the Debug Modules (R405). -/

namespace Sys2Proof.Machine

/-- What an instruction comes to: it goes on at `pc` (`count`: minstret may count it), raises an exception, is illegal,
enters Debug Mode with a cause, or is held by an access. -/
inductive CoreOut where
  | next (pc : Word) (count : Bool) | trap (cause : Nat) (tval : Nat) | illegal | debug (cause : Nat) | wait
deriving DecidableEq, Repr

/-- What a memory access that gave no data makes of its instruction. -/
def MemRes.out : MemRes → Word → CoreOut
  | .ok _, pc => .next pc true
  | .trap c t, _ => .trap c t
  | .debug, _ => .debug 2
  | .wait, _ => .wait

/-- What an instruction works with: its word, its own address, the address after it, and the DPM clash. -/
structure Ins where
  w : Nat
  pc : Word
  nxt : Word
  clash : Option PortClash
deriving DecidableEq, Repr

/-- The register `rd` takes `v`, and the next instruction follows. -/
def Dev.setRd (d : Dev) (e : Env) (i : Ins) (v : Word) : CoreOut × Dev :=
  (.next i.nxt true, d.modCore e.id fun c => c.set (rvRd i.w) v)

/-- A branch or jump to `t`; in the program buffer it is illegal (R405). -/
def Env.goTo (e : Env) (t : Word) : CoreOut := if e.dbg then .illegal else .next t true

/-- LOAD. -/
def Dev.exLoad (d : Dev) (e : Env) (i : Ins) : CoreOut × Dev :=
  let a := ((d.core e.id).get (rvRs1 i.w) + BitVec.ofInt 32 (immI i.w)).toNat
  let f := rvF3 i.w
  let size : Size := if f % 4 = 0 then .byte else if f % 4 = 1 then .half else .word
  if f = 3 || 5 < f then (.illegal, d)
  else match d.load e a size i.clash with
    | (.ok v, d) => d.setRd e i (if f < 4 then BitVec.ofInt 32 (sgn (8 * size.bytes) v) else BitVec.ofNat 32 v)
    | (m, d) => (m.out i.nxt, d)

/-- STORE. -/
def Dev.exStore (d : Dev) (e : Env) (i : Ins) : CoreOut × Dev :=
  let c := d.core e.id
  let a := (c.get (rvRs1 i.w) + BitVec.ofInt 32 (immS i.w)).toNat
  let f := rvF3 i.w
  let size : Size := if f = 0 then .byte else if f = 1 then .half else .word
  if 2 < f then (.illegal, d)
  else match d.store e a (c.get (rvRs2 i.w)).toNat size i.clash with
    | (m, d) => (m.out i.nxt, d)

/-- OP and OP-IMM. -/
def Dev.exOp (d : Dev) (e : Env) (i : Ins) (imm : Bool) : CoreOut × Dev :=
  let c := d.core e.id
  let f := rvF3 i.w
  let f7 := rvF7 i.w
  let a := c.get (rvRs1 i.w)
  if imm then
    if (f = 1 && f7 != 0) || (f = 5 && f7 != 0 && f7 != 0x20) then (.illegal, d)
    else d.setRd e i (alu f (f = 5 && f7 == 0x20) a (BitVec.ofInt 32 (immI i.w)))
  else
    let b := c.get (rvRs2 i.w)
    if f7 = 1 then d.setRd e i (mulDiv f a b)
    else if f7 = 0 || (f7 = 0x20 && (f = 0 || f = 5)) then d.setRd e i (alu f (f7 == 0x20) a b)
    else (.illegal, d)

/-- LR, SC and the AMOs (A 2.1, AC only). -/
def Dev.exAmo (d : Dev) (e : Env) (i : Ins) : CoreOut × Dev :=
  let c := d.core e.id
  let f5 := bits i.w 27 5
  let a := (c.get (rvRs1 i.w)).toNat
  let s := c.get (rvRs2 i.w)
  let lr := f5 == 2
  if e.id == .lc || rvF3 i.w != 2 || (lr && rvRs2 i.w != 0) || !(f5 == 2 || f5 == 3 || (amo f5 0 0).isSome) then (.illegal, d)
  else if !aligned a .word then (.trap (if lr then 4 else 6) a, d)
  else match atomicKey a with
    | none => (.trap (if lr then 5 else 7) a, d)
    | some key =>
      if lr then
        match d.load e a .word i.clash with
        | (.ok v, d) => (d.modCore e.id fun c => { c with resv := some key }).setRd e i (BitVec.ofNat 32 v)
        | (m, d) => (m.out i.nxt, d)
      else if f5 == 3 then
        if c.resv == some key then
          match d.store e a s.toNat .word i.clash with
          | (.ok _, d) => (d.modCore e.id fun c => { c with resv := none }).setRd e i 0
          | (m, d) => (m.out i.nxt, d)
        else (d.modCore e.id fun c => { c with resv := none }).setRd e i 1
      else if d.protects e (e.dataPriv c) a 4 1 then (.trap 7 a, d)
      else match d.load e a .word i.clash with
        | (.ok v, d) =>
          let m : Word := BitVec.ofNat 32 v
          match d.store e a ((amo f5 m s).getD 0).toNat .word i.clash with
          | (.ok _, d) => d.setRd e i m
          | (m, d) => (m.out i.nxt, d)
        | (.trap 5 t, d) => (.trap 7 t, d)
        | (m, d) => (m.out i.nxt, d)

/-- CSRRW, CSRRS, CSRRC and their immediate forms (Zicsr). -/
def Dev.exCsr (d : Dev) (e : Env) (i : Ins) : CoreOut × Dev :=
  let n := bits i.w 20 12
  let f := rvF3 i.w
  let src := rvRs1 i.w
  let c := d.core e.id
  let x : Word := if 4 ≤ f then BitVec.ofNat 32 src else c.get src
  let swap := f % 4 == 1
  let writes := swap || src != 0
  if !c.csrOpen (e.priv c) n writes then (.illegal, d)
  else match d.csrRead e n with
    | (none, d) => (.illegal, d)
    | (some old, d) =>
      let o : Word := BitVec.ofNat 32 old
      let v := if swap then x else if f % 4 == 2 then o ||| x else o &&& ~~~x
      if writes then
        match d.csrSet e n v.toNat with
        | none => (.illegal, d)
        | some d =>
          match d.setRd e i o with
          | (_, d) => (.next i.nxt (n != 0xB02 && n != 0xB82), d)
      else d.setRd e i o

/-- SYSTEM without a CSR: ECALL, EBREAK, MRET, WFI. -/
def Dev.exSystem (d : Dev) (e : Env) (i : Ins) : CoreOut × Dev :=
  let c := d.core e.id
  let machine := e.priv c == .machine
  if i.w = 0x73 then (if e.dbg then .illegal else .trap (if machine then 11 else 8) 0, d)
  else if i.w = 0x100073 then
    if e.dbg then (.debug 1, d)
    else if bit c.dcsr.toNat (if machine then 15 else 12) then (.debug 1, d)
    else (.trap 3 (if bit d.fresh.1.toNat 0 then i.pc.toNat else 0), d.fresh.2)
  else if i.w = 0x30200073 then
    if !machine || e.dbg then (.illegal, d)
    else
      let d := d.modCore e.id fun c => c.mret e.id
      (.next (d.core e.id).pc true, d)
  else if i.w = 0x10500073 then
    if e.dbg then (.next i.nxt true, d)
    else if !machine && c.tw then (.illegal, d)
    else (.next i.nxt true, d.modCore e.id fun c => { c with wfi := true })
  else (.illegal, d)

/-- The meaning of a 32-bit instruction. -/
def Dev.exec32 (d : Dev) (e : Env) (i : Ins) : CoreOut × Dev :=
  let c := d.core e.id
  let f := rvF3 i.w
  match rvOp i.w with
  | 0x37 => d.setRd e i (BitVec.ofInt 32 (immU i.w))
  | 0x17 => if e.dbg then (.illegal, d) else d.setRd e i (i.pc + BitVec.ofInt 32 (immU i.w))
  | 0x6F =>
    match e.goTo (i.pc + BitVec.ofInt 32 (immJ i.w)) with
    | .next t k => (.next t k, (d.setRd e i i.nxt).2)
    | o => (o, d)
  | 0x67 =>
    if f != 0 then (.illegal, d)
    else
      match e.goTo ((c.get (rvRs1 i.w) + BitVec.ofInt 32 (immI i.w)) &&& BitVec.ofNat 32 0xFFFFFFFE) with
      | .next t k => (.next t k, (d.setRd e i i.nxt).2)
      | o => (o, d)
  | 0x63 =>
    match branchTaken f (c.get (rvRs1 i.w)) (c.get (rvRs2 i.w)) with
    | none => (.illegal, d)
    | some t => (e.goTo (if t then i.pc + BitVec.ofInt 32 (immB i.w) else i.nxt), d)
  | 0x03 => d.exLoad e i
  | 0x23 => d.exStore e i
  | 0x13 => d.exOp e i true
  | 0x33 => d.exOp e i false
  | 0x0F => if f = 0 || (f = 1 && e.id == .ac) then (.next i.nxt true, d) else (.illegal, d)
  | 0x2F => d.exAmo e i
  | 0x73 => if f = 0 then d.exSystem e i else if f = 4 then (.illegal, d) else d.exCsr e i
  | _ => (.illegal, d)

/-- The instruction with bits `w` (16 or 32 of them) at `pc`. -/
def Dev.execWord (d : Dev) (e : Env) (w : Nat) (pc : Word) (clash : Option PortClash) : CoreOut × Dev :=
  if w % 4 = 3 then d.exec32 e { w := w, pc := pc, nxt := pc + 4, clash := clash }
  else match expandC (w % 65536) with
    | some w32 => d.exec32 e { w := w32, pc := pc, nxt := pc + 2, clash := clash }
    | none => (.illegal, d)

/-! ### One step of a core -/

/-- minstret counts an instruction. -/
def Core.retire (c : Core) (count : Bool) : Core :=
  if count && !bit c.mcountinhibit.toNat 2 then { c with minstret := (c.minstret + 1) % 2 ^ 64 } else c

/-- A single step is over once its instruction has been executed or has trapped. -/
def Core.stepEnd (c : Core) : Core := if c.stepping then c.enterDebug 4 c.pc else c

/-- What an outcome leaves of the core that was at `pc` with instruction bits `w`. -/
def Dev.coreEnd (d : Dev) (id : CoreId) (w : Nat) (pc : Word) (o : CoreOut) : Dev :=
  match o with
  | .next t count => d.modCore id fun c => ({ c with pc := t }.retire count).stepEnd
  | .trap cause tval => d.modCore id fun c => (c.trap false cause pc (BitVec.ofNat 32 tval)).stepEnd
  | .illegal =>
    let tval : Word := if bit d.fresh.1.toNat 0 then BitVec.ofNat 32 w else 0
    d.fresh.2.modCore id fun c => (c.trap false 2 pc tval).stepEnd
  | .debug cause => d.modCore id fun c => c.enterDebug cause pc
  | .wait => d

/-- The requester of the LC: the boot ROM while its instructions are fetched from there. -/
def coreReq (id : CoreId) (pc : Word) : Requester :=
  match id with
  | .lc => if pc.toNat < 0x8000 then .bootRom else .lc
  | .ac => .ac

/-- Fetch and execute at the core's pc. -/
def Dev.coreExec (d : Dev) (id : CoreId) (clash : Option PortClash) : Dev :=
  let pc := (d.core id).pc
  let e : Env := ⟨id, coreReq id pc, false⟩
  match d.triggered e pc.toNat 2 with
  | some 0 => d.coreEnd id 0 pc (.trap 3 pc.toNat)
  | some _ => d.coreEnd id 0 pc (.debug 2)
  | none =>
    match d.fetch e pc.toNat with
    | (.ok w, d) =>
      match d.execWord e w pc clash with
      | (o, d) => d.coreEnd id w pc o
    | (m, d) => d.coreEnd id 0 pc (m.out pc)

/-- An access of the core is under way and held: no interrupt is taken in the middle of its instruction. -/
def Dev.coreHeld (d : Dev) (id : CoreId) : Bool :=
  (id == .lc && d.mule.lcWait.isSome) || d.mem.dpmWait.any fun q => if id == .lc then q.req.isLc else q.req.isAc

/-- The external interrupt is taken now (R233, R418); not while single-stepping without stepie. -/
def Dev.coreIrq (d : Dev) (id : CoreId) : Bool :=
  let c := d.core id
  c.meie && (c.mie || c.priv == .user) && !(c.stepping && !bit c.dcsr.toNat 11) && !d.coreHeld id && d.line id.target

/-- WFI ends when the enabled interrupt is pending, or while stepping. -/
def Dev.wfiEnds (d : Dev) (id : CoreId) : Bool :=
  let c := d.core id
  (c.meie && d.line id.target) || c.stepping

/-- One instruction of a running core, or the interrupt that comes before it. -/
def Dev.coreStep (d : Dev) (id : CoreId) (clash : Option PortClash) : Dev :=
  let c := d.core id
  if c.wfi && !d.wfiEnds id then d
  else
    let d := d.setCore id { c with wfi := false }
    if d.coreIrq id then d.modCore id fun c => c.trap true 11 c.pc 0
    else d.coreExec id clash

/-- The core is out of reset in a domain that is on and not being quiesced, its clock runs (R351), and it is not in Debug
Mode. -/
def Dev.coreRuns (d : Dev) (id : CoreId) : Bool :=
  (d.core id).on && !(d.core id).halted && d.cur != .idle && d.domOn .sys && d.domOn id.dom && !d.quiescing id.dom && !d.quiescing .sys

/-- R415, R421: the LC at a service address runs the service; the boot ROM at work keeps the LC. -/
def Dev.lcStep (d : Dev) (clash : Option PortClash) : Dev :=
  if d.boot.rom || d.boot.loader.isSome || !d.coreRuns .lc || d.mem.dpmWait.any (·.req.isLc) then d
  else if d.lc.pc == 0x100 then d.appBoot
  else if d.lc.pc == 0x104 then
    match d.fresh.2.sealStore (d.fresh.1.getLsbD 0) with
    | (a0, d) => d.serviceReturn a0
  else if d.lc.pc == 0x108 then d.loaderStart false false
  else d.coreStep .lc clash

def Dev.acStep (d : Dev) (clash : Option PortClash) : Dev :=
  if !d.coreRuns .ac || d.mem.dpmWait.any (·.req.isAc) then d else d.coreStep .ac clash

/-- R200: a port A access that waits is served, or ends in a bus error; `atLimit`: in the clock in which RETRY_MAX expires. -/
def Dev.dpmRetry (d : Dev) (served atLimit : Bool) : Dev :=
  match d.mem.dpmWait with
  | none => d
  | some q =>
    let d := { d with mem.dpmWait := none }
    let id : CoreId := if q.req.isLc then .lc else .ac
    let d := if served && atLimit then (d.setF Fld.DPM_DPM_STAT_AT_LIMIT 1).raise Ev.DPM_AT_LIMIT else d
    if !d.coreRuns id then d
    else if served then d.coreExec id none
    else
      let pc := (d.core id).pc
      match d.fetch ⟨id, coreReq id pc, false⟩ pc.toNat with
      | (.ok w, d) =>
        let w32 := if w % 4 = 3 then w else (expandC (w % 65536)).getD 0
        let load := rvOp w32 == 0x03 || (rvOp w32 == 0x2F && bits w32 27 5 == 2)
        d.coreEnd id w pc (.trap (if load then 5 else 7) (0x38000000 + 4 * q.word))
      | (m, d) => d.coreEnd id 0 pc (m.out pc)

/-! ### Debug Modules (R405, R406) -/

/-- The core's Debug Module is reached, and its core is there. -/
def Dev.debugOpen (d : Dev) (id : CoreId) : Bool :=
  (if id == .lc then d.lcDebug else d.acDebug) && d.domOn .sys && d.domOn id.dom && (d.core id).on

def Dev.debugHalt (d : Dev) (id : CoreId) : Dev :=
  if d.debugOpen id && !(d.core id).halted then d.modCore id fun c => c.enterDebug 3 c.pc else d

def Dev.debugResume (d : Dev) (id : CoreId) : Dev :=
  if d.debugOpen id && (d.core id).halted then d.modCore id Core.leaveDebug else d

/-- A halted core is resumed with dcsr.step, executes one instruction and halts again. -/
def Dev.debugStep (d : Dev) (id : CoreId) : Dev :=
  if d.debugOpen id && (d.core id).halted then
    let d := d.modCore id fun c => { c with dcsr := c.dcsr ||| 4 }.leaveDebug
    if id == .lc then d.lcStep none else d.acStep none
  else d

/-- The environment of abstract commands and of the program buffer. -/
def dbgEnv (id : CoreId) : Env := ⟨id, if id == .lc then .lcDbg else .acDbg, true⟩

/-- abstractcs.cmderr after an abstract command. -/
def Dev.cmdErr (d : Dev) (id : CoreId) (k : Nat) : Dev := d.modCore id fun c => { c with cmderr := k }

/-- Access Register: a GPR or a CSR of a halted core, through data0. -/
def Dev.accessReg (d : Dev) (id : CoreId) (regno : Nat) (write : Option Word) : Dev :=
  let e := dbgEnv id
  if !d.debugOpen id then d
  else if !(d.core id).halted then d.cmdErr id 4
  else
    let d := match write with
      | some v => d.modCore id fun c => { c with data0 := v }
      | none => d
    let done := fun (d : Dev) => (d.cmdErr id 0).answer (.data (d.core id).data0)
    if regno < 0x1000 then
      match write with
      | some v =>
        match (if (d.core id).csrOpen .machine regno true then d.csrSet e regno v.toNat else none) with
        | some d => done d
        | none => d.cmdErr id 3
      | none =>
        match d.csrRead e regno with
        | (some v, d) => done (d.modCore id fun c => { c with data0 := BitVec.ofNat 32 v })
        | (none, d) => d.cmdErr id 3
    else if regno < 0x1020 then
      match write with
      | some v => done (d.modCore id fun c => c.set (regno - 0x1000) v)
      | none => done (d.modCore id fun c => { c with data0 := c.get (regno - 0x1000) })
    else d.cmdErr id 2

/-- The instructions of the program buffer from byte `at_` on; past its end stands the implicit EBREAK.  The answer is
cmderr, or none where an access is held. -/
def Dev.progbufRun (id : CoreId) (bytes : Nat) : Nat → Nat → Dev → Option Nat × Dev
  | 0, _, d => (some 0, d)
  | fuel + 1, at_, d =>
    if 8 ≤ at_ then (some 0, d)
    else
      let w := bits bytes (8 * at_) 32
      let w := if w % 4 = 3 then w else w % 65536
      match d.execWord (dbgEnv id) w 0 none with
      | (.next _ count, d) =>
        let c := d.core id
        let d := d.setCore id (c.retire (count && !bit c.dcsr.toNat 10))
        Dev.progbufRun id bytes fuel (at_ + if w % 4 = 3 then 4 else 2) d
      | (.debug _, d) => (some 0, d)
      | (.trap _ _, d) | (.illegal, d) => (some 3, d)
      | (.wait, d) => (none, d)

/-- The program buffer is loaded and executed on the halted core; with a held access it leaves the core as it was. -/
def Dev.progbufExec (d : Dev) (id : CoreId) (w0 w1 : Word) : Dev :=
  if !d.debugOpen id then d
  else if !(d.core id).halted then d.cmdErr id 4
  else
    let d := d.modCore id fun c => { c with progbuf := #v[w0, w1] }
    match Dev.progbufRun id (w0.toNat + w1.toNat * 2 ^ 32) 4 0 d with
    | (some k, d) => d.cmdErr id k
    | (none, d') => (d'.setCore id (d.core id)).cmdErr id 1

/-- ndmreset: APP for the AC, LGL for the LC. -/
def Dev.ndmreset (d : Dev) (id : CoreId) : Dev :=
  let open_ := (if id == .lc then d.lcDebug else d.acDebug) && d.domOn .sys
  match id with
  | .lc => if open_ then d.lglReset 6 else d
  | .ac => if open_ && d.domOn .app then d.acReset else d

end Sys2Proof.Machine
end

