-- ==== Sys2Proof/Machine/HostPort.lean ====
section
/-! DEFINITION. The host port: HSPI frames and I²C transactions, word by word (R201, R382–R396). -/

namespace Sys2Proof.Machine

/-! ### One word (R382, R383) -/

/-- Result codes of R383. -/
def hostOk : Nat := 0
def hostBadcmd : Nat := 1
def hostRange : Nat := 2
def hostAlign : Nat := 3
def hostBuserr : Nat := 4
def hostNotready : Nat := 5
def hostAbort : Nat := 6
def hostPortBusy : Nat := 7

def Resp.host : Resp → HostStep
  | .ok v => .ok v
  | .error => .fail hostBuserr
  | .wait => .held

/-- R382: the host address after `h`. -/
def nextHost (h : Nat) : Nat := (h + 4) % 2 ^ 24

def HostTx.req (x : HostTx) : Requester := if x.i2c then .i2ct else .hspi

def Dev.setTx (d : Dev) (f : HostTx → HostTx) : Dev :=
  match d.ports.host.tx with
  | some x => { d with ports.host.tx := some (f x) }
  | none => d

/-- R199: a port B read that collides as the later access: no data, no classification. -/
def Dev.portBLost (d : Dev) (r : Requester) (a w : Nat) : Resp × Dev :=
  match d.reachGate r (.sram 20 w) a false with
  | (.go, d) => if d.clearing then (.wait, d) else (.ok d.fresh.1.toNat, d.fresh.2)
  | (.refuse, d) => (.error, d)
  | (.wait, d) => (.wait, d)

/-- One word at host address `h`.  A collision in which port B is the later port asserts DPM_BUSY (R199, R201). -/
def Dev.hostWord (d : Dev) (r : Requester) (h : Nat) (write : Option Word) (clash : Option PortClash) : HostStep × Dev :=
  if h % 4 != 0 then (.fail hostAlign, d)
  else match hostAddr h with
    | none => (.fail hostRange, d)
    | some a =>
      let hit := h < 0x2000 && d.portB clash (h / 4) write.isSome
      let res := match write with
        | some v => d.busWrite r a v.toNat .word none
        | none => if hit then d.portBLost r a (h / 4) else d.busRead r a .word none
      match res with
      | (.ok v, d) => (.ok v, if hit then (d.collide (h / 4) true).setTx fun x => { x with coll := true } else d)
      | (x, d) => (x.host, d)

/-! ### The transaction in progress (R383, R388) -/

/-- The word at its address fails: nothing after it is performed. -/
def Dev.txFail (d : Dev) (code : Nat) : Dev := d.setTx fun x => { x with fail := some (code, x.addr), next := none, held := none }

/-- The word at its address has been performed; I2CT's pointer follows. -/
def Dev.txStep (d : Dev) : Dev :=
  let d := d.setTx fun x => { x with addr := nextHost x.addr, next := none, held := none }
  match d.ports.host.tx with
  | some x => if x.i2c then d.wr Reg.I2CT_PTR x.addr else d
  | none => d

/-- R386, R394: a word is to be written.  Behind a held word, HSPI's fails and I2CT's waits (R388). -/
def Dev.txWrite (clash : Option PortClash) (d : Dev) (v : Word) : Dev :=
  match d.ports.host.tx with
  | none => d
  | some x =>
    if x.held.isSome then
      d.setTx fun x =>
        if x.i2c then { x with rest := x.rest ++ [v] }
        else if x.fail.isSome then x
        else { x with fail := some (hostNotready, nextHost x.addr) }
    else if x.fail.isSome then d
    else match d.hostWord x.req x.addr (some v) clash with
      | (.ok _, d) => d.txStep
      | (.fail c, d) => d.txFail c
      | (.held, d) => d.setTx fun x => { x with held := some v }

/-- R388: the next read word is started. -/
def Dev.txStart (clash : Option PortClash) (d : Dev) : Dev :=
  match d.ports.host.tx with
  | none => d
  | some x =>
    if x.fail.isSome || x.next.isSome then d
    else match d.hostWord x.req x.addr none clash with
      | (t, d) => d.setTx fun x => { x with next := some t }

/-- The read word that has been started is driven; from the first failing one on, words are 0 (R383). -/
def Dev.txRead (d : Dev) (late : Bool) : Word × Dev :=
  match d.ports.host.tx.bind (·.next) with
  | some (.ok v) => if late then (0, d.txFail hostNotready) else (BitVec.ofNat 32 v, d.txStep)
  | some (.fail c) => (0, d.txFail c)
  | some .held => (0, d.txFail hostNotready)
  | none => (0, d)

/-! ### Results (R383, R387) -/

/-- R387: the status byte, of the frame before. -/
def Dev.hspiStatus (d : Dev) : Byte :=
  let p := d.ports.host
  BitVec.ofNat 8 (0x40 + b2n (d.line 2) * 32 + b2n p.busy * 16 + b2n p.limit * 8 + p.result)

/-- The result of a frame: the registers, and what the next frame's status shows. -/
def Dev.hspiResult (d : Dev) (fail : Option (Nat × Nat)) (coll limit : Bool) : Dev :=
  let d := match fail with
    | some (c, a) =>
      (((d.setF Fld.HSPI_HOST_STAT_LAST_ERR c).wr Reg.HSPI_LAST_ADDR a).incF Fld.HSPI_HOST_STAT_ERR_CNT).raise Ev.HSPI_FRAME_ERR
    | none => d
  let d := if coll then d.setF Fld.HSPI_HOST_STAT_BUSY_SEEN 1 else d
  let d := if limit then (d.setF Fld.HSPI_HOST_STAT_AT_LIMIT 1).raise Ev.HSPI_AT_LIMIT else d
  { d with ports.host.result := (fail.map (·.1)).getD 0, ports.host.busy := coll, ports.host.limit := limit }

def Dev.i2cResult (d : Dev) (fail : Option (Nat × Nat)) : Dev :=
  match fail with
  | some (c, a) =>
    (((d.setF Fld.I2CT_STAT_LAST_ERR c).wr Reg.I2CT_LAST_ADDR a).incF Fld.I2CT_STAT_ERR_CNT).raise Ev.I2CT_I2C_ERR
  | none => d

/-- The transaction ends with its result; a word cut short is discarded with ALIGN, unless a word before it failed. -/
def Dev.txEnd (d : Dev) : Dev :=
  match d.ports.host.tx with
  | none => d
  | some x =>
    let d : Dev := { d with ports.host.tx := none }
    let fail := if x.fail.isNone && x.part then some (hostAlign, x.addr) else x.fail
    if x.i2c then d.i2cResult fail else d.hspiResult fail x.coll x.limit

/-- It ends once it is closed and no word of it is held. -/
def Dev.txClose (d : Dev) : Dev :=
  if d.ports.host.tx.any fun x => x.closed && x.held.isNone && (!x.i2c || x.next != some .held) then d.txEnd else d

/-- What the door says of the end of its part. -/
def Dev.txOver (d : Dev) (last part : Bool) : Dev :=
  if last then (d.setTx fun x => { x with closed := true, part := part }).txClose else d

/-- R201: in a transaction in which port B came second, every DPM word read through it is undefined. -/
def Dev.hostData (d : Dev) (ws : List (Nat × Word)) : List Word × Dev :=
  let coll := d.ports.host.tx.any (·.coll)
  ws.foldl (fun p w => if coll && w.1 < 0x2000 then (p.1 ++ [p.2.fresh.1], p.2.fresh.2) else (p.1 ++ [w.2], p.2)) ([], d)

/-! ### HSPI (R385–R391) -/

/-- A frame begins in SPI mode `mode` at host address `addr`: whether it is served.  PER off gives no answer; a frame that
finds the port held by I2CT, PER in quiesce, or its own door's last word still held, ends at once (R384, R388, R389). -/
def Dev.hspiOpen (d : Dev) (mode addr : Nat) : Bool × Dev :=
  let d := if d.ports.host.tx.any fun x => !x.i2c && x.held.isNone then d.txEnd else d
  let d := (d.setB Fld.HSPI_HOST_STAT_MODE3 (decide (2 ≤ mode))).incWrap Reg.HSPI_FRAME_CNT
  if d.ports.host.tx.any (·.i2c) then (false, d.hspiResult (some (hostPortBusy, addr)) false false)
  else if d.quiescing .per then (false, d.hspiResult (some (hostAbort, addr)) false false)
  else if d.ports.host.tx.isSome then (false, d.hspiResult (some (hostNotready, addr)) false false)
  else (true, { d with ports.host.tx := some { i2c := false, addr := addr } })

/-- A part of a frame: what `k` does with the frame in progress, between its start and its end; the words read, `n` of
them; `part`: it ends inside a word. -/
def Dev.hspiPart (d : Dev) (f : HspiFrame) (n : Nat) (part : Bool) (k : Dev → List Word × Dev) : Dev :=
  if !d.domOn .per || !d.domOn .sys then d
  else
    let st := d.hspiStatus
    match (if f.part.start then d.hspiOpen f.mode.val (f.addr % 2 ^ 24)
      else (d.ports.host.tx.any (fun x => !x.i2c && !x.closed), d)) with
    | (true, d) =>
      match k d with
      | (ws, d) => (d.txOver f.part.last part).answer (.frame st ws)
    | (false, d) => d.answer (.frame st (List.replicate n 0))

/-- R386: command 0x02. -/
def Dev.hspiWriteFrame (d : Dev) (f : HspiFrame) (words : List Word) (tail : Nat) : Dev :=
  d.hspiPart f 0 (tail != 0) fun d => ([], words.foldl (Dev.txWrite f.clash) d)

/-- `n` words driven, the word with count `late` missing its deadline; behind the middle of each, the next is started. -/
def Dev.hspiWords (clash : Option PortClash) (late : Option Nat) : Nat → Nat → Dev → List (Nat × Word) × Dev
  | 0, _, d => ([], d)
  | n + 1, k, d =>
    let h := (d.ports.host.tx.map (·.addr)).getD 0
    match d.txRead (late == some k) with
    | (v, d) =>
      match Dev.hspiWords clash late n (k + 1) (d.txStart clash) with
      | (ws, d) => ((h, v) :: ws, d)

/-- The word cut short: what it and the word started behind its middle leave. -/
def Dev.hspiTail (d : Dev) (clash : Option PortClash) (late : Bool) (tail : Nat) : Dev :=
  match d.ports.host.tx with
  | none => d
  | some x =>
    match x.next with
    | some (.ok _) =>
      if late then d.txFail hostNotready
      else if 16 ≤ tail then (d.hostWord x.req (nextHost x.addr) none clash).2
      else d
    | some (.fail c) => d.txFail c
    | some .held => d.txFail hostNotready
    | none => d

/-- R386, R388: command 0x03, of `n` words and `tail` bits of one more. -/
def Dev.hspiReadFrame (d : Dev) (f : HspiFrame) (n : Nat) (late : Option Nat) (limit : Bool) (tail : Nat) : Dev :=
  d.hspiPart f n (tail != 0) fun d =>
    match Dev.hspiWords f.clash late n 0 (d.txStart f.clash) with
    | (ws, d) =>
      let d := (if tail = 0 then d else d.hspiTail f.clash (late == some n) tail).setTx fun x =>
        { x with limit := x.limit || limit }
      d.hostData ws

/-- R386: any other command byte. -/
def Dev.hspiBadFrame (d : Dev) (cmd : Nat) (mode : Fin 4) : Dev :=
  if cmd = 2 || cmd = 3 then d
  else d.hspiPart { addr := 0, mode := mode, clash := none, part := ⟨true, true⟩ } 0 false fun d => ([], d.txFail hostBadcmd)

/-! ### I²C (R393–R396) -/

/-- A transaction, or a part of one, with the address matched: what `k` does follows, unless I2CT is not there, the other
door holds the port (R384), PER is being quiesced, or SCL is stretched.  A repeated START keeps DPM_BUSY asserted. -/
def Dev.i2cPart (d : Dev) (p : TxPart) (part : Bool) (k : Dev → Dev) : Dev :=
  let mine := d.ports.host.tx.filter (·.i2c)
  if !d.domOn .per || !d.domOn .sys || !d.on Fld.I2CT_ADDR_EN then d
  else if p.start then
    if mine.any fun x => x.held.isSome || x.next == some .held then d
    else if d.ports.host.tx.isSome && mine.isNone then
      ((d.incF Fld.I2CT_STAT_NACK_CNT).raise Ev.I2CT_PORT_BUSY).answer .nack
    else
      let d := d.txEnd
      if d.quiescing .per then d.i2cResult (some (hostAbort, d.rd Reg.I2CT_PTR))
      else
        let x : HostTx := { i2c := true, addr := d.rd Reg.I2CT_PTR, coll := mine.any (·.coll) }
        (k { d with ports.host.tx := some x }).txOver p.last part
  else if mine.any fun x => !x.closed && x.held.isNone && x.next != some .held then (k d).txOver p.last part
  else d

/-- The pointer, where the part starts the transaction. -/
def Dev.i2cPtr (d : Dev) (p : TxPart) (a : Nat) : Dev :=
  if p.start then (d.wr Reg.I2CT_PTR (a % 2 ^ 24)).setTx fun x => { x with addr := a % 2 ^ 24 } else d

def Dev.i2cPointer (d : Dev) (a : Nat) (p : TxPart) : Dev := d.i2cPart p false fun d => d.i2cPtr p a

/-- R394: a write; a byte that ends a failed word is NACKed. -/
def Dev.i2cWriteTx (d : Dev) (a : Nat) (words : List Word) (tail : Nat) (clash : Option PortClash) (p : TxPart) : Dev :=
  d.i2cPart p (tail != 0) fun d =>
    let d := words.foldl (Dev.txWrite clash) (d.i2cPtr p a)
    d.answer (if d.ports.host.tx.any (·.fail.isSome) then .nack else .done)

/-- `n` words read; a held word stretches SCL, and the words behind it wait (R394, R395). -/
def Dev.i2cWords (clash : Option PortClash) : Nat → Dev → List (Nat × Word) × Dev
  | 0, d => ([], d.setTx fun x => { x with n := 0 })
  | n + 1, d =>
    let h := (d.ports.host.tx.map (·.addr)).getD 0
    let d := d.txStart clash
    if d.ports.host.tx.any (·.next == some .held) then ([], d.setTx fun x => { x with n := n + 1 })
    else match d.txRead false with
      | (v, d) =>
        match Dev.i2cWords clash n d with
        | (ws, d) => ((h, v) :: ws, d)

/-- `n` words read, and the word of which only a part follows. -/
def Dev.i2cReads (clash : Option PortClash) (n : Nat) (part : Bool) (d : Dev) : List Word × Dev :=
  match Dev.i2cWords clash n d with
  | (ws, d) =>
    let d := if part then d.txStart clash else d
    let d := match d.ports.host.tx.bind (·.next) with
      | some (.fail c) => d.txFail c
      | _ => d
    d.hostData ws

/-- R394: a read of `n` words and, where `tail` is not 0, of a part of one more. -/
def Dev.i2cReadTx (d : Dev) (n tail : Nat) (clash : Option PortClash) (limit : Bool) (p : TxPart) : Dev :=
  d.i2cPart p (tail != 0) fun d =>
    let d := if limit then (d.setF Fld.I2CT_STAT_AT_LIMIT 1).raise Ev.I2CT_AT_LIMIT else d
    match d.i2cReads clash n (tail != 0) with
    | (ws, d) => d.answer (.words ws)

/-- R395: a read stretch has lasted STRETCH_MAX. -/
def Dev.i2cStretchEnd (d : Dev) : Dev :=
  match d.ports.host.tx with
  | some x =>
    if x.i2c && x.next == some .held then (d.txFail hostNotready).txClose.answer (.words (List.replicate x.n 0)) else d
  | none => d

/-! ### The end of a hold (R356, R388) -/

/-- R356: a transaction in progress when PER's quiesce begins ends with ABORT. -/
def Dev.txAbort (d : Dev) : Dev := if d.quiescing .per then (d.txFail hostAbort).txEnd else d

/-- A held word: performed once its drop is aborted, failed once the drop is decided. -/
def Dev.txHeld (d : Dev) : Dev :=
  match d.ports.host.tx with
  | none => d
  | some x =>
    match x.held with
    | some v =>
      match d.hostWord x.req x.addr (some v) none with
      | (.held, _) => d
      | (.fail c, d) => (d.txFail c).txClose
      | (.ok _, d) => (x.rest.foldl (Dev.txWrite none) (d.txStep.setTx fun x => { x with rest := [] })).txClose
    | none =>
      if x.next == some .held then
        match d.hostWord x.req x.addr none none with
        | (.held, _) => d
        | (t, d) =>
          let d := d.setTx fun x => { x with next := some t }
          if x.i2c then
            match d.i2cReads none x.n x.part with
            | (ws, d) => (if d.bus == .none then d.answer (.words ws) else d).txClose
          else d
      else d

end Sys2Proof.Machine
end

