-- ==== Sys2Proof/Machine/Finish.lean ====
section
/-! DEFINITION. What follows from a command in the clocks after it: votes that hardware casts, work that a block hands to
another, and the settling of the events raised (R30, R73, R78, R225, R319, R347, R356, R388, R398). -/

namespace Sys2Proof.Machine

/-- R347, slot 3: a page-in, epoch, restore, format or ring write runs. -/
def Dev.muleWorks (d : Dev) : Bool :=
  d.mule.op.isSome || d.mule.epoch.isSome || d.mule.store == .restoring || d.mule.store == .formatting || d.bill.out.isSome

/-- R347, slot 4: a host transaction, an MSPI or a host DMA transfer runs. -/
def Dev.portsWork (d : Dev) : Bool := d.ports.host.tx.isSome || d.ports.dir.isSome || d.ports.dma.isSome || d.framBusy

/-- Slot `s` of domain `x` follows `b`; a slot newly set needs the domain, though it does not end an entry, which only
software and wake requests do (R353). -/
def Dev.followSlot (d : Dev) (x : Dom) (s : Nat) (b : Bool) : Dev :=
  let was := bit (d.slots x) s
  let d := d.hwSlot x s b
  if b && !was && d.pwr.entry.isNone then d.needArose x else d

/-- R347: slots 3 and 4 follow the work that holds them. -/
def Dev.voteSync (d : Dev) : Dev :=
  let on := d.domOn .sys
  let busy := on && d.muleWorks
  let stage := bankDom d.stageBank
  let d := Dom.all.foldl (fun d x =>
    if x == .aon then d else d.followSlot x 3 (busy && (x == .per || x == stage))) d
  d.followSlot .per 4 (on && d.portsWork)

/-- R73: a task is complete when its unit is no longer at work with it. -/
def Dev.unitsDone (d : Dev) : Dev :=
  [1, 3, 4, 5].foldl (fun d u => if d.herd.running.any (·.1 == u) && !d.unitRunning u then d.unitComplete u else d) d

/-- The reactions that no rule gives a command of their own, in one order, and the settling of the events. -/
def Dev.finish (d : Dev) : Dev :=
  let d := Dev.askWaiting 8 ((d.bootTry.appBootDue.muleReports).unitsDone)
  let d := d.muleTryRestore
  let d := (d.txHeld).voteSync
  let d := (((d.mspiRefresh).errRefresh).dropCheck.txAbort).uartGo
  d.wakeCheck.pendStart.upBegin.settle

/-- The frame of every command: the answer of the last access is gone, the effect takes place, what follows from it
settles; the queue stands. -/
def State.run (s : State) (f : Dev → Dev) : Host.Outcome State Fault Refusal :=
  .next { s with dev := (f (s.dev.answer .none)).finish }

end Sys2Proof.Machine
end

