-- ==== Sys2Proof/Machine/RegCmds.lean ====
section
/-! DEFINITION. Commands on registers in general, and the instructions of the two cores (R12, R16, R30, R31, R232, R418,
R433). -/

namespace Sys2Proof.Machine

/-- The word with `v` in field `f` and 0 elsewhere. -/
def Field.word (f : Field) (v : Nat) : Nat := v % 2 ^ f.width * 2 ^ f.lo

/-- The register of field `f` as it stands, with `v` in the field. -/
def Dev.withF (d : Dev) (f : Field) (v : Nat) : Nat := setBits (d.rd f.reg) f.lo f.width v

/-- R13: the W1C bits among `hw` of the register at `a` are set by hardware; a pending bit by a rise of its event. -/
def Dev.hwSet (d : Dev) (a hw : Nat) : Dev :=
  match decodeAddr a with
  | some (.reg p off) =>
    if !d.domOn p.dom then d
    else if off == 0x18 then
      match p.events with
      | some (b, n) => forUpto n (fun k d => d.raiseIf (bit hw k) (b + k)) d
      | none => d
    else d.wr a (d.rd a ||| (hw &&& fieldMask (fun f => f.ty == .w1c) (fieldsAt p off)))
  | _ => d

/-- R12, R13: `r` writes `data` at bus address `addr`; what hardware sets in the same clock ends set. -/
def execRegisterWrite (r : Requester) (addr : Nat) (data : Word) (size : Size) (hw : Word) (s : State) :
    Host.Outcome State Fault Refusal :=
  s.run fun d => (d.cmdWrite r addr data.toNat size).hwSet addr hw.toNat

/-- R16: `r` reads the low word of a pair; the high word is captured for it. -/
def execRead64Low (r : Requester) (addr : Nat) (s : State) : Host.Outcome State Fault Refusal :=
  s.run fun d => d.cmdRead r addr

/-- R31: PG_LOCK.LOCK of a page is set. -/
def execPgLockSet (r : Requester) (page : Page) (s : State) : Host.Outcome State Fault Refusal :=
  s.run fun d => d.cmdWrite r (Reg.PG_LOCK page) 1 .word

/-- R30: EVT_EN of a page is written. -/
def execEvtEnWrite (r : Requester) (page : Page) (en : Word) (s : State) : Host.Outcome State Fault Refusal :=
  s.run fun d => d.cmdWrite r (Reg.EVT_EN page) en.toNat .word

/-- R433: FLOG_CLR.CLR is written. -/
def execFlogClr (r : Requester) (s : State) : Host.Outcome State Fault Refusal :=
  s.run fun d => d.cmdWrite r Reg.EVTMX_FLOG_CLR 1 .word

/-- R232: one instruction of the LC. -/
def execLcInstruction (clash : Option PortClash) (s : State) : Host.Outcome State Fault Refusal :=
  s.run fun d => d.lcStep clash

/-- R418: one instruction of the AC. -/
def execAcInstruction (clash : Option PortClash) (s : State) : Host.Outcome State Fault Refusal :=
  s.run fun d => d.acStep clash

end Sys2Proof.Machine
end

