-- ==== Sys2Proof/Machine/BillCmds.lean ====
section
/-! DEFINITION. Commands of TARIFF, BILL and PREPAY (R271–R315). -/

namespace Sys2Proof.Machine

/-! ### Tariffs (R274, R275) -/

/-- R275: TBL_CMD.COMMIT is written. -/
def execTblCmdCommit (r : Requester) (s : State) : Host.Outcome State Fault Refusal :=
  s.run fun d => d.cmdWrite r Reg.TARIFF_TBL_CMD 1 .word

/-- R274: CTRL or OVR is written. -/
def execTariffCtrlWrite (r : Requester) (reg : TariffReg) (data : Word) (s : State) : Host.Outcome State Fault Refusal :=
  s.run fun d => d.cmdWrite r (match reg with
    | .ctrl => Reg.TARIFF_CTRL
    | .ovr => Reg.TARIFF_OVR) data.toNat .word

/-! ### Sessions and records (R277–R287) -/

/-- R277: SESS_CMD with OP = OPEN. -/
def execSessOpen (r : Requester) (k : Fin 4) (acct : Fin 1024) (tenant : Bool) (host : Bool) (s : State) :
    Host.Outcome State Fault Refusal :=
  s.run fun d => d.cmdWrite r Reg.BILL_SESS_CMD
    (Fld.BILL_SESS_CMD_OUTLET.word k.val + Fld.BILL_SESS_CMD_OP.word 1 + Fld.BILL_SESS_CMD_ACCT.word acct.val
      + Fld.BILL_SESS_CMD_TENANT.word (b2n tenant) + Fld.BILL_SESS_CMD_HOST.word (b2n host)
      + Fld.BILL_SESS_CMD_GO.word 1) .word

/-- R277: SESS_CMD with OP = CLOSE. -/
def execSessClose (r : Requester) (k : Fin 4) (s : State) : Host.Outcome State Fault Refusal :=
  s.run fun d => d.cmdWrite r Reg.BILL_SESS_CMD
    (Fld.BILL_SESS_CMD_OUTLET.word k.val + Fld.BILL_SESS_CMD_OP.word 2 + Fld.BILL_SESS_CMD_GO.word 1) .word

/-- R277: SESS_CMD with OP = SETTLE. -/
def execSessSettle (r : Requester) (k : Fin 4) (s : State) : Host.Outcome State Fault Refusal :=
  s.run fun d => d.cmdWrite r Reg.BILL_SESS_CMD
    (Fld.BILL_SESS_CMD_OUTLET.word k.val + Fld.BILL_SESS_CMD_OP.word 3 + Fld.BILL_SESS_CMD_GO.word 1) .word

/-- R284: REC_CMD.COMMIT is written. -/
def execRecCommit (r : Requester) (s : State) : Host.Outcome State Fault Refusal :=
  s.run fun d => d.cmdWrite r Reg.BILL_REC_CMD 1 .word

/-- R284: the ring write ends. -/
def execRecDone (framOk : Bool) (s : State) : Host.Outcome State Fault Refusal := s.run fun d => d.recDone framOk

/-- R286: REC_RD_GO is written. -/
def execRecRdGo (r : Requester) (s : State) : Host.Outcome State Fault Refusal :=
  s.run fun d => d.cmdWrite r Reg.BILL_REC_RD_GO 1 .word

/-- R286: the ring read ends. -/
def execRecRdDone (framOk : Bool) (s : State) : Host.Outcome State Fault Refusal := s.run fun d => d.recRdDone framOk

/-! ### Entries and logins (R295–R314) -/

/-- R297: VERDICT is written with GO; `tickNow`: in the release tick. -/
def execVerdict (r : Requester) (v : Word) (tickNow : Bool) (s : State) : Host.Outcome State Fault Refusal :=
  s.run fun d => d.regGate r Reg.PREPAY_VERDICT fun d => d.verdict (bits v.toNat 0 2) tickNow

/-- R297: the release tick of the entry that is held. -/
def execEntryRelease (s : State) : Host.Outcome State Fault Refusal := s.run Dev.releaseAll

/-- R295: no key for 30 s. -/
def execEntryAbandon (s : State) : Host.Outcome State Fault Refusal :=
  s.run fun d => if d.prepay.keys.isEmpty then d else d.entryAbandon.lcdEntryGone

/-- R311: the lock has lasted 900 s. -/
def execKeypadLockEnd (s : State) : Host.Outcome State Fault Refusal := s.run Dev.lockEnd

/-- R310: LOGIN_SET.SET is written. -/
def execLoginSet (r : Requester) (acct : Fin 1024) (s : State) : Host.Outcome State Fault Refusal :=
  s.run fun d => d.cmdWrite r Reg.PREPAY_LOGIN_SET
    (Fld.PREPAY_LOGIN_SET_ACCT.word acct.val + Fld.PREPAY_LOGIN_SET_SET.word 1) .word

/-- R310: LOGIN_SET.CLR is written. -/
def execLoginClr (r : Requester) (s : State) : Host.Outcome State Fault Refusal :=
  s.run fun d => d.cmdWrite r Reg.PREPAY_LOGIN_SET (Fld.PREPAY_LOGIN_SET_CLR.word 1) .word

/-- R309: LOGIN_TMO has passed. -/
def execLoginTimeout (s : State) : Host.Outcome State Fault Refusal :=
  s.run fun d => if d.on Fld.PREPAY_LOGIN_VALID then d.loginEnd else d

end Sys2Proof.Machine
end

