-- ==== Sys2Proof/Machine/CoolCmds.lean ====
section
/-! DEFINITION. Commands of the ultrasonic front end, of flow, of the RTD converter and of the thermal guard
(R82–R136). -/

namespace Sys2Proof.Machine

/-! ### Ultrasonic shots (R86–R110) -/

/-- R86: a fire edge, with the peak driver current and the coarse clock in which it passes SHORT_THR. -/
def execShotFire (t : Elapse) (ipk : Byte) (past : Nat) (s : State) : Host.Outcome State Fault Refusal :=
  s.run fun d => (d.pass t).shotFire ipk.toNat past

/-- R95: the PGA output passes a level. -/
def execFirstHit (t : Nat) (mv : Int) (s : State) : Host.Outcome State Fault Refusal := s.run fun d => d.firstHit t mv

/-- R98: an edge on UFE_XSTART. -/
def execUfeXstartEdge (t : Nat) (s : State) : Host.Outcome State Fault Refusal := s.run fun d => d.xstart t

/-- R86: SHOT_END. -/
def execShotEnd (samples : List (BitVec 12)) (s : State) : Host.Outcome State Fault Refusal :=
  s.run fun d => d.shotEnd samples

/-- R94, R107: the result of the pair in flight; `wrote`: a write of its path's PATH_GAIN in the clock of the gain's step. -/
def Dev.pairResultWith (d : Dev) (wrote : Option WordWrite) : Dev :=
  match wrote, d.pairReady with
  | some w, some p =>
    let a := Reg.UFE_RX_PATH_GAIN p.path
    let stands := (d.cmdWrite w.req a w.data.toNat .word).bus == .done && !d.locked .ufeRx (a % 0x1000)
    (d.pairResult stands).cmdWrite w.req a w.data.toNat .word
  | _, _ => d.pairResult false

/-- R107: the result of the pair. -/
def execPairResult (t : Elapse) (wrote : Option WordWrite) (s : State) : Host.Outcome State Fault Refusal :=
  s.run fun d => (d.pass t).pairResultWith wrote

/-- R109: MAN_FIRE.GO is written; an offer of HERD in the same clock goes first. -/
def execManFire (r : Requester) (path : Fin 4) (set : Fin 16) (herdNow : Bool) (s : State) :
    Host.Outcome State Fault Refusal :=
  s.run fun d =>
    let v := Fld.UFE_DRV_MAN_FIRE_PATH.word path.val + Fld.UFE_DRV_MAN_FIRE_SET.word set.val + Fld.UFE_DRV_MAN_FIRE_GO.word 1
    d.regGate r Reg.UFE_DRV_MAN_FIRE fun d => d.manFire v herdNow

/-- R108: RES_STAT of a path is read. -/
def execResStatRead (r : Requester) (path : Fin 4) (s : State) : Host.Outcome State Fault Refusal :=
  s.run fun d => d.cmdRead r (Reg.UFE_TOF_RES_STAT path.val)

/-! ### Flow (R120, R122) -/

/-- R120: STALE_TICKS have passed without an OK result. -/
def execFlowStale (path : Fin 4) (s : State) : Host.Outcome State Fault Refusal := s.run fun d => d.flowStale path.val

/-- R122: a leak window ends. -/
def execLeakWindowEnd (outlet : Fin 4) (s : State) : Host.Outcome State Fault Refusal := s.run fun d => d.leakEnd outlet.val

/-! ### RTD conversions (R124–R128) -/

/-- R124: MAN_CONV.GO is written. -/
def execManConv (r : Requester) (ch : Fin 8) (fast : Bool) (s : State) : Host.Outcome State Fault Refusal :=
  s.run fun d => d.cmdWrite r Reg.RTD_MAN_CONV
    (Fld.RTD_MAN_CONV_CH.word ch.val + Fld.RTD_MAN_CONV_SLOW.word (b2n !fast) + Fld.RTD_MAN_CONV_GO.word 1) .word

/-- R127: a discarded conversion ends. -/
def execRtdDiscardDone (m : RtdMeas) (s : State) : Host.Outcome State Fault Refusal := s.run fun d => d.rtdDiscardDone m

/-- R127: a conversion completes. -/
def execRtdConvDone (m : RtdMeas) (s : State) : Host.Outcome State Fault Refusal := s.run fun d => d.rtdConvDone m

/-- R124: RTD_CFG of a channel is written. -/
def execRtdCfgWrite (r : Requester) (ch : Fin 8) (data : Word) (s : State) : Host.Outcome State Fault Refusal :=
  s.run fun d => d.cmdWrite r (Reg.RTD_RTD_CFG ch.val) data.toNat .word

/-! ### The thermal guard (R129) -/

/-- R129: the fault evaluation that a change of validity triggered. -/
def execThermFaultEval (outlet : Fin 4) (s : State) : Host.Outcome State Fault Refusal := s.run fun d => d.thermFault outlet.val

end Sys2Proof.Machine
end

