-- ==== Sys2Proof/Machine/DebugCmds.lean ====
section
/-! DEFINITION. Commands of JTAG and the Debug Modules (R404–R406). -/

namespace Sys2Proof.Machine

/-- R406: a JTAG instruction is loaded. -/
def execJtagInstruction (ir : BitVec 5) (s : State) : Host.Outcome State Fault Refusal := s.run fun d => d.jtagIr ir

/-- R405: a core is halted. -/
def execDebugHalt (core : CoreId) (s : State) : Host.Outcome State Fault Refusal := s.run fun d => (d.dmi core).debugHalt core

/-- R405: a core is resumed. -/
def execDebugResume (core : CoreId) (s : State) : Host.Outcome State Fault Refusal := s.run fun d => (d.dmi core).debugResume core

/-- R405: a core executes one instruction. -/
def execDebugStep (core : CoreId) (s : State) : Host.Outcome State Fault Refusal := s.run fun d => (d.dmi core).debugStep core

/-- R405: Access Register. -/
def execAccessRegister (core : CoreId) (regno : BitVec 16) (write : Option Word) (s : State) :
    Host.Outcome State Fault Refusal :=
  s.run fun d => (d.dmi core).accessReg core regno.toNat write

/-- R405: the program buffer is executed. -/
def execProgbufExec (core : CoreId) (w0 : Word) (w1 : Word) (s : State) : Host.Outcome State Fault Refusal :=
  s.run fun d => (d.dmi core).progbufExec core w0 w1

/-- R405: ndmreset. -/
def execNdmreset (core : CoreId) (s : State) : Host.Outcome State Fault Refusal := s.run fun d => (d.dmi core).ndmreset core

/-- R406: DBG_STAT.AC_LOCK is written. -/
def execAcLock (r : Requester) (s : State) : Host.Outcome State Fault Refusal :=
  s.run fun d => d.cmdWrite r Reg.DEBUG_DBG_STAT (Fld.DEBUG_DBG_STAT_AC_LOCK.word 1) .word

end Sys2Proof.Machine
end

