-- ==== Sys2Proof/Machine/GanderCmds.lean ====
section
/-! DEFINITION. Commands of GANDER (R332–R344). -/

namespace Sys2Proof.Machine

/-- R336: sources enter their active states in one LFXO period, those of lower number first; `high`: the stable levels of
their balls. -/
def execGanderOccurrence (srcs : BitVec 14) (high : BitVec 7) (s : State) : Host.Outcome State Fault Refusal :=
  let ss := (List.range 14).filter fun k => bit srcs.toNat k
  s.run fun d => (d.ballsStable ss high).ganderOccur ss

/-- R332: a source leaves its active state; `high`: the stable level of its ball. -/
def execSourceRelease (src : Fin 14) (high : Bool) (s : State) : Host.Outcome State Fault Refusal :=
  s.run fun d => (d.ballsStable [src.val] (BitVec.ofNat 7 (b2n high * 2 ^ src.val))).sourceRelease src.val

/-- R333: the AON temperature sensor is read. -/
def execDieTempReading (t : Int) (s : State) : Host.Outcome State Fault Refusal := s.run fun d => d.dieTemp t

/-- R332: the mesh is checked. -/
def execMeshCheck (matched : Bool) (s : State) : Host.Outcome State Fault Refusal := s.run fun d => d.meshCheck matched

/-- R339: CLR.GO is written. -/
def execGanderClr (r : Requester) (s : State) : Host.Outcome State Fault Refusal :=
  s.run fun d => d.cmdWrite r Reg.GANDER_CLR 1 .word

end Sys2Proof.Machine
end

