-- ==== Sys2Proof/Machine/HerdCmds.lean ====
section
/-! DEFINITION. Commands of HERD (R59–R81, R453). -/

namespace Sys2Proof.Machine

/-- R62: a write into the task RAM at byte `off`. -/
def execTaskDescriptorWrite (r : Requester) (off : Nat) (data : Word) (size : Size) (s : State) :
    Host.Outcome State Fault Refusal :=
  s.run fun d => d.cmdWrite r (0x39000000 + off % 0x4000) data.toNat size

/-- R69: the evaluation of the last sample tick. -/
def execHerdEvaluation (s : State) : Host.Outcome State Fault Refusal := s.run Dev.herdEval

/-- R70: a waiting task reaches DEFER_MAX. -/
def execDeferMaxExpiry (task : Fin 1024) (s : State) : Host.Outcome State Fault Refusal :=
  s.run fun d => d.deferExpiry task.val

/-- R79: the evaluation after a splice. -/
def execSpliceEvaluation (s : State) : Host.Outcome State Fault Refusal := s.run Dev.spliceEvals

/-- R80: CTRL.EN is cleared. -/
def execHerdDisable (r : Requester) (s : State) : Host.Outcome State Fault Refusal :=
  s.run fun d => d.cmdWrite r Reg.HERD_CTRL (d.withF Fld.HERD_CTRL_EN 0) .word

/-- R80: CTRL.EN is set. -/
def execHerdEnable (r : Requester) (s : State) : Host.Outcome State Fault Refusal :=
  s.run fun d => d.cmdWrite r Reg.HERD_CTRL (d.withF Fld.HERD_CTRL_EN 1) .word

/-- R67: PART.LGL_BLOCKS is written. -/
def execPartWrite (r : Requester) (blocks : BitVec 6) (s : State) : Host.Outcome State Fault Refusal :=
  s.run fun d => d.cmdWrite r Reg.HERD_PART (Fld.HERD_PART_LGL_BLOCKS.word blocks.toNat) .word

/-- R74: the counters are cleared. -/
def execHerdCntClr (r : Requester) (s : State) : Host.Outcome State Fault Refusal :=
  s.run fun d => d.cmdWrite r Reg.HERD_CNT_CLR 1 .word

/-- R453: USR events are raised. -/
def execUsrRaise (r : Requester) (mask : BitVec 16) (s : State) : Host.Outcome State Fault Refusal :=
  s.run fun d => d.cmdWrite r Reg.HERD_USR_RAISE mask.toNat .word

end Sys2Proof.Machine
end

