-- ==== Sys2Proof/Machine/HostCmds.lean ====
section
/-! DEFINITION. Commands of the host ports: HSPI, I²C, the host DMA, MSPI, the UART (R382–R403). -/

namespace Sys2Proof.Machine

/-! ### HSPI (R386) -/

/-- R386: a frame with command 0x02. -/
def execHspiWrite (f : HspiFrame) (words : List Word) (tailBits : Fin 32) (s : State) : Host.Outcome State Fault Refusal :=
  s.run fun d => d.hspiWriteFrame f words tailBits.val

/-- R386: a frame with command 0x03. -/
def execHspiRead (f : HspiFrame) (n : Nat) (late : Option Nat) (limit : Bool) (tailBits : Fin 32) (s : State) :
    Host.Outcome State Fault Refusal :=
  s.run fun d => d.hspiReadFrame f n late limit tailBits.val

/-- R386: a frame with an unlisted command byte. -/
def execHspiBadcmd (cmd : Byte) (mode : Fin 4) (s : State) : Host.Outcome State Fault Refusal :=
  s.run fun d => d.hspiBadFrame cmd.toNat mode

/-! ### I²C (R394, R395) -/

/-- R394: the pointer is set. -/
def execI2cSetPointer (addr : Nat) (part : TxPart) (s : State) : Host.Outcome State Fault Refusal :=
  s.run fun d => d.i2cPointer addr part

/-- R394: words are written. -/
def execI2cWrite (addr : Nat) (words : List Word) (tail : Fin 4) (clash : Option PortClash) (part : TxPart) (s : State) :
    Host.Outcome State Fault Refusal :=
  s.run fun d => d.i2cWriteTx addr words tail.val clash part

/-- R394: words are read. -/
def execI2cRead (n : Nat) (tail : Fin 4) (clash : Option PortClash) (limit : Bool) (part : TxPart) (s : State) :
    Host.Outcome State Fault Refusal :=
  s.run fun d => d.i2cReadTx n tail.val clash limit part

/-- R395: a read stretch has lasted STRETCH_MAX. -/
def execI2cReadStretchTimeout (s : State) : Host.Outcome State Fault Refusal := s.run Dev.i2cStretchEnd

/-! ### The host DMA (R392) -/

/-- R392: DMA_CTRL is written with DIR and GO. -/
def execHspiDmaGo (r : Requester) (toBank : Bool) (s : State) : Host.Outcome State Fault Refusal :=
  s.run fun d => d.cmdWrite r Reg.HSPI_DMA_CTRL
    (Fld.HSPI_DMA_CTRL_DIR.word (b2n !toBank) + Fld.HSPI_DMA_CTRL_GO.word 1) .word

/-- R392: the copy ends. -/
def execHspiDmaDone (clash : Option DmaClash) (s : State) : Host.Outcome State Fault Refusal := s.run fun d => d.dmaDone clash

/-! ### MSPI (R397–R401) -/

/-- R399: a transfer and its status check have ended. -/
def execMspiTransferDone (status : Byte) (atLimit : Bool) (s : State) : Host.Outcome State Fault Refusal :=
  s.run fun d => d.mspiDone status.toNat atLimit

/-- R400: a transfer has taken XFER_TMO. -/
def execMspiTimeout (s : State) : Host.Outcome State Fault Refusal := s.run Dev.mspiTimeout

/-- R401: DIR_CTRL is written with GO. -/
def execMspiDirectGo (r : Requester) (ctrl : Word) (s : State) : Host.Outcome State Fault Refusal :=
  s.run fun d => d.cmdWrite r Reg.MSPI_DIR_CTRL (setBits ctrl.toNat 31 1 1) .word

/-- R401: the direct transfer ends. -/
def execDirDone (rx : List Byte) (s : State) : Host.Outcome State Fault Refusal := s.run fun d => d.dirDone rx

/-- R398: CFG is written; T_X follows it. -/
def execMspiCfgWrite (r : Requester) (data : Word) (s : State) : Host.Outcome State Fault Refusal :=
  s.run fun d => d.cmdWrite r Reg.MSPI_CFG data.toNat .word

/-! ### The UART (R402, R403) -/

/-- R402: a byte has been received, with a framing error or a parity error. -/
def execUartRxByte (b : Byte) (fe : Bool) (pe : Bool) (s : State) : Host.Outcome State Fault Refusal :=
  s.run fun d => d.uartRx b fe pe

/-- R402: the byte being sent is out. -/
def execUartTxByteDone (s : State) : Host.Outcome State Fault Refusal := s.run Dev.uartTxDone

/-- R402: DATA is written. -/
def execUartDataWrite (r : Requester) (b : Byte) (s : State) : Host.Outcome State Fault Refusal :=
  s.run fun d => d.cmdWrite r Reg.UART_DATA b.toNat .word

/-- R402: DATA is read. -/
def execUartDataRead (r : Requester) (s : State) : Host.Outcome State Fault Refusal := s.run fun d => d.cmdRead r Reg.UART_DATA

/-- R403: DMA_CFG of an engine is written with EN. -/
def execUartDmaStart (r : Requester) (x : Fin 2) (cfg : Word) (s : State) : Host.Outcome State Fault Refusal :=
  s.run fun d => d.cmdWrite r (Reg.UART_DMA_CFG x.val) (setBits cfg.toNat 4 1 1) .word

end Sys2Proof.Machine
end

