-- ==== Sys2Proof/Machine/LegalCmds.lean ====
section
/-! DEFINITION. Commands of the legal island: the firewall page, the crypto engine, the mailbox (R230–R250). -/

namespace Sys2Proof.Machine

/-! ### LFL, digests, outlet enables, the legal watchdog (R234–R240) -/

/-- The word of LFL_CMD with GO. -/
def lflWord (op page : Nat) : Nat := Fld.FWALL_LFL_CMD_OP.word op + Fld.FWALL_LFL_CMD_PAGE.word page + Fld.FWALL_LFL_CMD_GO.word 1

/-- R234: LFL_CMD with OP = PROG. -/
def execLflProg (r : Requester) (page : Fin 1024) (s : State) : Host.Outcome State Fault Refusal :=
  s.run fun d => d.cmdWrite r Reg.FWALL_LFL_CMD (lflWord 1 page.val) .word

/-- R234: LFL_CMD with OP = ERASE_SECTOR. -/
def execLflEraseSector (r : Requester) (page : Fin 1024) (s : State) : Host.Outcome State Fault Refusal :=
  s.run fun d => d.cmdWrite r Reg.FWALL_LFL_CMD (lflWord 2 page.val) .word

/-- R234: LFL_CMD with OP = ERASE_ALL. -/
def execLflEraseAll (r : Requester) (s : State) : Host.Outcome State Fault Refusal :=
  s.run fun d => d.cmdWrite r Reg.FWALL_LFL_CMD (lflWord 3 0) .word

/-- R234: the LFL command in progress completes; `ok`: as the array reports it. -/
def execLflDone (ok : Bool) (s : State) : Host.Outcome State Fault Refusal := s.run fun d => d.lflDone ok

/-- R235: DGST_CMD.GO is written. -/
def execDigestBurn (r : Requester) (s : State) : Host.Outcome State Fault Refusal :=
  s.run fun d => d.cmdWrite r Reg.FWALL_DGST_CMD 1 .word

/-- R235: the digest burn completes. -/
def execDigestBurnDone (s : State) : Host.Outcome State Fault Refusal := s.run Dev.digestDone

/-- R239: ENA_CTRL is written. -/
def execEnaCtrlWrite (r : Requester) (en : BitVec 4) (s : State) : Host.Outcome State Fault Refusal :=
  s.run fun d => d.cmdWrite r Reg.FWALL_ENA_CTRL en.toNat .word

/-- R240: LWDG_KICK.KICK is written; `expiryTick`: in the tick in which the count expires. -/
def execLwdgKick (r : Requester) (expiryTick : Bool) (s : State) : Host.Outcome State Fault Refusal :=
  s.run fun d => d.regGate r Reg.FWALL_LWDG_KICK fun d => d.lwdgKick expiryTick

/-- R240: LWDG_CFG is written. -/
def execLwdgCfgWrite (r : Requester) (tmo : BitVec 10) (s : State) : Host.Outcome State Fault Refusal :=
  s.run fun d => d.cmdWrite r Reg.FWALL_LWDG_CFG tmo.toNat .word

/-- R240: the legal watchdog expires, where it runs. -/
def Dev.lwdgEnd (d : Dev) : Dev := if d.domOn .lgl && d.lwdgTmo != 0 then d.lwdgExpire.lglReset 5 else d

def execLwdg (s : State) : Host.Outcome State Fault Refusal := s.run Dev.lwdgEnd

/-! ### The crypto engine (R241, R242) -/

/-- R242: CTRL is written with OP, KEY and GO. -/
def Dev.cryptoStart (d : Dev) (r : Requester) (op key : Nat) : Dev :=
  d.cmdWrite r Reg.CRYPTO_CTRL (Fld.CRYPTO_CTRL_OP.word op + Fld.CRYPTO_CTRL_KEY.word key + Fld.CRYPTO_CTRL_GO.word 1) .word

/-- R241: OP 1. -/
def execAesEnc (r : Requester) (key : Fin 8) (s : State) : Host.Outcome State Fault Refusal :=
  s.run fun d => d.cryptoStart r 1 key.val

/-- R241: OP 2. -/
def execAesDec (r : Requester) (key : Fin 8) (s : State) : Host.Outcome State Fault Refusal :=
  s.run fun d => d.cryptoStart r 2 key.val

/-- R241: OP 3. -/
def execCmac (r : Requester) (key : Fin 8) (s : State) : Host.Outcome State Fault Refusal :=
  s.run fun d => d.cryptoStart r 3 key.val

/-- R241: OP 4. -/
def execShaInit (r : Requester) (s : State) : Host.Outcome State Fault Refusal := s.run fun d => d.cryptoStart r 4 0

/-- R241: OP 5. -/
def execShaUpdate (r : Requester) (s : State) : Host.Outcome State Fault Refusal := s.run fun d => d.cryptoStart r 5 0

/-- R241: OP 6. -/
def execShaFinal (r : Requester) (s : State) : Host.Outcome State Fault Refusal := s.run fun d => d.cryptoStart r 6 0

/-- R241: OP 7. -/
def execSign (r : Requester) (key : Fin 8) (s : State) : Host.Outcome State Fault Refusal :=
  s.run fun d => d.cryptoStart r 7 key.val

/-- R241: OP 8. -/
def execVerify (r : Requester) (key : Fin 8) (s : State) : Host.Outcome State Fault Refusal :=
  s.run fun d => d.cryptoStart r 8 key.val

/-- R241: OP 9. -/
def execCrc32 (r : Requester) (s : State) : Host.Outcome State Fault Refusal := s.run fun d => d.cryptoStart r 9 0

/-- R241: OP 10. -/
def execUnwrap (r : Requester) (key : Fin 8) (s : State) : Host.Outcome State Fault Refusal :=
  s.run fun d => d.cryptoStart r 10 key.val

/-- R241: OP 11. -/
def execWrap (r : Requester) (key : Fin 8) (s : State) : Host.Outcome State Fault Refusal :=
  s.run fun d => d.cryptoStart r 11 key.val

/-- R241: OP 12. -/
def execKwkLoad (r : Requester) (s : State) : Host.Outcome State Fault Refusal := s.run fun d => d.cryptoStart r 12 0

/-- R241: OP 13. -/
def execKeyClr (r : Requester) (key : Fin 8) (s : State) : Host.Outcome State Fault Refusal :=
  s.run fun d => d.cryptoStart r 13 key.val

/-- R241: OP 0, 14 or 15. -/
def execCryptoInvalidOp (r : Requester) (op : Fin 3) (key : Fin 8) (s : State) : Host.Outcome State Fault Refusal :=
  s.run fun d => d.cryptoStart r (if op.val = 0 then 0 else 13 + op.val) key.val

/-- R242, R314: the operation in progress reaches its time; a tamper during it marks the entry that is held. -/
def Dev.cryptoEnd (d : Dev) : Dev :=
  let during := d.crypto.run.isSome && d.on Fld.CRYPTO_STAT_TAMPER_DURING
  let d := d.cryptoDone
  if during then d.entryTamper false true else d

def execCryptoDone (s : State) : Host.Outcome State Fault Refusal := s.run Dev.cryptoEnd

/-! ### The mailbox (R244–R249) -/

/-- R245: REQ_HDR is written with GO. -/
def execReqGo (r : Requester) (c : Fin 2) (hdr : Word) (s : State) : Host.Outcome State Fault Refusal :=
  s.run fun d => d.cmdWrite r (Reg.LGLMBX_REQ_HDR c.val) (setBits hdr.toNat 31 1 1) .word

/-- R245: RSP_HDR is written with RELEASE. -/
def execRspRelease (r : Requester) (c : Fin 2) (hdr : Word) (limit : Bool) (s : State) :
    Host.Outcome State Fault Refusal :=
  s.run fun d => d.regGate r (Reg.LGLMBX_RSP_HDR c.val) fun d =>
    if r.legal then d.rspHdr c.val (setBits hdr.toNat 31 1 1) limit else d

/-- R247: the release tick of a KEY request. -/
def execKeyReleaseTick (c : Fin 2) (s : State) : Host.Outcome State Fault Refusal := s.run fun d => d.keyTick c.val

/-- R248: RSP_TMO has passed. -/
def execTimeout (c : Fin 2) (s : State) : Host.Outcome State Fault Refusal := s.run fun d => d.mbxTimeout c.val

/-- R249: IFVER is written. -/
def execIfverWrite (r : Requester) (c : Fin 2) (ver : BitVec 16) (s : State) : Host.Outcome State Fault Refusal :=
  s.run fun d => d.cmdWrite r (Reg.LGLMBX_IFVER c.val) ver.toNat .word

end Sys2Proof.Machine
end

