-- ==== Sys2Proof/Machine/MemCmds.lean ====
section
/-! DEFINITION. Commands on the SRAM banks, their ownership, ECC and the DPM (R178–R201). -/

namespace Sys2Proof.Machine

/-- R180: BANK_OWN of a bank is written. -/
def execBankHandover (r : Requester) (bank : Fin 20) (owner : Fin 8) (s : State) : Host.Outcome State Fault Refusal :=
  s.run fun d => d.cmdWrite r (Reg.MEMCTL_BANK_OWN bank.val) owner.val .word

/-- R181: the old owner's granted accesses have drained. -/
def execHandoverDone (bank : Fin 16) (s : State) : Host.Outcome State Fault Refusal := s.run fun d => d.handoverDone bank.val

/-- Cells of the codeword at row `w` of bank `b` have turned over; no access has been made. -/
def Dev.flip (d : Dev) (b w : Nat) (m : Codeword) : Dev :=
  { d.putCode b w (d.codeword b w ^^^ m) with ac.resv := d.ac.resv }

/-- R182, R188: a read of word `w` of bank `b` in which the array returns row `row` as `flips` has left it. -/
def Dev.readAt (d : Dev) (r : Requester) (b w row : Nat) (flips : Codeword) : Dev :=
  if bankWords b ≤ w then d.answer .error
  else match d.reachGate r (.sram b w) (bankAddr b w) false with
    | (.refuse, d) => d.answer .error
    | (.wait, d) => d
    | (.go, d) =>
      match d.bankGate r b w false none with
      | (.go, d) =>
        if d.owns r.group b then
          let k := row % bankWords b
          match (d.flip b k flips).readRow r.group b w k false with
          | (some x, d) => d.answer (.data (BitVec.ofNat 32 x))
          | (none, d) => d.answer .error
        else (d.nonOwner r.group b w).answer .error
      | (_, d) => d

/-- R188: a read of an SRAM word. -/
def execMemoryRead (r : Requester) (bank : Fin 23) (word : Nat) (row : Nat) (flips : Codeword) (s : State) :
    Host.Outcome State Fault Refusal :=
  s.run fun d => d.readAt r bank.val word row flips

/-- R186: a full-word write of an SRAM word; a bank has no word past its end (R178). -/
def execMemoryWrite (r : Requester) (bank : Fin 23) (word : Nat) (data : Word) (s : State) :
    Host.Outcome State Fault Refusal :=
  s.run fun d =>
    if bankWords bank.val ≤ word then d.answer .error
    else d.cmdWrite r (bankAddr bank.val word) data.toNat .word

/-- R191: a byte or halfword write into an SRAM word. -/
def execMemoryPartialWrite (r : Requester) (bank : Fin 23) (word : Nat) (lane : Fin 4) (half : Bool) (data : Word)
    (s : State) : Host.Outcome State Fault Refusal :=
  s.run fun d =>
    if bankWords bank.val ≤ word then d.answer .error
    else d.cmdWrite r (bankAddr bank.val word + lane.val) data.toNat (if half then .half else .byte)

/-- R195: CLEAR.GO is written. -/
def execMemoryClearStart (r : Requester) (s : State) : Host.Outcome State Fault Refusal :=
  s.run fun d => d.cmdWrite r Reg.MEMCTL_CLEAR 1 .word

/-- R195: the clear ends; the words have been 0 for every access since it began, because accesses wait for its end. -/
def execClearDone (s : State) : Host.Outcome State Fault Refusal :=
  s.run fun d => if d.clearing then d.clearDone else d

/-- R192: the ECC counters are cleared. -/
def execMemctlCntClr (r : Requester) (s : State) : Host.Outcome State Fault Refusal :=
  s.run fun d => d.cmdWrite r Reg.MEMCTL_CNT_CLR 1 .word

/-- R200: a port A access that waits is served, or ends at RETRY_MAX. -/
def execDpmPortARetry (served : Bool) (atLimit : Bool) (s : State) : Host.Outcome State Fault Refusal :=
  s.run fun d => d.dpmRetry served atLimit

/-- R199: COLL_CNT is cleared. -/
def execCollClr (r : Requester) (s : State) : Host.Outcome State Fault Refusal :=
  s.run fun d => d.cmdWrite r Reg.DPM_COLL_CLR 1 .word

end Sys2Proof.Machine
end

