-- ==== Sys2Proof/Machine/MetCmds.lean ====
section
/-! DEFINITION. Commands of the metrology front end, of quantities, energies and pulses (R137–R177). -/

namespace Sys2Proof.Machine

/-- R146: the sample words of the oldest tick whose words are still to come. -/
def execSampleWordsEmit (v : Vector AdcIn 16) (ovl : BitVec 16) (s : State) : Host.Outcome State Fault Refusal :=
  s.run fun d => d.sampleWords v.toList ovl.toNat

/-- R143: a channel returns to the high range. -/
def execRangeUp (ch : Fin 16) (s : State) : Host.Outcome State Fault Refusal := s.run fun d => d.rangeUp ch.val

/-- R150: CH_CFG of a channel is written. -/
def execChCfgWrite (r : Requester) (ch : Fin 16) (data : Word) (s : State) : Host.Outcome State Fault Refusal :=
  s.run fun d => d.cmdWrite r (Reg.MET_FE_CH_CFG ch.val) data.toNat .word

/-- R157: a pulse input changes level. -/
def execCntInChange (n : Fin 4) (level : Bool) (s : State) : Host.Outcome State Fault Refusal :=
  s.run fun d => d.cntChange n.val level

/-- R157, R158: the level of a pulse input is accepted; a write of CNT_n in the same clock goes before the count. -/
def execCntCount (n : Fin 4) (wrote : Option WordWrite) (s : State) : Host.Outcome State Fault Refusal :=
  s.run fun d =>
    (match wrote with
    | some w => d.cmdWrite w.req (Reg.MET_FE_CNT n.val) w.data.toNat .word
    | none => d).cntAccept n.val

/-- R160: the closed cycle is published. -/
def execCyclePublish (s : State) : Host.Outcome State Fault Refusal := s.run Dev.cyclePublish

/-- R161: QSTAT is read. -/
def execQstatRead (r : Requester) (s : State) : Host.Outcome State Fault Refusal :=
  s.run fun d => d.cmdRead r Reg.MET_QTY_QSTAT

/-- R175: the active time of a pulse ends. -/
def execPulseActiveEnd (m : Fin 2) (s : State) : Host.Outcome State Fault Refusal := s.run fun d => d.pulseActiveEnd m.val

/-- R175: the gap after a pulse ends. -/
def execPulseGapEnd (m : Fin 2) (s : State) : Host.Outcome State Fault Refusal := s.run fun d => d.pulseGapEnd m.val

end Sys2Proof.Machine
end

