-- ==== Sys2Proof/Machine/MuleCmds.lean ====
section
/-! DEFINITION. Commands of MULE (R202–R229, R411). -/

namespace Sys2Proof.Machine

/-- R206: the page-in in progress ends. -/
def execPageInDone (framOk : Bool) (dur : Nat) (stall : Nat) (atLimit : Bool) (s : State) :
    Host.Outcome State Fault Refusal :=
  s.run fun d => d.pageDone framOk dur stall atLimit

/-- R209: the page-in in progress has taken 400 µs. -/
def execPageInTimeout (stall : Nat) (s : State) : Host.Outcome State Fault Refusal := s.run fun d => d.pageTimeout stall

/-- R210: the LC has stalled for 200 µs. -/
def execStallTo (s : State) : Host.Outcome State Fault Refusal := s.run Dev.stallTimeout

/-- R214: PIN with OP = PIN. -/
def execMulePin (r : Requester) (acct : Fin 1024) (s : State) : Host.Outcome State Fault Refusal :=
  s.run fun d => d.cmdWrite r Reg.MULE_PIN
    (Fld.MULE_PIN_ACCT.word acct.val + Fld.MULE_PIN_OP.word 1 + Fld.MULE_PIN_GO.word 1) .word

/-- R214: PIN with OP = UNPIN. -/
def execMuleUnpin (r : Requester) (acct : Fin 1024) (s : State) : Host.Outcome State Fault Refusal :=
  s.run fun d => d.cmdWrite r Reg.MULE_PIN
    (Fld.MULE_PIN_ACCT.word acct.val + Fld.MULE_PIN_OP.word 2 + Fld.MULE_PIN_GO.word 1) .word

/-- R219: CMD with OP = SAVE_FULL. -/
def execSaveFull (r : Requester) (s : State) : Host.Outcome State Fault Refusal :=
  s.run fun d => d.cmdWrite r Reg.MULE_CMD (Fld.MULE_CMD_OP.word 1 + Fld.MULE_CMD_GO.word 1) .word

/-- R227: CMD with OP = FORMAT. -/
def execFormat (r : Requester) (s : State) : Host.Outcome State Fault Refusal :=
  s.run fun d => d.cmdWrite r Reg.MULE_CMD (Fld.MULE_CMD_OP.word 2 + Fld.MULE_CMD_GO.word 1) .word

/-- R213: CMD with OP = ADOPT. -/
def execAdopt (r : Requester) (acct : Fin 1024) (s : State) : Host.Outcome State Fault Refusal :=
  s.run fun d => d.cmdWrite r Reg.MULE_CMD
    (Fld.MULE_CMD_OP.word 3 + Fld.MULE_CMD_ACCT.word acct.val + Fld.MULE_CMD_GO.word 1) .word

/-- R219: SAVE_PERIOD cycles have passed. -/
def execBackstop (s : State) : Host.Outcome State Fault Refusal := s.run Dev.backstop

/-- R220: the snapshot is complete. -/
def execSnapshotDone (stall : Nat) (s : State) : Host.Outcome State Fault Refusal := s.run fun d => d.snapshotDone stall

/-- R220: the save phase ends. -/
def execEpochDone (framOk : Bool) (s : State) : Host.Outcome State Fault Refusal := s.run fun d => d.epochEnd framOk

/-- R411: CTRL.EN is set. -/
def execMuleEnable (r : Requester) (s : State) : Host.Outcome State Fault Refusal :=
  s.run fun d => d.cmdWrite r Reg.MULE_CTRL (d.withF Fld.MULE_CTRL_EN 1) .word

/-- R225: the restore ends. -/
def execRestoreDone (framOk : Bool) (s : State) : Host.Outcome State Fault Refusal := s.run fun d => d.restoreEnd framOk

/-- R227: the format ends; it fails where one of its FRAM transfers has failed. -/
def execFormatDone (framOk : Bool) (s : State) : Host.Outcome State Fault Refusal := s.run fun d => d.formatEnd framOk

/-- R211: the counters are cleared. -/
def execMuleCntClr (r : Requester) (s : State) : Host.Outcome State Fault Refusal :=
  s.run fun d => d.cmdWrite r Reg.MULE_CNT_CLR 1 .word

end Sys2Proof.Machine
end

