-- ==== Sys2Proof/Machine/PanelCmds.lean ====
section
/-! DEFINITION. Commands of keypad, display and lamps (R316–R331). -/

namespace Sys2Proof.Machine

/-- R324: a press is accepted; `multi`: the scan finds another key pressed with it. -/
def execKeyAccepted (code : Fin 16) (multi : Bool) (s : State) : Host.Outcome State Fault Refusal :=
  s.run fun d => d.keyPress code.val multi

/-- R324: a release is accepted. -/
def execKeyReleased (code : Fin 16) (s : State) : Host.Outcome State Fault Refusal := s.run fun d => d.keyUp code.val

/-- R326: a key has been held for 30 s. -/
def execStuck (code : Fin 16) (s : State) : Host.Outcome State Fault Refusal := s.run fun d => d.keyStuck code.val

/-- R327: KEY_FIFO is read. -/
def execKeyFifoRead (r : Requester) (s : State) : Host.Outcome State Fault Refusal :=
  s.run fun d => d.cmdRead r Reg.KEYPAD_KEY_FIFO

/-- R319: the dwell of an item expires. -/
def execScrollStep (s : State) : Host.Outcome State Fault Refusal := s.run Dev.scrollStep

/-- R321: the refresh of each second. -/
def execItemRefresh (s : State) : Host.Outcome State Fault Refusal := s.run Dev.itemRefresh

/-- R323: RES_DWELL expires. -/
def execResultShownEnd (s : State) : Host.Outcome State Fault Refusal := s.run Dev.resultEnd

/-- R329: the on-pulse of a lamp under diagnosis is judged. -/
def execLampDiagResult (n : Fin 6) (m : LampMeas) (since : Nat) (s : State) : Host.Outcome State Fault Refusal :=
  s.run fun d => d.lampDiagnose n.val m since

/-- R330: LMP_STAT.CLR of a lamp is written. -/
def execLampClr (r : Requester) (n : Fin 6) (s : State) : Host.Outcome State Fault Refusal :=
  s.run fun d => d.cmdWrite r (Reg.LAMP_LMP_STAT n.val) ((Fld.LAMP_LMP_STAT_CLR n.val).word 1) .word

end Sys2Proof.Machine
end

