-- ==== Sys2Proof/Machine/PowerCmds.lean ====
section
/-! DEFINITION. Commands of the power sequencer, of ROOSTER and of WATCH (R345–R381). -/

namespace Sys2Proof.Machine

/-! ### Votes and state requests (R348, R352) -/

/-- R348: VOTE_SET of a domain is written; AON has no such register. -/
def execVoteSet (r : Requester) (dom : Dom) (slots : BitVec 16) (s : State) : Host.Outcome State Fault Refusal :=
  s.run fun d => if dom == .aon then d else d.cmdWrite r (Reg.PWR_VOTE_SET dom.num) slots.toNat .word

/-- R348: VOTE_CLR of a domain is written. -/
def execVoteClr (r : Requester) (dom : Dom) (slots : BitVec 16) (s : State) : Host.Outcome State Fault Refusal :=
  s.run fun d => if dom == .aon then d else d.cmdWrite r (Reg.PWR_VOTE_CLR dom.num) slots.toNat .word

/-- R352: CMD is written with GO and a state. -/
def Dev.pwrCmd (d : Dev) (r : Requester) (t : PState) : Dev :=
  d.cmdWrite r Reg.PWR_CMD (Fld.PWR_CMD_STATE.word t.code + Fld.PWR_CMD_GO.word 1) .word

/-- R352: RUN_NORMAL is requested. -/
def execCmdRunNormal (r : Requester) (s : State) : Host.Outcome State Fault Refusal := s.run fun d => d.pwrCmd r .runNormal

/-- R352: RUN_HIGH is requested. -/
def execCmdRunHigh (r : Requester) (s : State) : Host.Outcome State Fault Refusal := s.run fun d => d.pwrCmd r .runHigh

/-- R352: IDLE is requested. -/
def execCmdIdle (r : Requester) (s : State) : Host.Outcome State Fault Refusal := s.run fun d => d.pwrCmd r .idle

/-- R352: SLEEP is requested. -/
def execCmdSleep (r : Requester) (s : State) : Host.Outcome State Fault Refusal := s.run fun d => d.pwrCmd r .sleep

/-- R352: DEEP is requested. -/
def execCmdDeep (r : Requester) (s : State) : Host.Outcome State Fault Refusal := s.run fun d => d.pwrCmd r .deep

/-- R352: OFF is requested. -/
def execCmdOff (r : Requester) (s : State) : Host.Outcome State Fault Refusal := s.run fun d => d.pwrCmd r .off

/-- R375: WATCH is requested. -/
def execCmdWatch (r : Requester) (s : State) : Host.Outcome State Fault Refusal := s.run fun d => d.pwrCmd r .watch

/-! ### Drops and power-ups (R347, R356, R361–R363) -/

/-- R356: the next drop begins with its quiesce. -/
def execDomainDropStart (s : State) : Host.Outcome State Fault Refusal := s.run Dev.dropStart

/-- What arrives in the clock of a decision (R356). -/
def Dev.arrive (d : Dev) (a : Arrival) : Dev :=
  match a with
  | .vote v => if v.dom == .aon then d else d.cmdWrite v.req (Reg.PWR_VOTE_SET v.dom.num) v.slots.toNat .word
  | .wake srcs => d.wakeRequest ((List.range 8).filterMap fun i => if bit srcs.toNat i then some (i + 1) else none)
  | .request r t => d.pwrCmd r t
  | .mule => [Dom.per, bankDom d.stageBank].foldl (fun d x => d.followSlot x 3 true) d
  | .port => d.followSlot .per 4 true

/-- R356: the decision at the end of step 2, and what arrives in its clock. -/
def execDropDecision (arrival : Option Arrival) (s : State) : Host.Outcome State Fault Refusal :=
  s.run fun d => d.dropDecision (match arrival with
    | some a => d.arrive a
    | none => d)

/-- R356: the switch-off is complete. -/
def execDomainOff (s : State) : Host.Outcome State Fault Refusal := s.run Dev.domainOff

/-- R361: the delay of a power-up item has elapsed. -/
def execPowerUpItemDone (item : PowerItem) (s : State) : Host.Outcome State Fault Refusal := s.run fun d => d.powerItem item

/-- R363: a change of body bias is complete. -/
def execBiasChangeDone (s : State) : Host.Outcome State Fault Refusal := s.run Dev.biasDone

/-- R347: WAKE_HOLD has passed. -/
def execWakeHoldEnd (s : State) : Host.Outcome State Fault Refusal := s.run Dev.holdEnd

/-- R362: the frequency monitor finds a PLL that is locked off its frequency. -/
def execUnlock (medium : Bool) (s : State) : Host.Outcome State Fault Refusal :=
  s.run fun d => d.raiseIf (if medium then d.pwr.pllM else d.pwr.pllS) Ev.CLK_UNLOCK

/-! ### Supplies (R364, R365) -/

/-- R364: the power-fail warning begins. -/
def execPfw (s : State) : Host.Outcome State Fault Refusal := s.run Dev.pfwSet

/-- R364: the warning ends. -/
def execPfwClr (s : State) : Host.Outcome State Fault Refusal := s.run Dev.pfwClear

/-- R364: 1 is written to PFW_LATCH. -/
def execPfwLatchClear (r : Requester) (s : State) : Host.Outcome State Fault Refusal :=
  s.run fun d => d.cmdWrite r Reg.PWR_SUPPLY (Fld.PWR_SUPPLY_PFW_LATCH.word 1) .word

/-- R365: a brown-out. -/
def execBrownOut (s : State) : Host.Outcome State Fault Refusal := s.run Dev.brownOut

/-- R365: AON moves to VBAT. -/
def execVbatSwitch (vbat : Nat) (s : State) : Host.Outcome State Fault Refusal := s.run fun d => d.vbatSwitch vbat

/-- R365: AON returns to VDD. -/
def execVddReturn (s : State) : Host.Outcome State Fault Refusal := s.run Dev.vddReturn

/-! ### ROOSTER and WATCH (R366–R381) -/

/-- R369: a level of the WAKE ball is accepted. -/
def execWakePinAccept (level : Bool) (s : State) : Host.Outcome State Fault Refusal := s.run fun d => d.wakePin level

/-- R371: an address on the I²C bus while PER is off. -/
def execI2cAddressMatch (addr : BitVec 7) (s : State) : Host.Outcome State Fault Refusal := s.run fun d => d.i2cMatch addr.toNat

/-- R374: a wake stretch has lasted 2.0 ms. -/
def execI2cTo (running : Bool) (periods : Nat) (s : State) : Host.Outcome State Fault Refusal :=
  s.run fun d => d.i2cTimeout running periods

/-- R375: a period of WATCH has passed. -/
def execWatchCheckStart (s : State) : Host.Outcome State Fault Refusal := s.run Dev.watchCheck

/-- R379: the check is judged. -/
def execWatchJudge (s : State) : Host.Outcome State Fault Refusal := s.run Dev.watchJudge

/-- R376: WATCH CTRL.CAPTURE is written. -/
def execWatchCapture (r : Requester) (s : State) : Host.Outcome State Fault Refusal :=
  s.run fun d => d.cmdWrite r Reg.WATCH_CTRL (d.withF Fld.WATCH_CTRL_CAPTURE 1) .word

end Sys2Proof.Machine
end

