-- ==== Sys2Proof/Machine/RtcCmds.lean ====
section
/-! DEFINITION. Commands of the calendar clock (R251–R270). -/

namespace Sys2Proof.Machine

/-- R252: TIME_LO is read, `subsec` periods into the second. -/
def Dev.timeRead (d : Dev) (r : Requester) (subsec : Nat) : Dev :=
  match d.reachGate r (.reg .rtc 0x40) Reg.RTC_TIME_LO false with
  | (.refuse, d) => d.answer .error
  | (.wait, d) => d
  | (.go, d) =>
    match d.timeLoRead r subsec with
    | (x, d) => d.answer (.data (BitVec.ofNat 32 x))

def execTimeLoRead (r : Requester) (subsec : Nat) (s : State) : Host.Outcome State Fault Refusal :=
  s.run fun d => d.timeRead r subsec

/-- R253: a second boundary. -/
def execSec (aonT : Int) (vbat : Nat) (s : State) : Host.Outcome State Fault Refusal := s.run fun d => d.second aonT vbat

/-- R258: CMD is written with GO and an OP. -/
def Dev.rtcGo (d : Dev) (r : Requester) (op : Nat) : Dev :=
  d.cmdWrite r Reg.RTC_CMD (Fld.RTC_CMD_OP.word op + Fld.RTC_CMD_GO.word 1) .word

/-- R258: OP = SET. -/
def execRtcSet (r : Requester) (s : State) : Host.Outcome State Fault Refusal := s.run fun d => d.rtcGo r 1

/-- R259: OP = ADJ. -/
def execRtcAdj (r : Requester) (s : State) : Host.Outcome State Fault Refusal := s.run fun d => d.rtcGo r 2

/-- R261: OP = CANCEL. -/
def execRtcCancel (r : Requester) (s : State) : Host.Outcome State Fault Refusal := s.run fun d => d.rtcGo r 3

/-- R262: OP = DST_ADD. -/
def execDstAdd (r : Requester) (s : State) : Host.Outcome State Fault Refusal := s.run fun d => d.rtcGo r 4

/-- R262: OP = DST_SUB. -/
def execDstSub (r : Requester) (s : State) : Host.Outcome State Fault Refusal := s.run fun d => d.rtcGo r 5

/-- R263: OP = SHIFT_ADV. -/
def execShiftAdv (r : Requester) (s : State) : Host.Outcome State Fault Refusal := s.run fun d => d.rtcGo r 6

/-- R263: OP = SHIFT_RET. -/
def execShiftRet (r : Requester) (s : State) : Host.Outcome State Fault Refusal := s.run fun d => d.rtcGo r 7

/-- R265: 1 is written to STATUS.VBATLOW. -/
def execVbatlowClear (r : Requester) (s : State) : Host.Outcome State Fault Refusal :=
  s.run fun d => d.cmdWrite r Reg.RTC_STATUS (Fld.RTC_STATUS_VBATLOW.word 1) .word

/-- R266: the LFXO has stopped for 4 ms. -/
def execLfxoFail (rcPeriods : Nat) (s : State) : Host.Outcome State Fault Refusal := s.run fun d => d.lfxoFail rcPeriods

/-- R266: the LFXO has run for 1 s again. -/
def execLfxoReturn (s : State) : Host.Outcome State Fault Refusal := s.run Dev.lfxoReturn

end Sys2Proof.Machine
end

