-- ==== Sys2Proof/Machine/StartCmds.lean ====
section
/-! DEFINITION. Commands of resets, of the boot ROM services, of the loader, of AFL and of the fuses (R407–R427). -/

namespace Sys2Proof.Machine

/-! ### Resets (R407, R408) -/

/-- R407: VDD returns after VDD and VBAT were both absent. -/
def execPor (s : State) : Host.Outcome State Fault Refusal := s.run Dev.powerOn

/-- R407: RST_N has been low for 1 µs. -/
def execRstN (s : State) : Host.Outcome State Fault Refusal := s.run fun d => d.chipReset 3

/-- R407: SWRST is written with a key and GO. -/
def execSwrst (r : Requester) (key : BitVec 16) (s : State) : Host.Outcome State Fault Refusal :=
  s.run fun d => d.cmdWrite r Reg.SYSCTL_SWRST (Fld.SYSCTL_SWRST_KEY.word key.toNat + Fld.SYSCTL_SWRST_GO.word 1) .word

/-- R408: VDD is qualified. -/
def execColdStart (s : State) : Host.Outcome State Fault Refusal := s.run Dev.coldStart

/-! ### Services of the boot ROM (R414, R415, R417, R421) -/

/-- R415: the legal image runs and may call a service. -/
def Dev.serviceOpen (d : Dev) : Bool :=
  d.f Fld.SYSCTL_BOOT_STAT_STAGE == 1 && !d.boot.rom && d.boot.loader.isNone && d.coreRuns .lc

/-- R417: APP_BOOT, called by the legal image or run by the boot ROM itself. -/
def execAppBoot (s : State) : Host.Outcome State Fault Refusal :=
  s.run fun d => if d.serviceOpen || d.boot.appDue then d.appBoot else d

/-- R414: SEAL_STORE; `ok`: the block reads back as written. -/
def execSealStore (ok : Bool) (s : State) : Host.Outcome State Fault Refusal :=
  s.run fun d =>
    if d.serviceOpen then
      match d.sealStore ok with
      | (a0, d) => d.serviceReturn a0
    else d

/-- R421: a loader command with a new SEQ, where the loader runs and its mailbox can be reached. -/
def Dev.loaderMeets (d : Dev) (seq : Nat) : Bool := d.domOn .per && d.boot.loader.any fun l => l.seq != some seq

/-- R421: LOADER is called, or the loader at work meets a command with an unlisted OP (BADOP). -/
def execLoader (badOp : Option Byte) (s : State) : Host.Outcome State Fault Refusal :=
  s.run fun d => match badOp with
    | some seq => if d.loaderMeets seq.toNat then d.loaderStatus seq.toNat 3 false else d
    | none => if d.serviceOpen then d.loaderStart false false else d

/-- R421: OP PROG; `ok`: the read-back agrees. -/
def execLoaderProg (sector : BitVec 9) (lfl : Bool) (seq : Byte) (ok : Bool) (atLimit : Bool) (clash : Option PortClash)
    (s : State) : Host.Outcome State Fault Refusal :=
  s.run fun d =>
    if d.loaderMeets seq.toNat then (d.portAReads clash 0x400 1024).loaderProg sector.toNat lfl seq.toNat ok atLimit else d

/-- R421: OP CHECK. -/
def execLoaderCheck (seq : Byte) (atLimit : Bool) (s : State) : Host.Outcome State Fault Refusal :=
  s.run fun d => if d.loaderMeets seq.toNat then d.loaderCheck seq.toNat atLimit else d

/-- R421: OP BURN. -/
def execLoaderBurn (seq : Byte) (ok : Bool) (atLimit : Bool) (s : State) : Host.Outcome State Fault Refusal :=
  s.run fun d => if d.loaderMeets seq.toNat then d.loaderBurn seq.toNat ok atLimit else d

/-- R421: OP DONE. -/
def execLoaderDone (seq : Byte) (atLimit : Bool) (s : State) : Host.Outcome State Fault Refusal :=
  s.run fun d => if d.loaderMeets seq.toNat then (d.loaderStatus seq.toNat 0 atLimit).loaderFinish else d

/-- R422: no loader command within its limit. -/
def execLoaderTimeout (s : State) : Host.Outcome State Fault Refusal :=
  s.run fun d => if d.boot.loader.any (!·.endless) then d.loaderFinish else d

/-! ### The AC and AFL (R419, R420) -/

/-- R419: AC_CTRL.HOLD is written with 1. -/
def execAcHold (r : Requester) (s : State) : Host.Outcome State Fault Refusal :=
  s.run fun d => d.cmdWrite r Reg.SYSCTL_AC_CTRL (Fld.SYSCTL_AC_CTRL_HOLD.word 1) .word

/-- R419: AC_CTRL.RESTART is written with 1, HOLD as it stands. -/
def execAcRestart (r : Requester) (s : State) : Host.Outcome State Fault Refusal :=
  s.run fun d => d.cmdWrite r Reg.SYSCTL_AC_CTRL
    (Fld.SYSCTL_AC_CTRL_HOLD.word (d.f Fld.SYSCTL_AC_CTRL_HOLD) + Fld.SYSCTL_AC_CTRL_RESTART.word 1) .word

/-- R420: AFL_CMD with OP = PROG; where it starts, 64 words of the DPM are read through port A. -/
def execAflProg (r : Requester) (page : BitVec 13) (clash : Option PortClash) (s : State) :
    Host.Outcome State Fault Refusal :=
  s.run fun d =>
    let e := d.cmdWrite r Reg.SYSCTL_AFL_CMD
      (Fld.SYSCTL_AFL_CMD_OP.word 1 + Fld.SYSCTL_AFL_CMD_PAGE.word page.toNat + Fld.SYSCTL_AFL_CMD_GO.word 1) .word
    if d.boot.afl.isNone && e.boot.afl.isSome then e.portAReads clash (e.f Fld.SYSCTL_AFL_SRC_WORD) 64 else e

/-- R420: AFL_CMD with OP = ERASE_SECTOR. -/
def execAflEraseSector (r : Requester) (page : BitVec 13) (s : State) : Host.Outcome State Fault Refusal :=
  s.run fun d => d.cmdWrite r Reg.SYSCTL_AFL_CMD
    (Fld.SYSCTL_AFL_CMD_OP.word 2 + Fld.SYSCTL_AFL_CMD_PAGE.word page.toNat + Fld.SYSCTL_AFL_CMD_GO.word 1) .word

/-- R420: the AFL command in progress completes. -/
def execAflDone (ok : Bool) (s : State) : Host.Outcome State Fault Refusal := s.run fun d => d.aflDone ok

/-! ### Fuses (R424, R425) -/

/-- R424: PROG_CMD is written with a target and GO. -/
def Dev.progGo (d : Dev) (r : Requester) (target : Nat) : Dev :=
  d.cmdWrite r Reg.FUSE_PROG_CMD (Fld.FUSE_PROG_CMD_TARGET.word target + Fld.FUSE_PROG_CMD_GO.word 1) .word

/-- R424: target DEV_ID. -/
def execProgDevId (r : Requester) (s : State) : Host.Outcome State Fault Refusal := s.run fun d => d.progGo r 1

/-- R424: target CUST_KEY_HASH. -/
def execProgCustKeyHash (r : Requester) (s : State) : Host.Outcome State Fault Refusal := s.run fun d => d.progGo r 2

/-- R424: target PROVISION. -/
def execProvision (r : Requester) (s : State) : Host.Outcome State Fault Refusal := s.run fun d => d.progGo r 3

/-- R424: target SEAL. -/
def execSealDevice (r : Requester) (s : State) : Host.Outcome State Fault Refusal := s.run fun d => d.progGo r 4

/-- R425: target RETIRE. -/
def execRetire (r : Requester) (s : State) : Host.Outcome State Fault Refusal := s.run fun d => d.progGo r 5

/-- R424: the burn in progress ends; `ok`: it reads back as burnt. -/
def execOtpProgDone (ok : Bool) (s : State) : Host.Outcome State Fault Refusal := s.run fun d => d.progDone ok

end Sys2Proof.Machine
end

