-- ==== Sys2Proof/Machine/TimeCmds.lean ====
section
/-! DEFINITION. Commands of mains angle time (R32–R58). -/

namespace Sys2Proof.Machine

/-- R34: sample tick `k`. -/
def execSampleTick (k : Fin 256) (s : State) : Host.Outcome State Fault Refusal := s.run fun d => d.sampleTick k.val

/-- R32: a carry out of the angle. -/
def execCycleStart (dieT : Int) (s : State) : Host.Outcome State Fault Refusal := s.run fun d => d.cycleStart dieT

/-- R37: a crossing of a reference. -/
def execZeroCrossing (ref : Fin 3) (t : Elapse) (late : Fin 5) (s : State) : Host.Outcome State Fault Refusal :=
  s.run fun d => d.zeroCrossing ref t late.val

/-- R42: the span of a reference expires, or its RMS falls too low. -/
def execRefLost (ref : Fin 3) (t : Elapse) (why : LossCause) (s : State) : Host.Outcome State Fault Refusal :=
  s.run fun d => d.lossOf ref t why

/-- R43: COAST_LEFT reaches 0. -/
def execCoastExpired (dieT : Int) (s : State) : Host.Outcome State Fault Refusal := s.run fun d => d.coastExpired dieT

/-- R56: a capture unit is re-armed; an edge of its event in the same clock is recorded. -/
def execCapRearm (r : Requester) (n : Fin 4) (edgeNow : Bool) (s : State) : Host.Outcome State Fault Refusal :=
  s.run fun d =>
    let e := d.f (Fld.MAE_CAP_SEL_EVT n.val)
    (d.cmdWrite r (Reg.MAE_CAP_ANG n.val) ((Fld.MAE_CAP_ANG_FULL n.val).word 1) .word).raiseIf (edgeNow && eventExists e) e

/-- R55: MAE.NOW is read after `t`. -/
def execNowRead (r : Requester) (t : Elapse) (s : State) : Host.Outcome State Fault Refusal :=
  s.run fun d => (d.pass t).cmdRead r Reg.MAE_NOW

end Sys2Proof.Machine
end

