-- ==== Sys2Proof/Machine/Dispatch.lean ====
section
/-! DEFINITION. Which meaning each command has. -/

namespace Sys2Proof.Machine

def exec (i : Instr) (s : State) : Host.Outcome State Fault Refusal :=
  match i with
  | .registerWrite r addr data size hw => Sys2Proof.Machine.execRegisterWrite r addr data size hw s
  | .read64Low r addr => Sys2Proof.Machine.execRead64Low r addr s
  | .pgLockSet r page => Sys2Proof.Machine.execPgLockSet r page s
  | .evtEnWrite r page en => Sys2Proof.Machine.execEvtEnWrite r page en s
  | .flogClr r => Sys2Proof.Machine.execFlogClr r s
  | .lcInstruction clash => Sys2Proof.Machine.execLcInstruction clash s
  | .acInstruction clash => Sys2Proof.Machine.execAcInstruction clash s
  | .sampleTick k => Sys2Proof.Machine.execSampleTick k s
  | .cycleStart dieT => Sys2Proof.Machine.execCycleStart dieT s
  | .zeroCrossing ref t late => Sys2Proof.Machine.execZeroCrossing ref t late s
  | .refLost ref t why => Sys2Proof.Machine.execRefLost ref t why s
  | .coastExpired dieT => Sys2Proof.Machine.execCoastExpired dieT s
  | .capRearm r n edgeNow => Sys2Proof.Machine.execCapRearm r n edgeNow s
  | .nowRead r t => Sys2Proof.Machine.execNowRead r t s
  | .taskDescriptorWrite r off data size => Sys2Proof.Machine.execTaskDescriptorWrite r off data size s
  | .herdEvaluation => Sys2Proof.Machine.execHerdEvaluation s
  | .deferMaxExpiry task => Sys2Proof.Machine.execDeferMaxExpiry task s
  | .spliceEvaluation => Sys2Proof.Machine.execSpliceEvaluation s
  | .herdDisable r => Sys2Proof.Machine.execHerdDisable r s
  | .herdEnable r => Sys2Proof.Machine.execHerdEnable r s
  | .partWrite r blocks => Sys2Proof.Machine.execPartWrite r blocks s
  | .herdCntClr r => Sys2Proof.Machine.execHerdCntClr r s
  | .usrRaise r mask => Sys2Proof.Machine.execUsrRaise r mask s
  | .shotFire t ipk past => Sys2Proof.Machine.execShotFire t ipk past s
  | .firstHit t mv => Sys2Proof.Machine.execFirstHit t mv s
  | .shotEnd samples => Sys2Proof.Machine.execShotEnd samples s
  | .pairResult t wrote => Sys2Proof.Machine.execPairResult t wrote s
  | .manFire r path set herdNow => Sys2Proof.Machine.execManFire r path set herdNow s
  | .resStatRead r path => Sys2Proof.Machine.execResStatRead r path s
  | .flowStale path => Sys2Proof.Machine.execFlowStale path s
  | .leakWindowEnd outlet => Sys2Proof.Machine.execLeakWindowEnd outlet s
  | .manConv r ch fast => Sys2Proof.Machine.execManConv r ch fast s
  | .rtdDiscardDone m => Sys2Proof.Machine.execRtdDiscardDone m s
  | .rtdConvDone m => Sys2Proof.Machine.execRtdConvDone m s
  | .rtdCfgWrite r ch data => Sys2Proof.Machine.execRtdCfgWrite r ch data s
  | .thermFaultEval outlet => Sys2Proof.Machine.execThermFaultEval outlet s
  | .sampleWordsEmit v ovl => Sys2Proof.Machine.execSampleWordsEmit v ovl s
  | .rangeUp ch => Sys2Proof.Machine.execRangeUp ch s
  | .chCfgWrite r ch data => Sys2Proof.Machine.execChCfgWrite r ch data s
  | .cntInChange n level => Sys2Proof.Machine.execCntInChange n level s
  | .cntCount n wrote => Sys2Proof.Machine.execCntCount n wrote s
  | .cyclePublish => Sys2Proof.Machine.execCyclePublish s
  | .qstatRead r => Sys2Proof.Machine.execQstatRead r s
  | .pulseActiveEnd m => Sys2Proof.Machine.execPulseActiveEnd m s
  | .pulseGapEnd m => Sys2Proof.Machine.execPulseGapEnd m s
  | .bankHandover r bank owner => Sys2Proof.Machine.execBankHandover r bank owner s
  | .handoverDone bank => Sys2Proof.Machine.execHandoverDone bank s
  | .memoryRead r bank word row flips => Sys2Proof.Machine.execMemoryRead r bank word row flips s
  | .memoryWrite r bank word data => Sys2Proof.Machine.execMemoryWrite r bank word data s
  | .memoryPartialWrite r bank word lane half data => Sys2Proof.Machine.execMemoryPartialWrite r bank word lane half data s
  | .memoryClearStart r => Sys2Proof.Machine.execMemoryClearStart r s
  | .clearDone => Sys2Proof.Machine.execClearDone s
  | .memctlCntClr r => Sys2Proof.Machine.execMemctlCntClr r s
  | .dpmPortARetry served atLimit => Sys2Proof.Machine.execDpmPortARetry served atLimit s
  | .collClr r => Sys2Proof.Machine.execCollClr r s
  | .pageInDone framOk dur stall atLimit => Sys2Proof.Machine.execPageInDone framOk dur stall atLimit s
  | .pageInTimeout stall => Sys2Proof.Machine.execPageInTimeout stall s
  | .stallTo => Sys2Proof.Machine.execStallTo s
  | .mulePin r acct => Sys2Proof.Machine.execMulePin r acct s
  | .muleUnpin r acct => Sys2Proof.Machine.execMuleUnpin r acct s
  | .saveFull r => Sys2Proof.Machine.execSaveFull r s
  | .format r => Sys2Proof.Machine.execFormat r s
  | .adopt r acct => Sys2Proof.Machine.execAdopt r acct s
  | .backstop => Sys2Proof.Machine.execBackstop s
  | .epochDone framOk => Sys2Proof.Machine.execEpochDone framOk s
  | .muleEnable r => Sys2Proof.Machine.execMuleEnable r s
  | .restoreDone framOk => Sys2Proof.Machine.execRestoreDone framOk s
  | .formatDone framOk => Sys2Proof.Machine.execFormatDone framOk s
  | .muleCntClr r => Sys2Proof.Machine.execMuleCntClr r s
  | .lflProg r page => Sys2Proof.Machine.execLflProg r page s
  | .lflEraseSector r page => Sys2Proof.Machine.execLflEraseSector r page s
  | .lflEraseAll r => Sys2Proof.Machine.execLflEraseAll r s
  | .lflDone ok => Sys2Proof.Machine.execLflDone ok s
  | .digestBurn r => Sys2Proof.Machine.execDigestBurn r s
  | .enaCtrlWrite r en => Sys2Proof.Machine.execEnaCtrlWrite r en s
  | .lwdgKick r expiryTick => Sys2Proof.Machine.execLwdgKick r expiryTick s
  | .lwdgCfgWrite r tmo => Sys2Proof.Machine.execLwdgCfgWrite r tmo s
  | .lwdg => Sys2Proof.Machine.execLwdg s
  | .aesEnc r key => Sys2Proof.Machine.execAesEnc r key s
  | .aesDec r key => Sys2Proof.Machine.execAesDec r key s
  | .cmac r key => Sys2Proof.Machine.execCmac r key s
  | .shaInit r => Sys2Proof.Machine.execShaInit r s
  | .shaUpdate r => Sys2Proof.Machine.execShaUpdate r s
  | .shaFinal r => Sys2Proof.Machine.execShaFinal r s
  | .sign r key => Sys2Proof.Machine.execSign r key s
  | .verify r key => Sys2Proof.Machine.execVerify r key s
  | .crc32 r => Sys2Proof.Machine.execCrc32 r s
  | .unwrap r key => Sys2Proof.Machine.execUnwrap r key s
  | .wrap r key => Sys2Proof.Machine.execWrap r key s
  | .kwkLoad r => Sys2Proof.Machine.execKwkLoad r s
  | .keyClr r key => Sys2Proof.Machine.execKeyClr r key s
  | .cryptoInvalidOp r op key => Sys2Proof.Machine.execCryptoInvalidOp r op key s
  | .cryptoDone => Sys2Proof.Machine.execCryptoDone s
  | .reqGo r c hdr => Sys2Proof.Machine.execReqGo r c hdr s
  | .rspRelease r c hdr limit => Sys2Proof.Machine.execRspRelease r c hdr limit s
  | .keyReleaseTick c => Sys2Proof.Machine.execKeyReleaseTick c s
  | .timeout c => Sys2Proof.Machine.execTimeout c s
  | .ifverWrite r c ver => Sys2Proof.Machine.execIfverWrite r c ver s
  | .timeLoRead r subsec => Sys2Proof.Machine.execTimeLoRead r subsec s
  | .sec aonT vbat => Sys2Proof.Machine.execSec aonT vbat s
  | .rtcSet r => Sys2Proof.Machine.execRtcSet r s
  | .rtcAdj r => Sys2Proof.Machine.execRtcAdj r s
  | .rtcCancel r => Sys2Proof.Machine.execRtcCancel r s
  | .dstAdd r => Sys2Proof.Machine.execDstAdd r s
  | .dstSub r => Sys2Proof.Machine.execDstSub r s
  | .shiftAdv r => Sys2Proof.Machine.execShiftAdv r s
  | .shiftRet r => Sys2Proof.Machine.execShiftRet r s
  | .vbatlowClear r => Sys2Proof.Machine.execVbatlowClear r s
  | .lfxoFail rcPeriods => Sys2Proof.Machine.execLfxoFail rcPeriods s
  | .lfxoReturn => Sys2Proof.Machine.execLfxoReturn s
  | .tblCmdCommit r => Sys2Proof.Machine.execTblCmdCommit r s
  | .tariffCtrlWrite r reg data => Sys2Proof.Machine.execTariffCtrlWrite r reg data s
  | .sessOpen r k acct tenant host => Sys2Proof.Machine.execSessOpen r k acct tenant host s
  | .sessClose r k => Sys2Proof.Machine.execSessClose r k s
  | .sessSettle r k => Sys2Proof.Machine.execSessSettle r k s
  | .recCommit r => Sys2Proof.Machine.execRecCommit r s
  | .recDone framOk => Sys2Proof.Machine.execRecDone framOk s
  | .recRdGo r => Sys2Proof.Machine.execRecRdGo r s
  | .recRdDone framOk => Sys2Proof.Machine.execRecRdDone framOk s
  | .verdict r v tickNow => Sys2Proof.Machine.execVerdict r v tickNow s
  | .entryRelease => Sys2Proof.Machine.execEntryRelease s
  | .entryAbandon => Sys2Proof.Machine.execEntryAbandon s
  | .keypadLockEnd => Sys2Proof.Machine.execKeypadLockEnd s
  | .loginSet r acct => Sys2Proof.Machine.execLoginSet r acct s
  | .loginClr r => Sys2Proof.Machine.execLoginClr r s
  | .loginTimeout => Sys2Proof.Machine.execLoginTimeout s
  | .keyAccepted code multi => Sys2Proof.Machine.execKeyAccepted code multi s
  | .stuck code => Sys2Proof.Machine.execStuck code s
  | .keyFifoRead r => Sys2Proof.Machine.execKeyFifoRead r s
  | .scrollStep => Sys2Proof.Machine.execScrollStep s
  | .itemRefresh => Sys2Proof.Machine.execItemRefresh s
  | .resultShownEnd => Sys2Proof.Machine.execResultShownEnd s
  | .lampDiagResult n m since => Sys2Proof.Machine.execLampDiagResult n m since s
  | .lampClr r n => Sys2Proof.Machine.execLampClr r n s
  | .ganderOccurrence srcs high => Sys2Proof.Machine.execGanderOccurrence srcs high s
  | .sourceRelease src high => Sys2Proof.Machine.execSourceRelease src high s
  | .dieTempReading t => Sys2Proof.Machine.execDieTempReading t s
  | .meshCheck matched => Sys2Proof.Machine.execMeshCheck matched s
  | .ganderClr r => Sys2Proof.Machine.execGanderClr r s
  | .voteSet r d slots => Sys2Proof.Machine.execVoteSet r d slots s
  | .voteClr r d slots => Sys2Proof.Machine.execVoteClr r d slots s
  | .cmdRunNormal r => Sys2Proof.Machine.execCmdRunNormal r s
  | .cmdRunHigh r => Sys2Proof.Machine.execCmdRunHigh r s
  | .cmdIdle r => Sys2Proof.Machine.execCmdIdle r s
  | .cmdSleep r => Sys2Proof.Machine.execCmdSleep r s
  | .cmdDeep r => Sys2Proof.Machine.execCmdDeep r s
  | .cmdOff r => Sys2Proof.Machine.execCmdOff r s
  | .cmdWatch r => Sys2Proof.Machine.execCmdWatch r s
  | .domainDropStart => Sys2Proof.Machine.execDomainDropStart s
  | .dropDecision arrival => Sys2Proof.Machine.execDropDecision arrival s
  | .domainOff => Sys2Proof.Machine.execDomainOff s
  | .powerUpItemDone item => Sys2Proof.Machine.execPowerUpItemDone item s
  | .biasChangeDone => Sys2Proof.Machine.execBiasChangeDone s
  | .pfw => Sys2Proof.Machine.execPfw s
  | .pfwClr => Sys2Proof.Machine.execPfwClr s
  | .pfwLatchClear r => Sys2Proof.Machine.execPfwLatchClear r s
  | .brownOut => Sys2Proof.Machine.execBrownOut s
  | .vbatSwitch vbat => Sys2Proof.Machine.execVbatSwitch vbat s
  | .vddReturn => Sys2Proof.Machine.execVddReturn s
  | .wakePinAccept level => Sys2Proof.Machine.execWakePinAccept level s
  | .i2cAddressMatch addr => Sys2Proof.Machine.execI2cAddressMatch addr s
  | .i2cTo running periods => Sys2Proof.Machine.execI2cTo running periods s
  | .watchCheckStart => Sys2Proof.Machine.execWatchCheckStart s
  | .watchJudge => Sys2Proof.Machine.execWatchJudge s
  | .watchCapture r => Sys2Proof.Machine.execWatchCapture r s
  | .hspiWrite f words tailBits => Sys2Proof.Machine.execHspiWrite f words tailBits s
  | .hspiRead f n late limit tailBits => Sys2Proof.Machine.execHspiRead f n late limit tailBits s
  | .hspiBadcmd cmd mode => Sys2Proof.Machine.execHspiBadcmd cmd mode s
  | .i2cSetPointer addr part => Sys2Proof.Machine.execI2cSetPointer addr part s
  | .i2cWrite addr words tail clash part => Sys2Proof.Machine.execI2cWrite addr words tail clash part s
  | .i2cRead n tail clash limit part => Sys2Proof.Machine.execI2cRead n tail clash limit part s
  | .i2cReadStretchTimeout => Sys2Proof.Machine.execI2cReadStretchTimeout s
  | .hspiDmaGo r toBank => Sys2Proof.Machine.execHspiDmaGo r toBank s
  | .hspiDmaDone clash => Sys2Proof.Machine.execHspiDmaDone clash s
  | .mspiTransferDone status atLimit => Sys2Proof.Machine.execMspiTransferDone status atLimit s
  | .mspiTimeout => Sys2Proof.Machine.execMspiTimeout s
  | .mspiDirectGo r ctrl => Sys2Proof.Machine.execMspiDirectGo r ctrl s
  | .dirDone rx => Sys2Proof.Machine.execDirDone rx s
  | .mspiCfgWrite r data => Sys2Proof.Machine.execMspiCfgWrite r data s
  | .uartRxByte b fe pe => Sys2Proof.Machine.execUartRxByte b fe pe s
  | .uartTxByteDone => Sys2Proof.Machine.execUartTxByteDone s
  | .uartDataWrite r b => Sys2Proof.Machine.execUartDataWrite r b s
  | .uartDataRead r => Sys2Proof.Machine.execUartDataRead r s
  | .uartDmaStart r x cfg => Sys2Proof.Machine.execUartDmaStart r x cfg s
  | .jtagInstruction ir => Sys2Proof.Machine.execJtagInstruction ir s
  | .debugHalt core => Sys2Proof.Machine.execDebugHalt core s
  | .debugResume core => Sys2Proof.Machine.execDebugResume core s
  | .debugStep core => Sys2Proof.Machine.execDebugStep core s
  | .accessRegister core regno write => Sys2Proof.Machine.execAccessRegister core regno write s
  | .progbufExec core w0 w1 => Sys2Proof.Machine.execProgbufExec core w0 w1 s
  | .ndmreset core => Sys2Proof.Machine.execNdmreset core s
  | .acLock r => Sys2Proof.Machine.execAcLock r s
  | .por => Sys2Proof.Machine.execPor s
  | .rstN => Sys2Proof.Machine.execRstN s
  | .swrst r key => Sys2Proof.Machine.execSwrst r key s
  | .coldStart => Sys2Proof.Machine.execColdStart s
  | .appBoot => Sys2Proof.Machine.execAppBoot s
  | .sealStore ok => Sys2Proof.Machine.execSealStore ok s
  | .loader badOp => Sys2Proof.Machine.execLoader badOp s
  | .loaderProg sector lfl seq ok atLimit clash => Sys2Proof.Machine.execLoaderProg sector lfl seq ok atLimit clash s
  | .loaderCheck seq atLimit => Sys2Proof.Machine.execLoaderCheck seq atLimit s
  | .loaderBurn seq ok atLimit => Sys2Proof.Machine.execLoaderBurn seq ok atLimit s
  | .loaderDone seq atLimit => Sys2Proof.Machine.execLoaderDone seq atLimit s
  | .loaderTimeout => Sys2Proof.Machine.execLoaderTimeout s
  | .acHold r => Sys2Proof.Machine.execAcHold r s
  | .acRestart r => Sys2Proof.Machine.execAcRestart r s
  | .aflProg r page clash => Sys2Proof.Machine.execAflProg r page clash s
  | .aflEraseSector r page => Sys2Proof.Machine.execAflEraseSector r page s
  | .aflDone ok => Sys2Proof.Machine.execAflDone ok s
  | .progDevId r => Sys2Proof.Machine.execProgDevId r s
  | .progCustKeyHash r => Sys2Proof.Machine.execProgCustKeyHash r s
  | .provision r => Sys2Proof.Machine.execProvision r s
  | .sealDevice r => Sys2Proof.Machine.execSealDevice r s
  | .retire r => Sys2Proof.Machine.execRetire r s
  | .wakeHoldEnd => Sys2Proof.Machine.execWakeHoldEnd s
  | .unlock medium => Sys2Proof.Machine.execUnlock medium s
  | .keyReleased code => Sys2Proof.Machine.execKeyReleased code s
  | .digestBurnDone => Sys2Proof.Machine.execDigestBurnDone s
  | .otpProgDone ok => Sys2Proof.Machine.execOtpProgDone ok s
  | .snapshotDone stall => Sys2Proof.Machine.execSnapshotDone stall s
  | .ufeXstartEdge t => Sys2Proof.Machine.execUfeXstartEdge t s
end Sys2Proof.Machine
end

