-- ==== Sys2Proof/Machine/Balls.lean ====
section
/-! DEFINITION. The levels of the balls that the chip drives, as the state has them: clamps, transducers, pulses, lamps,
display, clock output, interrupt (R22, R83, R88–R91, R175, R177, R269, R316, R328, R331, R360, R364, R390, R391).  Times
finer than a command are arguments. -/

namespace Sys2Proof.Machine

/-- R364: the power-fail clamps hold from the warning until PFW_LATCH is cleared. -/
def Dev.pfwClamp (d : Dev) : Bool := d.on Fld.PWR_SUPPLY_PFW || d.on Fld.PWR_SUPPLY_PFW_LATCH

/-! ### Outlets (R22, R177, R360) -/

/-- ENA_k. -/
def Dev.enaBall (d : Dev) (k : Nat) : Bool := bit d.enaStat k

/-- HOT_k: high by the thermal guard, and clamped high without it, during a check of WATCH (R377) and at a power fail. -/
def Dev.hotBall (d : Dev) (k : Nat) : Bool :=
  !d.domOn .ufd || d.watch.checkMode || d.pfwClamp || d.on (Fld.THERM_ILIM_HOT k)

/-- PLS_m: at its inactive level but during a pulse. -/
def Dev.plsBall (d : Dev) (m : Nat) : Bool :=
  (d.domOn .met && !d.pfwClamp && d.on (Fld.PULSE_PLS_STAT_ACTIVE m)) != d.on (Fld.PULSE_PLS_CFG_ACT_LOW m)

/-! ### Transducers and temperature sensors (R83, R88–R91, R124, R360) -/

/-- What a transducer ball is connected to: the analogue ground, the receive switch that holds it, its charge amplifier
with a feedback capacitor in pF, or the driver at a level. -/
inductive UfeBall where
  | ground | held
  | amp (pF : Nat)
  | drive (high : Bool)
deriving DecidableEq, Repr

/-- R83: the path is in use; a pair in flight has what it was accepted with. -/
def Dev.pathUsed (d : Dev) (n : Nat) : Bool :=
  match d.ufe.pair with
  | some p => if p.path = n then p.en else d.on (Fld.UFE_DRV_PATH_CFG_EN n)
  | none => d.on (Fld.UFE_DRV_PATH_CFG_EN n)

/-- R89: the level of a burst `c` coarse clocks after its fire edge, while it lasts. -/
def Burst.level (b : Burst) (c : Nat) : Option Bool := if c < b.stop then some (c / b.half % 2 == 0) else none

/-- Ball UFE_nA (`i` = 2n) or UFE_nB (2n + 1), `c` coarse clocks after the last fire edge. -/
def Dev.ufeBall (d : Dev) (i c : Nat) : UfeBall :=
  if !d.domOn .ufa || !d.pathUsed (i / 2) then .ground
  else match d.ufe.rx, d.ufe.burst with
    | some (j, pF), b =>
      if j = i then .amp pF
      else match b.bind fun b => if b.ball = i then b.level c else none with
        | some h => .drive h
        | none => .held
    | none, _ => .held

/-- R90: EXT_DRV_EN, `x` coarse clocks of 128 MHz after the fire edge of the shot in flight, or before that of the next. -/
def Dev.extDrvBall (d : Dev) (x : Int) : Bool :=
  d.domOn .ufa && !d.pfwClamp &&
    match d.ufe.burst, d.ufe.pair with
    | some b, _ => b.ext && decide (0 ≤ x ∧ x < b.stop)
    | none, some p => p.nextFire.isSome && p.extDrv && decide (-128 ≤ x ∧ x < 0)
    | none, none => false

/-- R124, R360: the excitation of the RTD channels. -/
def Dev.rtdExcited (d : Dev) : Bool := d.domOn .ufa && d.rtd.conv.isSome

/-! ### Display and lamps (R316, R328, R330, R331) -/

/-- R316: the bit of a digit's pattern on its two lines, by COM line. -/
def segBit (odd : Bool) (com : Nat) : Nat := ((if odd then [1, 6, 2, 7] else [0, 5, 4, 3])[com]?).getD 0

/-- R316, R360: whether the segment at line SEG_`l` and COM_`c` is lit; all at ground without PER. -/
def Dev.segLit (d : Dev) (l c : Nat) : Bool :=
  d.domOn .per &&
    if l < 16 then
      bit (d.rd (if l < 8 then Reg.LCD_DISP_LO else Reg.LCD_DISP_HI)) (8 * (l / 2 % 4) + segBit (l % 2 == 1) c)
    else if l < 20 then bit d.dispSym (4 * (l - 16) + c)
    else bit (d.f (Fld.LCD_AUX_SEG_SEG c)) (l - 20)

/-- R328, R330, R331: the current of lamp `n`'s sink, in mA, `clk` clocks of 0.5 µs into its period. -/
def Dev.lampSink (d : Dev) (n clk : Nat) : Nat :=
  if d.domOn .per && !d.pfwClamp && d.on (Fld.LAMP_LMP_CFG_EN n) && !d.lampShortOff n && clk < vGet d.lamp.duty n 0 then
    min 30 (max 2 (d.f (Fld.LAMP_LMP_CFG_ISET n)))
  else 0

/-! ### Clock output and host lines (R269, R390, R391) -/

/-- R269: SQW, `sub` periods after a boundary and in half period `half` of the LFXO, the even ones high. -/
def Dev.sqwBall (d : Dev) (sub half : Nat) : Bool :=
  match d.f Fld.RTC_SQW_CFG_SEL with
  | 1 => sub < 16384
  | 2 => half / 64 % 2 == 0
  | 3 => half / 8 % 2 == 0
  | 4 => half % 2 == 0
  | _ => false

/-- R391, R360: HOST_IRQ_N, low while asserted. -/
def Dev.hostIrqN (d : Dev) : Bool := !(d.domOn .per && d.line 2)

/-- R360, R398: the MSPI chip select, high while nothing is selected. -/
def Dev.mspiCsN (d : Dev) : Bool := !(d.domOn .per && (d.ports.dir.isSome || d.framBusy))

/-- R360, R402: the byte that UART TX sends; without one the ball is high. -/
def Dev.uartSends (d : Dev) : Option Byte := if d.domOn .per then d.ports.uart.out else none

end Sys2Proof.Machine
end

