-- ==== Sys2Proof/Safety.lean ====
section
/-! DEFINITION. The terms in which statements speak: what holds between commands, which accesses are open, what the
follow-up work of a command may touch, and the canonical form of the stored data. -/

namespace Sys2Proof.Machine

/-! ### Canonical form -/

/-- SRAM, flash and FRAM are in canonical form. -/
def Mem.wf (m : Mem) : Bool :=
  SMap.wf (sramDflt m.undef) m.sram && SMap.wf flashDflt m.lfl && SMap.wf flashDflt m.afl && SMap.wf framDflt m.fram

/-- The registers and the memories are in canonical form, and x0 of both cores reads 0. -/
def Dev.wf (d : Dev) : Bool :=
  SMap.wf regReset d.regs && d.mem.wf && vGet d.lc.x 0 0 == 0 && vGet d.ac.x 0 0 == 0

/-! ### Between commands -/

/-- No event is left unsettled (R30, R433). -/
def Dev.settled (d : Dev) : Bool := d.edges.isEmpty

/-- R355: the chip is not in IDLE while an event is forwarded to a core. -/
def Dev.idleQuiet (d : Dev) : Bool := d.cur != .idle || (!d.line 0 && !d.line 1)

/-- R356: a domain whose drop is not decided yet is not needed. -/
def Dev.dropSound (d : Dev) : Bool := d.pwr.drop.all fun q => q.decided || !d.wanted q.dom

/-- What every command leaves. -/
def Dev.rest (d : Dev) : Bool := d.settled && d.idleQuiet && d.dropSound

/-! ### Who reaches a register page -/

/-- R20, R21, R24, R356: requester `r` is there and reaches page `p` now. -/
def Dev.opens (d : Dev) (r : Requester) (p : Page) : Bool :=
  d.present r && r != .uart && r != .hostDma && d.reaches p.dom && !d.quiescing p.dom

/-- R26: `r` reaches page `p` and may write it. -/
def Dev.writable (d : Dev) (r : Requester) (p : Page) : Bool := d.opens r p && (r.legal || p.owner != .legal)

/-- R20, R21, R24, R356: requester `r` is there and reaches target `t` now, `write` telling stores from loads. -/
def Dev.admits (d : Dev) (r : Requester) (t : Target) (write : Bool) : Bool :=
  (match reach r t write with
    | .ok _ => true
    | .error _ => false)
  && d.present r && d.reaches t.dom && !d.quiescing t.dom

/-! ### The follow-up work of a command -/

/-- No follow-up work of another command waits: the boot ROM does not run, no report of MULE, no task of HERD that runs or
asks for a context, no restore that is due, no host transaction, no UART transfer that a drop has stopped, no state
request, no APP_BOOT that is due; and SYS is not in check mode. -/
def Dev.calm (d : Dev) : Bool :=
  !d.boot.rom && !d.boot.appDue && d.mule.reports.isEmpty && d.herd.running.isEmpty && d.herd.asks.isEmpty
  && (d.mule.store != .notReady || !d.on Fld.MULE_CTRL_EN)
  && d.ports.host.tx.isNone && !d.ports.uart.stop && d.pwr.pend.isNone && !d.watch.checkMode

/-- The registers that the settling of events, the votes of hardware and the refreshed status words write: pending bits,
the fault log, the capture units, the wake record, the power sequencer's state, T_X of MSPI, ERR_STAT. -/
def followRegs : List Nat :=
  Page.all.map Reg.EVT_PEND
  ++ (List.range 16).flatMap (fun n => [Reg.EVTMX_FLOG_EVT n, Reg.EVTMX_FLOG_CYC n])
  ++ [Reg.EVTMX_FLOG_WR, Reg.EVTMX_FLOG_CNT]
  ++ (List.range 4).flatMap (fun n => [Reg.MAE_CAP_CYC n, Reg.MAE_CAP_ANG n])
  ++ [Reg.ROOSTER_WAKE_SRC, Reg.ROOSTER_WAKE_PEND, Reg.ROOSTER_WAKE_TIME_LO, Reg.ROOSTER_WAKE_TIME_HI,
      Reg.ROOSTER_WAKE_CNT, Reg.PWR_STATE, Reg.PWR_SEQ]
  ++ Dom.all.flatMap (fun x => [Reg.PWR_VOTE x.num, Reg.PWR_DOM_CNT x.num])
  ++ [Reg.MSPI_STAT, Reg.MSPI_TX_NOW, Reg.LCD_ERR_STAT]

/-- Whether the follow-up work may write the register at `a`. -/
def follows (a : Nat) : Bool := followRegs.contains a

/-- The device without its registers, its answer, its counter of free values, the periods that have passed of a second,
what the capture units remember, the power sequencer and WATCH. -/
def Dev.units (d : Dev) : Dev :=
  { d with regs := [], bus := .none, free := 0, edges := [], rtc.sub := 0,
           mae.capMissed := Vector.replicate 4 false, pwr := {}, watch := {} }

/-- Every register but those at `l` and those of the follow-up work reads in `e` as in `d`. -/
def Dev.keeps (d e : Dev) (l : List Nat) : Prop := ∀ a, a ∉ l → follows a = false → e.rd a = d.rd a

/-- The pending bit of event `n` is set (R30). -/
def Dev.pends (d : Dev) (n : Nat) : Bool :=
  match eventPlace n with
  | some (p, k) => bit (d.rd (Reg.EVT_PEND p)) k
  | none => false

/-! ### What a command answers -/

/-- Command `c` answers a next state with the queue as it was and a device of which `P` holds. -/
def Yields (c : Instr) (s : State) (P : Dev → Prop) : Prop :=
  ∃ t, exec c s = .next t ∧ t.pending = s.pending ∧ P t.dev

/-- Command `c` answers the follow-up work of a device of which `P` holds: `P` says what the command itself does. -/
def Effects (c : Instr) (s : State) (P : Dev → Prop) : Prop :=
  ∃ d, exec c s = .next { s with dev := d.finish } ∧ P d

end Sys2Proof.Machine
end

