-- ==== Sys2Proof/Certificates/Slice0/Obligations.lean ====
section
/-! DEFINITION. The statements for the provers, from the rules of the manual. -/

open Sys2Proof Sys2Proof.Machine

/-- A step executes the command at the front of the queue. For every command c, state s and queue rest, a step at the
state whose queue is c followed by rest is exec of c at that state with the queue rest; on an empty queue the block
idles (log entry 1: the queue and the idling are the model's own form). (rests on 00_scope.md) -/
def Obligations.StepRunsFrontCommand : Prop :=
  (∀ (c : Instr) (s : State) (rest : List Instr),
    step { s with pending := c :: rest } = exec c { s with pending := rest })
  ∧ ∀ s : State, s.pending = [] → step s = .next s

/-- What a power-on reset leaves. At reset RST_CAUSE reads 0x01, AON alone is on, every other register reads its reset
value of R15, a cold start is due, no event is unsettled, no command waits, and the stored data are in canonical form.
(rests on R15, R351, R407, R408) -/
def Obligations.ResetLeaves : Prop :=
  State.reset.pending = [] ∧ State.reset.dev.rest = true ∧ State.reset.dev.wf = true
  ∧ State.reset.dev.rd Reg.SYSCTL_RST_CAUSE = 1 ∧ State.reset.dev.pwr.cold = .due
  ∧ (∀ x : Dom, State.reset.dev.domOn x = (x == .aon))
  ∧ ∀ a : Nat, a ≠ Reg.SYSCTL_RST_CAUSE → State.reset.dev.rd a = (regReset a).toNat

/-- Every step leaves the device at rest. If a device is at rest (no event unsettled; the chip not in IDLE while an
enabled pending event is routed to a core; no drop that is still before its decision of a domain that something
needs), then after every step it is at rest again, whatever the command. The order in which follow-up work settles is
the model's (log entry 3). (rests on R30, R355, R356, R433) -/
def Obligations.EveryStepLeavesRest : Prop :=
  ∀ s t : State, s.dev.rest = true → step s = .next t → t.dev.rest = true

/-- Every step keeps the stored data in canonical form and x0 at 0. If the register file, the SRAM, both flash arrays
and the FRAM are in canonical form (keys rising, no entry equal to what an unlisted one reads as) and x0 of both cores
holds 0, the same is true after every step, whatever the command. (rests on R12, R178, R215, R232, R234, R418) -/
def Obligations.EveryStepKeepsCanonicalForm : Prop :=
  ∀ s t : State, s.dev.wf = true → step s = .next t → t.dev.wf = true

/-- A register write follows the types of the fields. On the pages whose registers hold plain settings or results
(CLK, MET_CAL, MET_QTY, PULSE, UFE_RX, KEYPAD, I2CT), a word write by a requester that may write the page completes
and leaves each field as its type says: RW takes the value unless PG_LOCK.LOCK is set, RO and WO hold, W1C clears the
bits written 1 but for those that hardware sets in the clock of the write, W1S sets them, RWO takes it from the legal
side, RWU while the lifecycle is UNSEALED. No other register and no unit changes but by the follow-up work. (rests on
R12, R13, R14, R26, R31) -/
def Obligations.RegisterWriteFollowsFieldTypes : Prop :=
  ∀ (s : State) (r : Requester) (p : Page) (off : Nat) (data hw : Word) (g : FieldRow),
    s.dev.calm = true → s.dev.writable r p = true →
    p ∈ [Page.clk, .metCal, .metQty, .pulse, .ufeRx, .keypad, .i2ct] →
    0x40 ≤ off → off < 0x1000 → off % 4 = 0 → g ∈ fieldsAt p off →
    Yields (.registerWrite r (pageBase p + off) data .word hw) s fun e =>
      bits (e.rd (pageBase p + off)) g.lo g.width =
        (match g.ty with
          | .rw => if bit (s.dev.rd (Reg.PG_LOCK p)) 0 then bits (s.dev.rd (pageBase p + off)) g.lo g.width
                   else bits data.toNat g.lo g.width
          | .ro | .wo => bits (s.dev.rd (pageBase p + off)) g.lo g.width
          | .w1c => (bits (s.dev.rd (pageBase p + off)) g.lo g.width
                      - (bits (s.dev.rd (pageBase p + off)) g.lo g.width &&& bits data.toNat g.lo g.width))
                    ||| bits hw.toNat g.lo g.width
          | .w1s => bits (s.dev.rd (pageBase p + off)) g.lo g.width ||| bits data.toNat g.lo g.width
          | .rwo => if r.legal then bits data.toNat g.lo g.width else bits (s.dev.rd (pageBase p + off)) g.lo g.width
          | .rwu => if s.dev.lifecycle = .unsealed then bits data.toNat g.lo g.width
                    else bits (s.dev.rd (pageBase p + off)) g.lo g.width)
      ∧ e.bus = .done ∧ s.dev.keeps e [pageBase p + off] ∧ e.units = s.dev.units

/-- A read of a low word captures the high word for its reader. READ64_LOW of the low word of any pair (UPTIME apart,
which counts on by itself) answers that word and captures the high word in the capture register of the reader (LC, AC
or host port); no other capture register and no register changes but by the follow-up work, and from then on that
reader's read of the high word of any pair returns the captured value. (rests on R16) -/
def Obligations.LowWordReadCapturesHighWord : Prop :=
  ∀ (s : State) (r : Requester) (p : Page) (off : Nat),
    s.dev.calm = true → s.dev.opens r p = true → off < 0x1000 → off % 4 = 0 → 0x40 ≤ off →
    pairPlace p off = some true → pageBase p + off ≠ Reg.RTC_UPTIME_LO → (p = .prepay → r.legal = true ∨ 0x180 ≤ off) →
    Yields (.read64Low r (pageBase p + off)) s fun e =>
      e.bus = .data (BitVec.ofNat 32 (s.dev.plain (pageBase p + off)))
      ∧ (e.cap r).hi = BitVec.ofNat 32 (s.dev.plain (pageBase p + off + 4))
      ∧ (∀ q : Requester, q.capture ≠ r.capture → e.cap q = s.dev.cap q)
      ∧ s.dev.keeps e [] ∧ { e.units with caps := s.dev.caps } = s.dev.units
      ∧ ∀ (q : Page) (o : Nat), 0x40 ≤ o → pairPlace q o = some false → (q = .prepay → r.legal = true ∨ 0x180 ≤ o) →
          (e.regRead r q o).1 = (e.cap r).hi.toNat

/-- Page locks, event enables and the fault log. PG_LOCK_SET sets PG_LOCK.LOCK of its page. EVT_EN_WRITE leaves EVT_EN
with the bits written, within the page's events (R29), and from then on every event of the page that is pending and
enabled is forwarded to each target the page is routed to (the events of CRYPTO never leave the legal island). Neither
changes another register or a unit but by the follow-up work. FLOG_CLR empties the fault log: every one of the sixteen
entries, FLOG_WR and FLOG_CNT read 0 right after the command's effect, and nothing else has changed. (What the
follow-up work raises may be logged anew.) (rests on R30, R31, R431, R433) -/
def Obligations.LocksEnablesAndFaultLog : Prop :=
  ((∀ (s : State) (r : Requester) (p : Page), s.dev.calm = true → s.dev.writable r p = true →
    Yields (.pgLockSet r p) s fun e =>
      bit (e.rd (Reg.PG_LOCK p)) 0 = true ∧ s.dev.keeps e [Reg.PG_LOCK p] ∧ e.units = s.dev.units)
  ∧ ∀ (s : State) (r : Requester) (p : Page) (b n : Nat) (en : Word), s.dev.calm = true → s.dev.writable r p = true →
    p.events = some (b, n) →
    Yields (.evtEnWrite r p en) s fun e =>
      e.rd (Reg.EVT_EN p) = en.toNat % 2 ^ n ∧ s.dev.keeps e [Reg.EVT_EN p] ∧ e.units = s.dev.units
      ∧ ∀ k < n, ∀ t < 3, bit en.toNat k = true → bit (s.dev.rd (Reg.EVT_PEND p)) k = true →
          bit (s.dev.rd (Reg.EVT_ROUTE p)) t = true → (p = .crypto → t = 0) → e.line t = true)
  ∧ (∀ (s : State) (r : Requester), s.dev.writable r .evtmx = true →
    Effects (.flogClr r) s fun e =>
      (∀ n < 16, e.rd (Reg.EVTMX_FLOG_EVT n) = 0 ∧ e.rd (Reg.EVTMX_FLOG_CYC n) = 0)
      ∧ e.rd Reg.EVTMX_FLOG_WR = 0 ∧ e.rd Reg.EVTMX_FLOG_CNT = 0
      ∧ (∀ a, (∀ n < 16, a ≠ Reg.EVTMX_FLOG_EVT n ∧ a ≠ Reg.EVTMX_FLOG_CYC n) → a ≠ Reg.EVTMX_FLOG_WR →
          a ≠ Reg.EVTMX_FLOG_CNT → e.rd a = s.dev.rd a)
      ∧ e.units = s.dev.units ∧ e.edges = s.dev.edges ∧ e.pwr = s.dev.pwr ∧ e.watch = s.dev.watch)

/-- Register writes that the fabric turns away. A write by the application side to a register page of the legal side
is not performed: it completes without a bus error, VIOL_ADDR and VIOL_INFO (KIND 1, the source, WRITE, VALID) record
it, VIOL_CNT counts it, FW_VIOL is pending where LGL is on, and no other register and no unit changes but by the
follow-up work and by what hardware sets in the register in the same clock. A write to a page whose domain is off or
isolated ends in a bus error and changes nothing but that. (rests on R13, R20, R21, R26, R231) -/
def Obligations.FabricTurnsWritesAway : Prop :=
  (∀ (s : State) (r : Requester) (p : Page) (off : Nat) (data hw : Word), s.dev.calm = true → s.dev.opens r p = true →
    r.legal = false → p.owner = .legal → off < 0x1000 → off % 4 = 0 →
    Yields (.registerWrite r (pageBase p + off) data .word hw) s fun e =>
      e.bus = .done ∧ e.units = s.dev.units
      ∧ s.dev.keeps e ([Reg.FWALL_VIOL_ADDR, Reg.FWALL_VIOL_INFO, Reg.FWALL_VIOL_CNT] ++ if hw = 0 then [] else [pageBase p + off])
      ∧ (s.dev.domOn .lgl = true →
          e.rd Reg.FWALL_VIOL_ADDR = pageBase p + off
          ∧ e.f Fld.FWALL_VIOL_INFO_KIND = 1 ∧ e.f Fld.FWALL_VIOL_INFO_SRC = r.violSrc
          ∧ e.f Fld.FWALL_VIOL_INFO_WRITE = 1 ∧ e.f Fld.FWALL_VIOL_INFO_VALID = 1
          ∧ e.rd Reg.FWALL_VIOL_CNT = min (s.dev.rd Reg.FWALL_VIOL_CNT + 1) (2 ^ 32 - 1)
          ∧ e.pends Ev.FWALL_FW_VIOL = true))
  ∧ ∀ (s : State) (r : Requester) (p : Page) (off : Nat) (data hw : Word), s.dev.calm = true → r ≠ .uart → r ≠ .hostDma →
    s.dev.reaches p.dom = false → off < 0x1000 → off % 4 = 0 →
    Yields (.registerWrite r (pageBase p + off) data .word hw) s fun e =>
      e.bus = .error ∧ s.dev.keeps e (if hw = 0 then [] else [pageBase p + off]) ∧ e.units = s.dev.units

/-- A core executes ADDI. Where a core runs, waits for nothing, takes no interrupt, meets no trigger, is not
single-stepping, and its fetch gives an ADDI without changing the device, the instruction command completes: rd takes
rs1 plus the sign-extended immediate (x0 stays 0), every other register holds, pc moves on by 4, no CSR but minstret
changes, and nothing outside the core changes but by the follow-up work. (rests on R232, R418) -/
def Obligations.CoreExecutesAddi : Prop :=
  ∀ (s : State) (id : CoreId) (clash : Option PortClash) (w : Nat),
    s.dev.calm = true → s.dev.coreRuns id = true → s.dev.boot.rom = false → s.dev.boot.loader = none →
    s.dev.mem.dpmWait = none → (s.dev.core id).wfi = false → (s.dev.core id).stepping = false →
    s.dev.coreIrq id = false → s.dev.triggered ⟨id, coreReq id (s.dev.core id).pc, false⟩ (s.dev.core id).pc.toNat 2 = none →
    (id = .lc → (s.dev.core id).pc ∉ [(0x100 : Word), 0x104, 0x108]) →
    (s.dev.answer .none).fetch ⟨id, coreReq id (s.dev.core id).pc, false⟩ (s.dev.core id).pc.toNat
      = (.ok w, s.dev.answer .none) →
    bits w 0 7 = 0x13 → bits w 12 3 = 0 →
    Yields (match id with
      | .lc => .lcInstruction clash
      | .ac => .acInstruction clash) s fun e =>
      (∀ n < 32, (e.core id).get n =
        if n = bits w 7 5 ∧ n ≠ 0 then (s.dev.core id).get (bits w 15 5) + BitVec.ofInt 32 (sgn 12 (bits w 20 12))
        else (s.dev.core id).get n)
      ∧ (e.core id).pc = (s.dev.core id).pc + 4
      ∧ { e.core id with x := (s.dev.core id).x, pc := (s.dev.core id).pc, minstret := (s.dev.core id).minstret }
          = s.dev.core id
      ∧ s.dev.keeps e [] ∧ (e.units.setCore id (s.dev.core id)) = s.dev.units

/-- A misaligned load takes its exception and performs no access. Where a core runs, waits for nothing, takes no
interrupt, meets no trigger, is not single-stepping, and its fetch gives an LW without changing the device, an address
that is not a multiple of 4 raises load-address-misaligned: mepc holds the pc, mcause 4, mtval the address, MPIE takes
MIE, MIE is cleared, MPP takes the mode, the core is in machine mode at the base of mtvec; no register of the core
changes, and nothing outside the core but by the follow-up work. (rests on R10, R232, R418) -/
def Obligations.MisalignedLoadTraps : Prop :=
  ∀ (s : State) (id : CoreId) (clash : Option PortClash) (w : Nat),
    s.dev.calm = true → s.dev.coreRuns id = true → s.dev.boot.rom = false → s.dev.boot.loader = none →
    s.dev.mem.dpmWait = none → (s.dev.core id).wfi = false → (s.dev.core id).stepping = false →
    s.dev.coreIrq id = false → (∀ a k, s.dev.triggered ⟨id, coreReq id (s.dev.core id).pc, false⟩ a k = none) →
    (id = .lc → (s.dev.core id).pc ∉ [(0x100 : Word), 0x104, 0x108]) →
    (s.dev.answer .none).fetch ⟨id, coreReq id (s.dev.core id).pc, false⟩ (s.dev.core id).pc.toNat
      = (.ok w, s.dev.answer .none) →
    bits w 0 7 = 0x03 → bits w 12 3 = 2 →
    ((s.dev.core id).get (bits w 15 5) + BitVec.ofInt 32 (sgn 12 (bits w 20 12))).toNat % 4 ≠ 0 →
    Yields (match id with
      | .lc => .lcInstruction clash
      | .ac => .acInstruction clash) s fun e =>
      (e.core id).mepc = (s.dev.core id).pc ∧ (e.core id).mcause = 4
      ∧ (e.core id).mtval = (s.dev.core id).get (bits w 15 5) + BitVec.ofInt 32 (sgn 12 (bits w 20 12))
      ∧ (e.core id).mpie = (s.dev.core id).mie ∧ (e.core id).mie = false ∧ (e.core id).mpp = (s.dev.core id).priv
      ∧ (e.core id).priv = .machine
      ∧ (e.core id).pc = BitVec.ofNat 32 ((s.dev.core id).mtvec.toNat / 64 * 64)
      ∧ (e.core id).x = (s.dev.core id).x
      ∧ s.dev.keeps e [] ∧ (e.units.setCore id (s.dev.core id)) = s.dev.units

/-- The Debug Modules. A debug command selects its DMI instruction and sets DBG_STAT.TCK_SEEN. Where the Debug Module
of a core is reached: DEBUG_HALT of a running core puts it in Debug Mode with dpc at its pc and cause 3; DEBUG_RESUME
of a halted core lets it go on at dpc; ACCESS_REGISTER of a halted core writes a general register from data0 (x0
discards), or reads it into data0, with cmderr 0; PROGBUF_EXEC of a halted core whose first word is EBREAK ends at
once with cmderr 0. JTAG_INSTRUCTION while SYS is on sets the instruction register to the code loaded where the
lifecycle offers that instruction (IDCODE always; EXTEST, SAMPLE and the LC's module in BLANK, PROVISIONED and
UNSEALED; the AC's module as long as AC debug is available), else to BYPASS, and sets TCK_SEEN. AC_LOCK by the AC sets
DBG_STAT.AC_LOCK. DEBUG_STEP of the halted AC, where its Debug Module is reached, it may run, no interrupt is taken,
no trigger is met, and the fetch at dpc gives an ADDI without changing the device, executes that one instruction and
has the AC in Debug Mode again with cause 4 and dpc after it. NDMRESET of the AC, where its Debug Module is reached
and APP is on, leaves the AC in reset with AC_CTRL.RUN 0; NDMRESET of the LC, where its Debug Module is reached and
LGL is on, sets RST_CAUSE bit 6. (rests on R404, R405, R406, R407) -/
def Obligations.DebugModules : Prop :=
  let dmi (s : State) (e : Dev) (id : CoreId) : Prop :=
    e.f Fld.DEBUG_DBG_STAT_TCK_SEEN = 1 ∧ e.ports.ir = (if id = .lc then 0x13 else 0x11)
      ∧ s.dev.keeps e [Reg.DEBUG_DBG_STAT]
  ((∀ (s : State) (id : CoreId), s.dev.calm = true → s.dev.debugOpen id = true → (s.dev.core id).halted = false →
    Yields (.debugHalt id) s fun e =>
      (e.core id).halted = true ∧ (e.core id).dpc = (s.dev.core id).pc ∧ bits (e.core id).dcsr.toNat 6 3 = 3
      ∧ (e.core id).x = (s.dev.core id).x ∧ dmi s e id)
  ∧ (∀ (s : State) (id : CoreId), s.dev.calm = true → s.dev.debugOpen id = true → (s.dev.core id).halted = true →
    Yields (.debugResume id) s fun e =>
      (e.core id).halted = false ∧ (e.core id).pc = (s.dev.core id).dpc ∧ (e.core id).x = (s.dev.core id).x
      ∧ dmi s e id)
  ∧ (∀ (s : State) (id : CoreId) (n : Fin 32) (v : Word), s.dev.calm = true → s.dev.debugOpen id = true →
    (s.dev.core id).halted = true →
    (Yields (.accessRegister id (BitVec.ofNat 16 (0x1000 + n.val)) (some v)) s fun e =>
      (∀ m < 32, (e.core id).get m = if m = n.val ∧ m ≠ 0 then v else (s.dev.core id).get m)
      ∧ (e.core id).cmderr = 0 ∧ dmi s e id)
    ∧ Yields (.accessRegister id (BitVec.ofNat 16 (0x1000 + n.val)) none) s fun e =>
      (e.core id).data0 = (s.dev.core id).get n.val ∧ (e.core id).cmderr = 0 ∧ (e.core id).x = (s.dev.core id).x
      ∧ dmi s e id)
  ∧ (∀ (s : State) (id : CoreId) (w1 : Word), s.dev.calm = true → s.dev.debugOpen id = true → (s.dev.core id).halted = true →
    Yields (.progbufExec id 0x00100073 w1) s fun e =>
      (e.core id).cmderr = 0 ∧ (e.core id).x = (s.dev.core id).x ∧ (e.core id).halted = true ∧ dmi s e id)
  ∧ (∀ (s : State) (ir : BitVec 5), s.dev.calm = true → s.dev.domOn .sys = true →
    Yields (.jtagInstruction ir) s fun e =>
      e.ports.ir = (if ir = 1 ∨ (ir ∈ [(0x00 : BitVec 5), 0x02, 0x12, 0x13] ∧ s.dev.lcDebug = true)
          ∨ (ir ∈ [(0x10 : BitVec 5), 0x11] ∧ s.dev.acDebug = true) then ir else 0x1F)
      ∧ e.f Fld.DEBUG_DBG_STAT_TCK_SEEN = 1 ∧ s.dev.keeps e [Reg.DEBUG_DBG_STAT])
  ∧ ∀ (s : State) (r : Requester), s.dev.calm = true → s.dev.writable r .debug = true → r.isAc = true →
    Yields (.acLock r) s fun e =>
      e.f Fld.DEBUG_DBG_STAT_AC_LOCK = 1 ∧ s.dev.keeps e [Reg.DEBUG_DBG_STAT] ∧ e.units = s.dev.units)
  ∧ ((∀ (s : State) (w : Nat), s.dev.calm = true → s.dev.debugOpen .ac = true → s.dev.ac.halted = true →
    s.dev.cur ≠ .idle → s.dev.quiescing .app = false → s.dev.quiescing .sys = false → s.dev.mem.dpmWait = none →
    bit s.dev.ac.dcsr.toNat 11 = false →
    let c := ({ s.dev.ac with dcsr := s.dev.ac.dcsr ||| 4, wfi := false } : Core).leaveDebug
    let d : Dev := { s.dev.dmi .ac with bus := .none, ac := c }
    d.triggered ⟨.ac, .ac, false⟩ c.pc.toNat 2 = none → d.fetch ⟨.ac, .ac, false⟩ c.pc.toNat = (.ok w, d) →
    bits w 0 7 = 0x13 → bits w 12 3 = 0 →
    Yields (.debugStep .ac) s fun e =>
      e.ac.halted = true ∧ e.ac.dpc = s.dev.ac.dpc + 4 ∧ bits e.ac.dcsr.toNat 6 3 = 4
      ∧ (∀ n < 32, e.ac.get n =
          if n = bits w 7 5 ∧ n ≠ 0 then s.dev.ac.get (bits w 15 5) + BitVec.ofInt 32 (sgn 12 (bits w 20 12))
          else s.dev.ac.get n)
      ∧ dmi s e .ac)
  ∧ (∀ s : State, s.dev.calm = true → s.dev.acDebug = true → s.dev.domOn .sys = true → s.dev.domOn .app = true →
    Yields (.ndmreset .ac) s fun e => e.f Fld.SYSCTL_AC_CTRL_RUN = 0 ∧ e.ac.on = false)
  ∧ ∀ s : State, s.dev.calm = true → s.dev.lcDebug = true → s.dev.domOn .sys = true →
    s.dev.domOn .lgl = true →
    Effects (.ndmreset .lc) s fun e => bit (e.rd Reg.SYSCTL_RST_CAUSE) 6 = true)

/-- Vote writes. At a RUN point with no entry in progress, VOTE_SET of a domain other than AON sets exactly those
slots written 1 that R347 names the writer for, and VOTE_CLR clears exactly those; the slots of every other domain and
every unit hold. A permitted vote on the domain whose drop is not decided yet undoes the drop, counts it in
DOM_CNT.ABORTS and raises DROP_ABORTED. (rests on R347, R348, R356) -/
def Obligations.VoteWrites : Prop :=
  (∀ (s : State) (r : Requester) (x : Dom) (v : BitVec 16), s.dev.writable r .pwr = true → x ≠ .aon →
    s.dev.pwr.entry = none → s.dev.running = true →
    (Effects (.voteSet r x v) s fun e =>
      e.slots x = s.dev.slots x ||| (v.toNat &&& r.slotMask) ∧ (∀ y, y ≠ x → e.slots y = s.dev.slots y)
      ∧ e.units = s.dev.units)
    ∧ Effects (.voteClr r x v) s fun e =>
      (∀ k < 16, bit (e.slots x) k = (bit (s.dev.slots x) k && !bit (v.toNat &&& r.slotMask) k))
      ∧ (∀ y, y ≠ x → e.slots y = s.dev.slots y) ∧ e.units = s.dev.units)
  ∧ ∀ (s : State) (r : Requester) (x : Dom) (v : BitVec 16), s.dev.writable r .pwr = true → x ≠ .aon →
    s.dev.pwr.entry = none → s.dev.running = true →
    (∃ q : DropSeq, s.dev.pwr.drop = some q ∧ q.dom = x ∧ q.decided = false) → v.toNat &&& r.slotMask ≠ 0 →
    Effects (.voteSet r x v) s fun e =>
      e.pwr.drop = none ∧ Ev.PWR_DROP_ABORTED ∈ e.edges
      ∧ e.f (Fld.PWR_DOM_CNT_ABORTS x.num) = min (s.dev.f (Fld.PWR_DOM_CNT_ABORTS x.num) + 1) 255

/-- Power state requests, accepted and refused. Where no request is pending or in progress, no domain sequence runs,
no slot 0, 1, 2 or 8-15 holds a domain that the target does not allow, PFW is 0 (or the target is OFF) and the WAKE
ball does not request: CMD for the other RUN point begins the change of body bias (TARGET and BUSY); CMD for IDLE from
a RUN point enters IDLE and raises STATE_CHG; CMD for SLEEP (while APP, UFA or UFD is on), DEEP, OFF or WATCH from a
RUN point begins the entry (TARGET, BUSY) with the state unchanged and no domain off yet. While a domain sequence
runs, an accepted request for another state waits for its end (TARGET and BUSY). At a RUN point outside an entry, a
CMD for SLEEP, DEEP, OFF or WATCH with a change of state under way is refused with REASON BUSY; otherwise one whose
target does not allow a domain that a slot 0, 1, 2 or 8-15 holds is refused with VOTED and REJ_DOM the lowest such
domain; otherwise, with PFW set, one for another target than OFF with PFW. CMD_REJ is raised; the state, the entry in
progress, the votes and every unit hold. (rests on R352, R353, R355, R363, R375) -/
def Obligations.PowerRequests : Prop :=
  (∀ (s : State) (r : Requester), s.dev.writable r .pwr = true → s.dev.running = true → s.dev.pwr.entry = none →
    s.dev.pwr.waking = none → s.dev.pwr.bias = none → s.dev.pwr.cold = .no → s.dev.pwr.pin = false →
    s.dev.pwr.pend = none → s.dev.seqRuns = false →
    (s.dev.on Fld.PWR_SUPPLY_PFW = false →
      (s.dev.cur = .runNormal → Effects (.cmdRunHigh r) s fun e =>
        e.pwr.bias = some .runHigh ∧ e.f Fld.PWR_STATE_TARGET = 2 ∧ e.f Fld.PWR_STATE_BUSY = 1 ∧ e.units = s.dev.units)
      ∧ (s.dev.cur = .runHigh → Effects (.cmdRunNormal r) s fun e =>
        e.pwr.bias = some .runNormal ∧ e.f Fld.PWR_STATE_TARGET = 1 ∧ e.f Fld.PWR_STATE_BUSY = 1 ∧ e.units = s.dev.units)
      ∧ Effects (.cmdIdle r) s fun e =>
        e.cur = .idle ∧ e.pwr.idleFrom = s.dev.cur ∧ Ev.PWR_STATE_CHG ∈ e.edges ∧ e.units = s.dev.units)
    ∧ ∀ p ∈ [(Instr.cmdSleep r, PState.sleep), (.cmdDeep r, .deep), (.cmdOff r, .off), (.cmdWatch r, .watch)],
      (∀ x : Dom, p.2.allows x = false → s.dev.slots x &&& 0xFF07 = 0) → (s.dev.on Fld.PWR_SUPPLY_PFW = true → p.2 = .off) →
      (p.2 = .sleep → s.dev.domOn .app = true ∨ s.dev.domOn .ufa = true ∨ s.dev.domOn .ufd = true) →
      Effects p.1 s fun e =>
        e.pwr.entry = some { target := p.2 } ∧ e.f Fld.PWR_STATE_TARGET = p.2.code ∧ e.f Fld.PWR_STATE_BUSY = 1
        ∧ e.cur = s.dev.cur ∧ (∀ x, e.domStat x = s.dev.domStat x) ∧ e.units = s.dev.units)
  ∧ (∀ (s : State) (r : Requester), s.dev.writable r .pwr = true → s.dev.running = true → s.dev.pwr.entry = none →
    s.dev.pwr.waking = none → s.dev.pwr.bias = none → s.dev.pwr.cold = .no → s.dev.pwr.pend = none → s.dev.seqRuns = true →
    ∀ p ∈ [(Instr.cmdRunNormal r, PState.runNormal), (.cmdRunHigh r, .runHigh), (.cmdIdle r, .idle), (.cmdSleep r, .sleep),
      (.cmdDeep r, .deep), (.cmdOff r, .off), (.cmdWatch r, .watch)], p.2 ≠ s.dev.cur →
      (∀ x : Dom, p.2.allows x = false → s.dev.slots x &&& 0xFF07 = 0) → (s.dev.on Fld.PWR_SUPPLY_PFW = true → p.2 = .off) →
      Effects p.1 s fun e =>
        e.pwr = { s.dev.pwr with pend := some p.2 } ∧ e.f Fld.PWR_STATE_TARGET = p.2.code ∧ e.f Fld.PWR_STATE_BUSY = 1
        ∧ e.cur = s.dev.cur ∧ (∀ x, e.domStat x = s.dev.domStat x) ∧ e.units = s.dev.units)
  ∧ (∀ (s : State) (r : Requester), s.dev.writable r .pwr = true → s.dev.running = true → s.dev.pwr.entry = none →
    ∀ p ∈ [(Instr.cmdSleep r, PState.sleep), (.cmdDeep r, .deep), (.cmdOff r, .off), (.cmdWatch r, .watch)],
    ∀ (reason dom : Nat),
      ((s.dev.pwr.pend.isSome = true ∨ s.dev.pwr.waking.isSome = true ∨ s.dev.pwr.bias.isSome = true ∨ s.dev.pwr.cold ≠ .no) ∧ reason = 1 ∧ dom = 0)
      ∨ (s.dev.pwr.pend = none ∧ s.dev.pwr.waking = none ∧ s.dev.pwr.bias = none ∧ s.dev.pwr.cold = .no ∧ reason = 2
          ∧ ∃ x : Dom, dom = x.num ∧ p.2.allows x = false ∧ s.dev.slots x &&& 0xFF07 ≠ 0
            ∧ ∀ y : Dom, y.num < x.num → p.2.allows y = true ∨ s.dev.slots y &&& 0xFF07 = 0)
      ∨ (s.dev.pwr.pend = none ∧ s.dev.pwr.waking = none ∧ s.dev.pwr.bias = none ∧ s.dev.pwr.cold = .no ∧ reason = 3 ∧ dom = 0
          ∧ (∀ x : Dom, p.2.allows x = false → s.dev.slots x &&& 0xFF07 = 0)
          ∧ s.dev.on Fld.PWR_SUPPLY_PFW = true ∧ p.2 ≠ .off) →
      Effects p.1 s fun e =>
        e.f Fld.PWR_STATE_REASON = reason ∧ e.f Fld.PWR_STATE_REJ_DOM = dom ∧ Ev.PWR_CMD_REJ ∈ e.edges
        ∧ e.cur = s.dev.cur ∧ e.pwr = s.dev.pwr ∧ (∀ x, e.slots x = s.dev.slots x) ∧ e.units = s.dev.units)

/-- Drops, power-ups and the body bias. DOMAIN_DROP_START begins the drop of the next domain that is on and not
needed, with its quiesce (SEQ shows the domain and step 1). DROP_DECISION on a drop whose quiesce has ended, with
nothing arriving and nothing needing the domain, isolates the domain (DOM_STAT 2, step 3), the balls of its signals at
the clamps of R360. A vote for that domain arriving from a requester that reaches PWR in the decision clock undoes the
drop, sets STATE.AT_LIMIT and raises DROP_ABORTED. DOMAIN_OFF of a decided drop, outside an entry and at a RUN point,
leaves the domain off or retained, counts the drop and raises DOM_DOWN. POWER_UP_ITEM_DONE of the domain among APP,
SHA, SHB, UFA, UFD and PER whose power-up has begun (or is the next to begin, with no sequence running), with the buck
ready, has the domain on, ends the sequence and raises DOM_UP. BIAS_CHANGE_DONE reaches the RUN point it leads to,
ends the request and raises STATE_CHG and CLK_SW. WAKE_HOLD_END with no wake under way clears slot 5 of every domain
and no other slot. UNLOCK of a PLL that is locked has CLK.UNLOCK pending. (rests on R345, R346, R347, R356, R359,
R360, R361, R362, R363) -/
def Obligations.DropsAndPowerUps : Prop :=
  ((∀ (s : State) (x : Dom), s.dev.nextDown = some x →
    Effects .domainDropStart s fun e =>
      e.pwr.drop = some { dom := x, ret := s.dev.rd Reg.PWR_RET_CFG } ∧ e.f Fld.PWR_SEQ_DOM = x.num ∧ e.f Fld.PWR_SEQ_STEP = 1
      ∧ e.domStat x = 3)
  ∧ (∀ (s : State) (q : DropSeq), q.dom ≠ .aon → s.dev.pwr.drop = some q → q.decided = false →
    s.dev.dropReady q.dom = true → s.dev.wanted q.dom = false →
    Effects (.dropDecision none) s fun e =>
      e.pwr.drop = some { q with decided := true } ∧ e.domStat q.dom = 2 ∧ e.f Fld.PWR_SEQ_STEP = 3
      ∧ (q.dom = .lgl → ∀ k, e.enaBall k = false) ∧ (q.dom = .ufd → ∀ k, e.hotBall k = true)
      ∧ (q.dom = .met → ∀ m, e.plsBall m = e.on (Fld.PULSE_PLS_CFG_ACT_LOW m))
      ∧ (q.dom = .ufa → (∀ i c, e.ufeBall i c = .ground) ∧ (∀ x, e.extDrvBall x = false) ∧ e.rtdExcited = false)
      ∧ (q.dom = .per → (∀ n clk, e.lampSink n clk = 0) ∧ (∀ l c, e.segLit l c = false) ∧ e.hostIrqN = true
          ∧ e.dpmBusy = true ∧ e.mspiCsN = true ∧ e.uartSends = none))
  ∧ (∀ (s : State) (v : VoteWrite) (q : DropSeq), v.dom ≠ .aon → s.dev.pwr.drop = some q → q.dom = v.dom → q.decided = false →
    s.dev.dropReady v.dom = true → s.dev.pwr.entry = none → s.dev.running = true → s.dev.writable v.req .pwr = true →
    v.slots.toNat &&& v.req.slotMask ≠ 0 →
    Effects (.dropDecision (some (.vote v))) s fun e =>
      e.pwr.drop = none ∧ e.f Fld.PWR_STATE_AT_LIMIT = 1 ∧ Ev.PWR_DROP_ABORTED ∈ e.edges
      ∧ e.domStat v.dom = s.dev.domStat v.dom)
  ∧ ∀ (s : State) (q : DropSeq) (x : Dom), x ≠ .aon → s.dev.pwr.drop = some q → q.dom = x → q.decided = true →
    s.dev.pwr.entry = none → s.dev.running = true →
    Effects .domainOff s fun e =>
      e.pwr.drop = none ∧ e.domStat x ≤ 1 ∧ (∀ y, y ≠ x → y ≠ .aon → e.domStat y = s.dev.domStat y)
      ∧ Ev.PWR_DOM_DOWN ∈ e.edges
      ∧ e.f (Fld.PWR_DOM_CNT_DROPS x.num) = min (s.dev.f (Fld.PWR_DOM_CNT_DROPS x.num) + 1) (2 ^ 16 - 1))
  ∧ ((∀ (s : State) (x : Dom), x ∈ [Dom.app, .sha, .shb, .ufa, .ufd, .per] →
    s.dev.pwr.up = some x ∨ (s.dev.seqRuns = false ∧ s.dev.nextUp = some x) → s.dev.buckReady = true →
    (∀ p ∈ s.dev.watch.img, p.1 ≠ Reg.PWR_DOM_STAT) →
    Effects (.powerUpItemDone (.dom x)) s fun e => e.domStat x = 3 ∧ e.pwr.up = none ∧ Ev.PWR_DOM_UP ∈ e.edges)
  ∧ (∀ (s : State) (t : PState), s.dev.pwr.bias = some t →
    Effects .biasChangeDone s fun e =>
      e.cur = t ∧ e.pwr.bias = none ∧ e.f Fld.PWR_STATE_TARGET = 0 ∧ e.f Fld.PWR_STATE_BUSY = 0
      ∧ Ev.PWR_STATE_CHG ∈ e.edges ∧ Ev.CLK_CLK_SW ∈ e.edges ∧ e.units = s.dev.units)
  ∧ (∀ s : State, s.dev.pwr.waking = none →
    Effects .wakeHoldEnd s fun e =>
      (∀ x k, k < 16 → bit (e.slots x) k = (bit (s.dev.slots x) k && k != 5)) ∧ e.units = s.dev.units)
  ∧ ∀ (s : State) (medium : Bool), s.dev.calm = true → s.dev.domOn .sys = true →
    (if medium then s.dev.pwr.pllM else s.dev.pwr.pllS) = true →
    Yields (.unlock medium) s fun e => e.pends Ev.CLK_UNLOCK = true ∧ s.dev.keeps e [] ∧ e.units = s.dev.units)

/-- Supplies and wake sources. PFW sets SUPPLY.PFW and PFW_LATCH and has PFW pending, the outlets, pulses, drive
enable and lamps clamped. PFW_CLR with PFW set clears it and has PFW_CLR pending, the latch unchanged. PFW_LATCH_CLEAR
by the legal side clears the latch where PFW is 0 and is not performed where it is 1. BROWN_OUT has every domain but
AON off with no vote left, SAVE_STAT.VALID 0 and a cold start due. VBAT_SWITCH and VDD_RETURN set and clear
SUPPLY.VBAT_ACTIVE and have VBAT_SW pending. WAKE_PIN_ACCEPT takes the WAKE ball as active when its level equals
PIN_CFG.POL; at a RUN point nothing else follows, but that the wake record of the same LFXO period may gain the
source; in SLEEP, with the source enabled and nothing else under way, that requests a wake: WAKE_PEND gains bit 0,
WAKE_SRC names source 1 from state 4 and the return to RUN_NORMAL begins. I2C_ADDRESS_MATCH in SLEEP while PER is off,
with I2CT and the source enabled and the address matching (no general call, no 10-bit address), holds a wake stretch
and requests a wake with source 4. I2C_TO on a held stretch ends it; unless I2CT reports itself running, TO_CNT counts
it and I2C_TO is raised, else AT_LIMIT is. (rests on R354, R364, R365, R366, R368, R369, R371, R374, R408) -/
def Obligations.SuppliesAndWakeSources : Prop :=
  ((∀ s : State, s.dev.calm = true → s.dev.on Fld.PWR_SUPPLY_PFW = false →
    Yields .pfw s fun e =>
      e.f Fld.PWR_SUPPLY_PFW = 1 ∧ e.f Fld.PWR_SUPPLY_PFW_LATCH = 1 ∧ e.pends Ev.PWR_PFW = true
      ∧ (∀ k, e.enaBall k = false ∧ e.hotBall k = true ∧ e.plsBall k = e.on (Fld.PULSE_PLS_CFG_ACT_LOW k))
      ∧ (∀ x, e.extDrvBall x = false) ∧ (∀ n clk, e.lampSink n clk = 0)
      ∧ s.dev.keeps e [Reg.PWR_SUPPLY] ∧ e.units = s.dev.units)
  ∧ (∀ s : State, s.dev.calm = true → s.dev.on Fld.PWR_SUPPLY_PFW = true →
    Yields .pfwClr s fun e =>
      e.f Fld.PWR_SUPPLY_PFW = 0 ∧ e.f Fld.PWR_SUPPLY_PFW_LATCH = s.dev.f Fld.PWR_SUPPLY_PFW_LATCH
      ∧ e.pends Ev.PWR_PFW_CLR = true ∧ s.dev.keeps e [Reg.PWR_SUPPLY] ∧ e.units = s.dev.units)
  ∧ (∀ (s : State) (r : Requester), s.dev.calm = true → s.dev.writable r .pwr = true → r.legal = true →
    Yields (.pfwLatchClear r) s fun e =>
      e.f Fld.PWR_SUPPLY_PFW_LATCH = (if s.dev.f Fld.PWR_SUPPLY_PFW = 0 then 0 else s.dev.f Fld.PWR_SUPPLY_PFW_LATCH)
      ∧ e.f Fld.PWR_SUPPLY_PFW = s.dev.f Fld.PWR_SUPPLY_PFW ∧ s.dev.keeps e [Reg.PWR_SUPPLY] ∧ e.units = s.dev.units)
  ∧ (∀ s : State, Effects .brownOut s fun e =>
      (∀ x, x ≠ .aon → e.domStat x = 0 ∧ e.slots x = 0) ∧ e.f Fld.PWR_SAVE_STAT_VALID = 0 ∧ e.pwr.cold = .due)
  ∧ (∀ (s : State) (mv : Nat), s.dev.calm = true → s.dev.on Fld.PWR_SUPPLY_VBAT_ACTIVE = false →
    Yields (.vbatSwitch mv) s fun e => e.f Fld.PWR_SUPPLY_VBAT_ACTIVE = 1 ∧ e.pends Ev.PWR_VBAT_SW = true)
  ∧ ∀ s : State, s.dev.calm = true → s.dev.on Fld.PWR_SUPPLY_VBAT_ACTIVE = true →
    Yields .vddReturn s fun e =>
      e.f Fld.PWR_SUPPLY_VBAT_ACTIVE = 0 ∧ e.pends Ev.PWR_VBAT_SW = true ∧ s.dev.keeps e [Reg.PWR_SUPPLY]
      ∧ e.units = s.dev.units)
  ∧ ((∀ (s : State) (level : Bool), s.dev.running = true → s.dev.pwr.entry = none → s.dev.pwr.waking = none →
    s.dev.pwr.cold = .no →
    Effects (.wakePinAccept level) s fun e =>
      e.pwr = { s.dev.pwr with pin := b2n level == s.dev.f Fld.ROOSTER_PIN_CFG_POL }
      ∧ (∀ a, a ≠ Reg.ROOSTER_WAKE_PEND → a ≠ Reg.ROOSTER_WAKE_SRC → e.rd a = s.dev.rd a)
      ∧ (s.dev.pwr.wakeAt = none → e.regs = s.dev.regs) ∧ e.units = s.dev.units)
  ∧ (∀ (s : State) (level : Bool), s.dev.cur = .sleep → s.dev.pwr.entry = none → s.dev.pwr.waking = none →
    s.dev.pwr.cold = .no → s.dev.pwr.wakeOpen = false → b2n level = s.dev.f Fld.ROOSTER_PIN_CFG_POL → bit (s.dev.f Fld.ROOSTER_SRC_EN_EN) 0 = true →
    Effects (.wakePinAccept level) s fun e =>
      e.pwr.pin = true ∧ e.pwr.waking = some true ∧ bit (e.rd Reg.ROOSTER_WAKE_PEND) 0 = true
      ∧ e.f Fld.ROOSTER_WAKE_SRC_SRC = 1 ∧ e.f Fld.ROOSTER_WAKE_SRC_FROM = 4)
  ∧ (∀ (s : State) (a : BitVec 7), s.dev.cur = .sleep → s.dev.pwr.entry = none → s.dev.pwr.waking = none →
    s.dev.pwr.cold = .no → s.dev.pwr.wakeOpen = false → s.dev.domStat .per < 3 → bit (s.dev.f Fld.ROOSTER_SRC_EN_EN) 3 = true →
    s.dev.on Fld.I2CT_ADDR_EN = true → a.toNat = s.dev.f Fld.I2CT_ADDR_ADDR → a ≠ 0 → a.toNat / 4 ≠ 0x1E →
    s.dev.on Fld.ROOSTER_I2C_CFG_NACK_WAKE = false →
    Effects (.i2cAddressMatch a) s fun e =>
      e.pwr.stretch = true ∧ e.pwr.waking = some true ∧ bit (e.rd Reg.ROOSTER_WAKE_PEND) 3 = true
      ∧ e.f Fld.ROOSTER_WAKE_SRC_SRC = 4 ∧ e.f Fld.ROOSTER_WAKE_SRC_FROM = 4)
  ∧ ∀ (s : State) (running : Bool) (n : Nat), s.dev.pwr.stretch = true →
    Effects (.i2cTo running n) s fun e =>
      e.pwr = { s.dev.pwr with stretch := false }
      ∧ e.f Fld.ROOSTER_I2C_STAT_TO_CNT
          = (if running then s.dev.f Fld.ROOSTER_I2C_STAT_TO_CNT
             else min (s.dev.f Fld.ROOSTER_I2C_STAT_TO_CNT + 1) (2 ^ 16 - 1))
      ∧ (if running then Ev.ROOSTER_AT_LIMIT else Ev.ROOSTER_I2C_TO) ∈ e.edges
      ∧ (∀ a, a ≠ Reg.ROOSTER_I2C_STAT → e.rd a = s.dev.rd a) ∧ e.units = s.dev.units)

/-- The checks of WATCH. In WATCH with no check, entry or wake under way, WATCH_CHECK_START skips the check (SKIP_CNT
counts it, SKIPPED is raised) where WATCH is not enabled, its image is not valid, or the supply fails or is VBAT;
otherwise a check begins (STAT.CHECKING). WATCH_JUDGE of a check whose pair and conversion are done ends it, counts it
in CHK_CNT and raises CHECK_DONE. WATCH_CAPTURE by a requester that may write WATCH, with UFA and UFD on copies the
registers of the image that CTRL names, but for their RWU fields, and sets IMG_VALID. (rests on R375, R376, R378,
R379) -/
def Obligations.WatchChecks : Prop :=
  (∀ s : State, s.dev.cur = .watch → s.dev.watch.checking = false → s.dev.pwr.entry = none → s.dev.pwr.waking = none →
    ((s.dev.on Fld.WATCH_CTRL_EN = false ∨ s.dev.on Fld.WATCH_STAT_IMG_VALID = false
        ∨ s.dev.on Fld.PWR_SUPPLY_PFW = true ∨ s.dev.on Fld.PWR_SUPPLY_VBAT_ACTIVE = true) →
      Effects .watchCheckStart s fun e =>
        e.rd Reg.WATCH_SKIP_CNT = min (s.dev.rd Reg.WATCH_SKIP_CNT + 1) (2 ^ 32 - 1) ∧ Ev.WATCH_SKIPPED ∈ e.edges
        ∧ e.watch.checking = false ∧ (∀ a, a ≠ Reg.WATCH_SKIP_CNT → e.rd a = s.dev.rd a) ∧ e.units = s.dev.units)
    ∧ (s.dev.on Fld.WATCH_CTRL_EN = true → s.dev.on Fld.WATCH_STAT_IMG_VALID = true →
      s.dev.on Fld.PWR_SUPPLY_PFW = false → s.dev.on Fld.PWR_SUPPLY_VBAT_ACTIVE = false →
      (∀ p ∈ s.dev.watch.img, p.1 ≠ Reg.WATCH_STAT) →
      Effects .watchCheckStart s fun e => e.watch.checking = true ∧ e.f Fld.WATCH_STAT_CHECKING = 1))
  ∧ (∀ s : State, s.dev.watch.checking = true → s.dev.watch.started = true → s.dev.ufe.pair = none → s.dev.rtd.conv = none →
    Effects .watchJudge s fun e =>
      e.watch.checking = false ∧ e.f Fld.WATCH_STAT_CHECKING = 0
      ∧ e.rd Reg.WATCH_CHK_CNT = (s.dev.rd Reg.WATCH_CHK_CNT + 1) % 2 ^ 32 ∧ Ev.WATCH_CHECK_DONE ∈ e.edges)
  ∧ ∀ (s : State) (r : Requester), s.dev.writable r .watch = true → s.dev.domOn .ufa = true → s.dev.domOn .ufd = true →
    Effects (.watchCapture r) s fun e =>
      e.watch.img = (imageRegs (s.dev.f Fld.WATCH_CTRL_PATH) (s.dev.f Fld.WATCH_CTRL_SET) (s.dev.f Fld.WATCH_CTRL_RTD_CH)).map
        (fun a => (a, BitVec.ofNat 32 (s.dev.rd a - (s.dev.rd a &&& rwuMask a))))
      ∧ e.f Fld.WATCH_STAT_IMG_VALID = 1 ∧ Ev.WATCH_CAPTURED ∈ e.edges ∧ e.units = s.dev.units

/-- Resets and the cold start. POR leaves RST_CAUSE 0x01 and every other register of the map at its reset value, AON
alone on; fuses, flash and the FRAM keep what they hold. RST_N sets RST_CAUSE bit 3, SWRST by the legal side with key
0xC724 bit 4; each has every domain but AON off, no vote left and a cold start due. COLD_START, due and with VDD
supplied, leaves exactly LGL and PER voted for, by slot 0, and the power-up under way. (rests on R345, R407, R408) -/
def Obligations.ResetsAndColdStart : Prop :=
  (∀ s : State, Effects .por s fun e =>
    e.rd Reg.SYSCTL_RST_CAUSE = 1 ∧ (∀ a, a ≠ Reg.SYSCTL_RST_CAUSE → e.rd a = (regReset a).toNat)
    ∧ (∀ x, e.domOn x = (x == .aon)) ∧ e.pwr.cold = .due
    ∧ e.otp = s.dev.otp ∧ e.mem.lfl = s.dev.mem.lfl ∧ e.mem.afl = s.dev.mem.afl ∧ e.mem.fram = s.dev.mem.fram)
  ∧ (∀ s : State, Effects .rstN s fun e =>
    bit (e.rd Reg.SYSCTL_RST_CAUSE) 3 = true ∧ (∀ x, x ≠ .aon → e.domStat x = 0 ∧ e.slots x = 0) ∧ e.pwr.cold = .due)
  ∧ (∀ (s : State) (r : Requester), s.dev.writable r .sysctl = true → r.legal = true →
    Effects (.swrst r 0xC724) s fun e =>
      bit (e.rd Reg.SYSCTL_RST_CAUSE) 4 = true ∧ (∀ x, x ≠ .aon → e.domStat x = 0 ∧ e.slots x = 0) ∧ e.pwr.cold = .due)
  ∧ ∀ s : State, s.dev.pwr.cold = .due → s.dev.on Fld.PWR_SUPPLY_VBAT_ACTIVE = false →
    Effects .coldStart s fun e =>
      e.pwr.cold = .rising ∧ e.slots .lgl = 1 ∧ e.slots .per = 1 ∧ (∀ x, x ≠ .lgl → x ≠ .per → e.slots x = 0)

/-- Sample ticks and cycle starts. With the MAE running, no slew, no event unsettled, no evaluation of HERD
outstanding and no reference lost on the way: SAMPLE_TICK k, where k is the next tick, stops the accumulator in the
first modulator clock in which the angle has reached k x 256, hands the converter tick k of the present cycle, and
leaves an evaluation of HERD due where HERD runs. CYCLE_START with all ticks of the cycle emitted carries out of the
accumulator: the cycle count goes up by one, the next tick is 0, and where the count wraps to 0, CYC_HI goes up by one
and CYC_WRAP is raised. (rests on R32, R34, R36, R69) -/
def Obligations.SampleTicksAndCycleStarts : Prop :=
  (∀ (s : State) (k : Fin 256), s.dev.mae.running = true → s.dev.mae.slew = 0 → s.dev.herd.evalDue = false →
    s.dev.settled = true → s.dev.mae.splices = [] → s.dev.lossWithin none (s.dev.clksFor s.dev.toBoundary) = none →
    s.dev.domOn .met = true → s.dev.mae.nextTick = k.val → s.dev.mae.acc ≤ k.val * 2 ^ 32 → 0 < s.dev.rd Reg.MAE_INC →
    Effects (.sampleTick k) s fun e =>
      e.mae.nextTick = k.val + 1 ∧ k.val * 2 ^ 32 ≤ e.mae.acc
      ∧ (s.dev.mae.acc < k.val * 2 ^ 32 → e.mae.acc < k.val * 2 ^ 32 + s.dev.rd Reg.MAE_INC)
      ∧ e.mae.cyc = s.dev.mae.cyc
      ∧ (∃ t : TickIn, e.fe.ticks = s.dev.fe.ticks ++ [t] ∧ t.cyc = s.dev.mae.cyc ∧ t.tick = k.val ∧ t.clk = e.mae.modClk)
      ∧ e.herd = { s.dev.herd with evalDue := s.dev.herdRuns } ∧ e.regs = s.dev.regs)
  ∧ ∀ (s : State) (t : Int), s.dev.calm = true → s.dev.mae.running = true → s.dev.mae.slew = 0 →
    s.dev.settled = true → s.dev.mae.splices = [] → s.dev.lossWithin none (s.dev.clksFor s.dev.toBoundary) = none →
    s.dev.herd.evalDue = false → s.dev.mae.nextTick = 256 → s.dev.mae.acc < 2 ^ 40 → 0 < s.dev.rd Reg.MAE_INC →
    s.dev.domOn .met = true →
    Yields (.cycleStart t) s fun e =>
      e.mae.cyc = s.dev.mae.cyc + 1 ∧ e.mae.nextTick = 0 ∧ e.mae.acc < s.dev.rd Reg.MAE_INC
      ∧ e.rd Reg.MAE_CYC_HI = (if s.dev.mae.cyc = 0xFFFFFFFF then (s.dev.rd Reg.MAE_CYC_HI + 1) % 65536
          else s.dev.rd Reg.MAE_CYC_HI)
      ∧ (s.dev.mae.cyc = 0xFFFFFFFF → e.pends Ev.MAE_CYC_WRAP = true)
      ∧ e.f Fld.MET_CAL_DIE_T_T = unsgn 16 t

/-- Zero crossings of the followed reference in LOCKED. With the MAE in LOCKED following reference n, no slew in
force, no time passing and no reference to be lost in this clock: a crossing whose interval stands for 42 to 68 Hz,
whose RMS over its last sample words (log entry 127) is at least VREF.MIN, and whose phase error lies within CROSS_WIN
and SLEW_LIMIT is accepted: PHASE_ERR takes the error (log entry 12: as a 16-bit number), the crossing becomes the
previous one, FREQ takes the mean of the last intervals that FREQ_AVG names, the state stays LOCKED and the phase is
slewed. One that lies outside CROSS_WIN, or whose RMS is below VREF.MIN, is refused: no previous crossing, FREQ,
PHASE_ERR and the state unchanged. (rests on R37, R42, R45, R47) -/
def Obligations.CrossingsInLocked : Prop :=
  ∀ (s : State) (n : Fin 3) (t : Elapse) (l : Nat) (err : Int), s.dev.calm = true → s.dev.mae.running = true → s.dev.mae.slew = 0 →
    s.dev.herd.evalDue = false → s.dev.mae.splices = [] → t.clks = 0 → s.dev.lossWithin none 0 = none → s.dev.mae.acc < 2 ^ 40 → 0 < s.dev.rd Reg.MAE_INC → s.dev.maeState = 2 →
    s.dev.f Fld.MAE_STATUS_REF_ACT = n.val → (s.dev.det n.val).last = some l → l < s.dev.mae.modClk →
    42 * (s.dev.mae.modClk - l) ≤ 4096000 → 4096000 ≤ 68 * (s.dev.mae.modClk - l) →
    err = wrapAu ((s.dev.expected n.val : Int) - (s.dev.mae.acc / 2 ^ 24 : Nat)) →
    (s.dev.refOver n.val (s.dev.f Fld.MAE_VREF_MIN) = true → err.natAbs ≤ s.dev.mae.crossWin → err.natAbs ≤ s.dev.slewLimit →
      Yields (.zeroCrossing n t 0) s fun e =>
        e.rd Reg.MAE_PHASE_ERR = unsgn 16 err ∧ (e.det n.val).last = some s.dev.mae.modClk
        ∧ e.rd Reg.MAE_FREQ
            = freqOf ((((s.dev.mae.modClk - l) :: (s.dev.det n.val).ivals).take 8).take (2 ^ s.dev.f Fld.MAE_CTRL_FREQ_AVG)) % 2 ^ 32
        ∧ e.maeState = 2 ∧ e.mae.slew = slewFor (e.rd Reg.MAE_INC) err ∧ e.mae.cyc = s.dev.mae.cyc)
    ∧ (s.dev.refOver n.val (s.dev.f Fld.MAE_VREF_MIN) = false ∨ s.dev.mae.crossWin < err.natAbs →
      Yields (.zeroCrossing n t 0) s fun e =>
        (e.det n.val).last = none ∧ (e.det n.val).run = 0 ∧ e.mae.acc = s.dev.mae.acc ∧ e.mae.cyc = s.dev.mae.cyc
        ∧ s.dev.keeps e [])

/-- Loss of a reference, the end of COAST, captures and NOW. With the MAE running in LOCKED or ACQUIRE on reference n
under a fixed REF_SEL, and no other reference lost on the way: REF_LOST of n, at once where its span has run out, or
at the end of the cycle where its RMS is below VREF.MIN and no reference setting has changed, leaves the MAE in COAST:
STATUS.COAST_LEFT is COAST_MAX (at least 1), COAST_CNT counts, n is not valid and REF_LOST is pending. Where the span
of n has not run out in this clock, nothing is lost by it. COAST_EXPIRED in the last cycle of COAST, with no changed
reference setting waiting, leaves the MAE in SYNTH at the next cycle with FREQ at the synthetic frequency that
SYNTH_FREQ names. CAP_REARM by a requester that may write MAE clears CAP_ANG_n.FULL and changes no other register
before the follow-up work; an edge of the selected event in the same clock is raised for that work to record. NOW_READ
answers the angle in bits 15:0 and the low 16 bits of the cycle count in bits 31:16 at the time of the read, and
captures the whole count for its reader and for no other. (rests on R12, R42, R43, R44, R55, R56) -/
def Obligations.LossCoastCaptureNow : Prop :=
  ((∀ (s : State) (n : Fin 3) (t : Elapse) (why : LossCause), s.dev.calm = true → s.dev.mae.running = true →
    s.dev.mae.slew = 0 → s.dev.settled = true → s.dev.herd.evalDue = false → s.dev.mae.splices = [] → t.clks = 0 →
    s.dev.mae.acc < 2 ^ 40 → 0 < s.dev.rd Reg.MAE_INC → s.dev.following = true →
    s.dev.f Fld.MAE_STATUS_REF_ACT = n.val → s.dev.mae.refSel ≠ 3 → s.dev.domOn .met = true →
    (why = .span → s.dev.lossDist n.val = some 0 ∧ s.dev.lossWithin (some n) 0 = none) →
    (why = .rms → s.dev.refOver n.val (s.dev.f Fld.MAE_VREF_MIN) = false ∧ s.dev.mae.nextTick = 256
      ∧ s.dev.lossWithin none (s.dev.clksFor s.dev.toBoundary) = none
      ∧ s.dev.mae.refSel = s.dev.f Fld.MAE_CTRL_REF_SEL ∧ s.dev.mae.zcOfs = s.dev.f Fld.MAE_ZC_CFG_ZC_OFFSET
      ∧ s.dev.mae.refOfs
          = #v[s.dev.f (Fld.MAE_REF_OFS_OFS 0), s.dev.f (Fld.MAE_REF_OFS_OFS 1), s.dev.f (Fld.MAE_REF_OFS_OFS 2)]) →
    Yields (.refLost n t why) s fun e =>
      e.maeState = 3 ∧ e.f Fld.MAE_STATUS_COAST_LEFT = max 1 (s.dev.f Fld.MAE_COAST_MAX_COAST_MAX)
      ∧ e.rd Reg.MAE_COAST_CNT = min (s.dev.rd Reg.MAE_COAST_CNT + 1) (2 ^ 32 - 1)
      ∧ (e.det n.val).valid = false ∧ (e.det n.val).last = none ∧ e.pends Ev.MAE_REF_LOST = true
      ∧ e.mae.coastFreq = s.dev.rd Reg.MAE_FREQ)
  ∧ (∀ (s : State) (n : Fin 3) (t : Elapse), s.dev.calm = true → s.dev.mae.running = true → s.dev.mae.slew = 0 →
    t.clks = 0 → s.dev.mae.acc < 2 ^ 40 → 0 < s.dev.rd Reg.MAE_INC → s.dev.lossWithin none 0 = none →
    Yields (.refLost n t .span) s fun e =>
      e.maeState = s.dev.maeState ∧ e.mae.det = s.dev.mae.det ∧ e.mae.acc = s.dev.mae.acc ∧ s.dev.keeps e [])
  ∧ ∀ (s : State) (t : Int), s.dev.calm = true → s.dev.mae.running = true → s.dev.mae.slew = 0 →
    s.dev.settled = true → s.dev.mae.splices = [] → s.dev.lossWithin none (s.dev.clksFor s.dev.toBoundary) = none →
    s.dev.herd.evalDue = false → s.dev.mae.nextTick = 256 → s.dev.mae.acc < 2 ^ 40 → 0 < s.dev.rd Reg.MAE_INC →
    s.dev.domOn .met = true → s.dev.maeState = 3 → s.dev.f Fld.MAE_STATUS_COAST_LEFT = 1 →
    s.dev.mae.refSel = s.dev.f Fld.MAE_CTRL_REF_SEL → s.dev.mae.zcOfs = s.dev.f Fld.MAE_ZC_CFG_ZC_OFFSET →
    s.dev.mae.refOfs = #v[s.dev.f (Fld.MAE_REF_OFS_OFS 0), s.dev.f (Fld.MAE_REF_OFS_OFS 1), s.dev.f (Fld.MAE_REF_OFS_OFS 2)] →
    Yields (.coastExpired t) s fun e =>
      e.maeState = 4 ∧ e.mae.cyc = s.dev.mae.cyc + 1
      ∧ e.rd Reg.MAE_FREQ = (match s.dev.f Fld.MAE_CTRL_SYNTH_FREQ with
          | 0 => 50 * 65536
          | 1 => 60 * 65536
          | _ => if s.dev.mae.coastFreq ≤ 55 * 65536 then 50 * 65536 else 60 * 65536))
  ∧ ((∀ (s : State) (r : Requester) (n : Fin 4) (now : Bool), s.dev.writable r .mae = true →
    Effects (.capRearm r n now) s fun e =>
      e.f (Fld.MAE_CAP_ANG_FULL n.val) = 0 ∧ (∀ a, a ≠ Reg.MAE_CAP_ANG n.val → e.rd a = s.dev.rd a)
      ∧ e.f (Fld.MAE_CAP_ANG_OVR n.val) = s.dev.f (Fld.MAE_CAP_ANG_OVR n.val)
      ∧ e.f (Fld.MAE_CAP_ANG_ANG n.val) = s.dev.f (Fld.MAE_CAP_ANG_ANG n.val)
      ∧ (now = true → eventExists (s.dev.f (Fld.MAE_CAP_SEL_EVT n.val)) = true →
          s.dev.f (Fld.MAE_CAP_SEL_EVT n.val) ∈ e.edges)
      ∧ (now = false → e.edges = s.dev.edges) ∧ e.units = s.dev.units)
  ∧ ∀ (s : State) (r : Requester) (t : Elapse), ((s.dev.answer .none).pass t).opens r .mae = true →
    Effects (.nowRead r t) s fun e =>
      e.bus = .data (BitVec.ofNat 32 (e.mae.angle + e.mae.cyc.toNat % 65536 * 65536)) ∧ (e.cap r).nowCyc = e.mae.cyc
      ∧ ∀ q : Requester, q.capture ≠ r.capture →
          e.cap q = ((s.dev.answer .none).pass t).cap q)

/-- Writes of task descriptors arm and disarm. A word write of bytes 4-7 of task i's descriptor by a requester that
may write it completes and stores the word. With EN = 0 the task ends disarmed, and a task that was armed is withdrawn
without a report. With EN = 1 an armed task is left as it is; an unarmed one is armed exactly where PERIOD is not 0,
UNIT is 1-7, NCTX is not 3 and an application task names no context, no SAVE_EPOCH and no event outside its pages, and
is else left unarmed with DESC_ERR raised and counted. Where evaluations run, the first due time lies after the
present tick, at TICK, in a cycle c with c mod PERIOD = PHASE mod PERIOD, and no earlier cycle qualifies. Other tasks
do not change. The application side writes no descriptor of the legal partition: bus error and PART_VIOL. (rests on
R59, R61, R62, R63, R64) -/
def Obligations.TaskDescriptorWrites : Prop :=
  ∀ (s : State) (r : Requester) (i : Fin 1024) (data : Word),
    s.dev.admits r (.sram 21 (4 * i.val + 1)) true = true → s.dev.clearing = false →
    ((r.legal = true ∨ s.dev.legalTask i.val = false) →
      (Effects (.taskDescriptorWrite r (16 * i.val + 4) data .word) s fun e =>
        e.codeword 21 (4 * i.val + 1) = encodeWord 21 (4 * i.val + 1) data.toNat ∧ e.bus = .done
        ∧ (∀ j, j ≠ i.val → e.task j = s.dev.task j)
        ∧ (bit data.toNat 23 = false → (e.task i.val).armed = false ∧ e.edges = s.dev.edges
          ∧ ((s.dev.task i.val).armed = true → (e.task i.val).open = false ∧ (e.task i.val).due = none))
        ∧ (bit data.toNat 23 = true → (s.dev.task i.val).armed = true → e.task i.val = s.dev.task i.val ∧ e.edges = s.dev.edges))
      ∧ ∀ x : Desc, bit data.toNat 23 = true → (s.dev.task i.val).armed = false →
        (s.dev.putCode 21 (4 * i.val + 1) (encodeWord 21 (4 * i.val + 1) data.toNat)).peekDesc i.val = some x →
        let may := x.period ≠ 0 ∧ 1 ≤ x.unit ∧ x.unit ≤ 7 ∧ x.nctx ≠ 3 ∧ (s.dev.legalTask i.val = false →
          x.nctx = 0 ∧ x.unit ≠ 4 ∧ (x.unit = 6 → appEvent (bits x.arg 0 9) = true))
        Effects (.taskDescriptorWrite r (16 * i.val + 4) data .word) s fun e =>
          (may → (e.task i.val).armed = true ∧ (e.task i.val).open = false
            ∧ e.rd Reg.HERD_DESC_ERR_CNT = s.dev.rd Reg.HERD_DESC_ERR_CNT
            ∧ (¬(s.dev.mae.running = true ∧ s.dev.on Fld.HERD_CTRL_EN = true) → (e.task i.val).due = none)
            ∧ (s.dev.mae.running = true → s.dev.on Fld.HERD_CTRL_EN = true → ∃ c : Word,
                (e.task i.val).due = some (c, x.tick) ∧ c.toNat % x.period = x.phase % x.period
                ∧ (s.dev.mae.tick * 256 : Nat) < auFrom s.dev.mae.cyc c x.tick
                ∧ ∀ n : Nat, (n : Int) < cycDiff c s.dev.mae.cyc → s.dev.mae.tick * 256 < n * 65536 + x.tick * 256 →
                    (s.dev.mae.cyc + BitVec.ofNat 32 n).toNat % x.period ≠ x.phase % x.period))
          ∧ (¬ may → e.task i.val = s.dev.task i.val ∧ Ev.HERD_DESC_ERR ∈ e.edges
            ∧ e.rd Reg.HERD_DESC_ERR_CNT = satInc 32 (s.dev.rd Reg.HERD_DESC_ERR_CNT)))
    ∧ (r.legal = false → s.dev.legalTask i.val = true →
      Effects (.taskDescriptorWrite r (16 * i.val + 4) data .word) s fun e =>
        e.bus = .error ∧ Ev.HERD_PART_VIOL ∈ e.edges ∧ e.mem = s.dev.mem ∧ e.herd = s.dev.herd)

/-- A task falls due and is accepted in the same evaluation. In the evaluation of tick k of a cycle, with one task in
HERD's store, armed and due at this cycle and tick, with nothing waiting, a PERIOD of at least 1, no contexts, and
EVT_RAISE as its unit with the page of its event on: the occurrence is accepted at once. The event is raised if it
exists, DISP_CNT goes up by one, the next due time is PERIOD cycles later at TICK (none where ONESHOT clears EN, and
then the task is disarmed), nothing waits, ROT of its priority becomes the task's number plus 1 mod 1,024, and the
unit is free again. While no evaluation is due the command changes nothing. (rests on R63, R66, R68, R69, R73, R453)
-/
def Obligations.TaskFallsDueAndIsAccepted : Prop :=
  (∀ (s : State) (t : HTask) (x : Desc), s.dev.herdRuns = true → s.dev.herd.evalDue = true → s.dev.herd.resume = none →
    s.dev.herd.running = [] → s.dev.herd.holds = [] → s.dev.herd.tasks = [t] → t.idx < 1024 → t.armed = true → t.open = false → t.skip = false →
    t.due = some (s.dev.mae.cyc, s.dev.mae.nextTick - 1) → s.dev.peekDesc t.idx = some x → x.period ≠ 0 → x.unit = 6 → x.nctx = 0 →
    s.dev.unitPowered 6 x.arg = true →
    Effects .herdEvaluation s fun e =>
      (eventExists (bits x.arg 0 9) = true → bits x.arg 0 9 ∈ e.edges)
      ∧ e.rd Reg.HERD_DISP_CNT = satInc 32 (s.dev.rd Reg.HERD_DISP_CNT)
      ∧ (e.task t.idx).open = false
      ∧ (e.task t.idx).armed = !x.oneshot
      ∧ (e.task t.idx).due = (if x.oneshot then none else some (s.dev.mae.cyc + BitVec.ofNat 32 x.period, x.tick))
      ∧ (e.task t.idx).lastLate = false ∧ (e.task t.idx).lastDeferred = false
      ∧ e.f (Fld.HERD_ROT_PTR x.prio) = (t.idx + 1) % 1024
      ∧ e.herd.running = [] ∧ e.herd.evalDue = false)
  ∧ ∀ s : State, (s.dev.herdRuns && s.dev.herd.evalDue) = false →
    Effects .herdEvaluation s fun e => e = s.dev.answer .none

/-- Missed reports. DEFER_MAX_EXPIRY of a waiting task that has waited DEFER_MAX evaluations ends its occurrence with
a MISSED report of cause DEFER: the event, MISS_CNT, LAST_CAUSE, and an entry in the miss log with the task, the
cause, the cycle and tick of the MAE and NOTIME; the log index moves on. For any other task it changes nothing.
HERD_DISABLE, with EN set and the page unlocked, clears EN, raises HALTED, reports every occurrence that is open
(cause HALT for the last one logged) and leaves none open. (rests on R64, R70, R73, R74, R80) -/
def Obligations.MissedReports : Prop :=
  (∀ (s : State) (i : Fin 1024), (s.dev.task i.val).waiting = true → max 1 (s.dev.f Fld.HERD_CTRL_DEFER_MAX) ≤ (s.dev.task i.val).waited →
    Effects (.deferMaxExpiry i) s fun e =>
      let n := s.dev.f Fld.HERD_MISS_WR_IDX
      Ev.HERD_MISSED ∈ e.edges ∧ e.rd Reg.HERD_MISS_CNT = satInc 32 (s.dev.rd Reg.HERD_MISS_CNT)
      ∧ (e.task i.val).open = false ∧ (e.task i.val).lastCause = 1
      ∧ e.f (Fld.HERD_MISS_INFO_TASK n) = i.val ∧ e.f (Fld.HERD_MISS_INFO_CAUSE n) = 1
      ∧ e.f (Fld.HERD_MISS_INFO_VALID n) = 1
      ∧ (e.f (Fld.HERD_MISS_INFO_NOTIME n) = 0 ↔ s.dev.mae.running = true)
      ∧ (s.dev.mae.running = true →
          e.rd (Reg.HERD_MISS_CYC n) = s.dev.mae.cyc.toNat ∧ e.f (Fld.HERD_MISS_INFO_TICK n) = s.dev.mae.tick)
      ∧ e.f Fld.HERD_MISS_WR_IDX = (n + 1) % 16
      ∧ ∀ j, j ≠ i.val → e.task j = s.dev.task j)
  ∧ (∀ (s : State) (i : Fin 1024), (s.dev.task i.val).waiting = false ∨ (s.dev.task i.val).waited < max 1 (s.dev.f Fld.HERD_CTRL_DEFER_MAX) →
    Effects (.deferMaxExpiry i) s fun e => e = s.dev.answer .none)
  ∧ ∀ (s : State) (r : Requester), s.dev.writable r .herd = true → s.dev.locked .herd 0x40 = false →
    s.dev.on Fld.HERD_CTRL_EN = true →
    Effects (.herdDisable r) s fun e =>
      e.f Fld.HERD_CTRL_EN = 0 ∧ e.on (eventRaw Ev.HERD_HALTED) = true
      ∧ (s.dev.on (eventRaw Ev.HERD_HALTED) = false → Ev.HERD_HALTED ∈ e.edges)
      ∧ (∀ i, (e.task i).open = false) ∧ e.herd.evalDue = false
      ∧ e.rd Reg.HERD_MISS_CNT = min (2 ^ 32 - 1) (s.dev.rd Reg.HERD_MISS_CNT + (s.dev.herd.tasks.filter (·.open)).length)
      ∧ (∀ i, (s.dev.task i).open = true → (e.task i).lastCause = 7)

/-- Enabling HERD and the splice evaluation. HERD_ENABLE with EN clear, the page unlocked, the MAE running and MET on
sets EN and advances an armed task whose due time has passed by whole periods to its first due time at or after the
tick that follows the present one; none fires. SPLICE_EVALUATION of one splice of at most a cycle, where HERD runs
with one task in its store whose due time lies after FROM and before TO (EVT_RAISE, PERIOD not 0, no contexts, its
page on, nothing waiting): the task falls due LATE and is accepted, LATE_CNT and DISP_CNT go up by one, LATE and the
named event are raised, and the splice is done with. (rests on R51, R63, R79, R80) -/
def Obligations.EnableAndSplice : Prop :=
  (∀ (s : State) (r : Requester), s.dev.writable r .herd = true → s.dev.locked .herd 0x40 = false →
    s.dev.on Fld.HERD_CTRL_EN = false → s.dev.mae.running = true → s.dev.domOn .met = true →
    Effects (.herdEnable r) s fun e =>
      e.f Fld.HERD_CTRL_EN = 1 ∧ e.on (eventRaw Ev.HERD_HALTED) = false
      ∧ e.rd Reg.HERD_DISP_CNT = s.dev.rd Reg.HERD_DISP_CNT ∧ (∀ i, (e.task i).open = (s.dev.task i).open)
      ∧ ∀ (i : Nat) (c : Word) (j : Nat) (x : Desc), (s.dev.task i).armed = true → (s.dev.task i).due = some (c, j) → j < 256 →
        s.dev.peekDesc i = some x → x.period ≠ 0 →
        ((s.dev.mae.tick + 1) * 256 : Nat) ≤ auFrom s.dev.mae.cyc c j → (e.task i).due = some (c, j))
  ∧ (∀ (s : State) (r : Requester), s.dev.writable r .herd = true → s.dev.locked .herd 0x40 = false →
    s.dev.on Fld.HERD_CTRL_EN = false → s.dev.mae.running = true → s.dev.domOn .met = true →
    Effects (.herdEnable r) s fun e =>
      ∀ (i : Nat) (c : Word) (j : Nat) (x : Desc), (s.dev.task i).armed = true → (s.dev.task i).due = some (c, j) → j < 256 →
        s.dev.peekDesc i = some x → x.period ≠ 0 →
        auFrom s.dev.mae.cyc c j < ((s.dev.mae.tick + 1) * 256 : Nat) →
        ∃ n : Nat, (e.task i).due = some (c + BitVec.ofNat 32 (n * x.period), j)
          ∧ ((s.dev.mae.tick + 1) * 256 : Nat) ≤ auFrom s.dev.mae.cyc (c + BitVec.ofNat 32 (n * x.period)) j
          ∧ auFrom s.dev.mae.cyc (c + BitVec.ofNat 32 (n * x.period)) j < ((s.dev.mae.tick + 1) * 256 + x.period * 65536 : Nat))
  ∧ ∀ (s : State) (t : HTask) (x : Desc) (p : Splice) (c : Word) (j : Nat), s.dev.herdRuns = true →
    s.dev.mae.splices = [p] → s.dev.herd.resume = none →
    s.dev.herd.running = [] → s.dev.herd.holds = [] → s.dev.herd.tasks = [t] → t.idx < 1024 → t.armed = true → t.open = false → t.skip = false →
    t.due = some (c, j) → j < 256 → p.fromAng < 65536 → auFrom p.fromCyc p.toCyc 0 + p.toAng ≤ p.fromAng + 65536 →
    (p.fromAng : Int) < auFrom p.fromCyc c j → auFrom p.fromCyc c j < auFrom p.fromCyc p.toCyc 0 + p.toAng →
    s.dev.peekDesc t.idx = some x → x.period ≠ 0 → x.unit = 6 → x.nctx = 0 → s.dev.unitPowered 6 x.arg = true →
    Effects .spliceEvaluation s fun e =>
      Ev.HERD_LATE ∈ e.edges ∧ (eventExists (bits x.arg 0 9) = true → bits x.arg 0 9 ∈ e.edges)
      ∧ e.rd Reg.HERD_LATE_CNT = satInc 32 (s.dev.rd Reg.HERD_LATE_CNT)
      ∧ e.rd Reg.HERD_DISP_CNT = satInc 32 (s.dev.rd Reg.HERD_DISP_CNT)
      ∧ (e.task t.idx).open = false ∧ (e.task t.idx).lastLate = true ∧ e.mae.splices = []

/-- A write of PART.LGL_BLOCKS disarms the tasks whose partition changes. Where the legal side writes PART.LGL_BLOCKS
of an open page HERD, the field takes the value; every armed task that lies in the legal partition (tasks 0 to 32 x
LGL_BLOCKS - 1) before or after the write but not both is disarmed, with its occurrence withdrawn; every other task
stays as it is; no MISSED event is raised and MISS_CNT stands; and DESC_ERR is raised exactly once if some task was
disarmed so, else not. (formalises R67) -/
def Obligations.PartitionWriteDisarms : Prop :=
  ∀ (s : State) (r : Requester) (blocks : BitVec 6), s.dev.writable r .herd = true → r.legal = true →
    Effects (.partWrite r blocks) s fun e =>
      let inLegal (b i : Nat) : Prop := i < 32 * min b 32
      let moves (i : Nat) : Prop := ¬(inLegal (s.dev.f Fld.HERD_PART_LGL_BLOCKS) i ↔ inLegal blocks.toNat i)
      e.f Fld.HERD_PART_LGL_BLOCKS = blocks.toNat
      ∧ (∀ i, (s.dev.task i).armed = true → moves i →
          (e.task i).armed = false ∧ (e.task i).open = false ∧ (e.task i).due = none)
      ∧ (∀ i, ¬((s.dev.task i).armed = true ∧ moves i) → e.task i = s.dev.task i)
      ∧ e.edges.count Ev.HERD_MISSED = s.dev.edges.count Ev.HERD_MISSED
      ∧ e.rd Reg.HERD_MISS_CNT = s.dev.rd Reg.HERD_MISS_CNT
      ∧ ((∃ i, (s.dev.task i).armed = true ∧ moves i) →
          e.edges.count Ev.HERD_DESC_ERR = s.dev.edges.count Ev.HERD_DESC_ERR + 1)
      ∧ ((∀ i, ¬((s.dev.task i).armed = true ∧ moves i)) → e.edges = s.dev.edges)
      ∧ e.bus = .done

/-- Counter clears and USR events. HERD_CNT_CLR sets HERD's seven counters to 0, MEMCTL_CNT_CLR the error counters of
the 23 banks (and lets CE_THR be raised again), MULE_CNT_CLR MULE's seven counters and times, COLL_CLR the collision
count of the DPM; no other register and no unit changes but by the follow-up work. USR_RAISE raises exactly the USR
events of its mask, in rising order. (rests on R74, R192, R199, R211, R453) -/
def Obligations.CounterClearsAndUsrEvents : Prop :=
  (∀ (s : State) (r : Requester), s.dev.calm = true → s.dev.writable r .herd = true →
    Yields (.herdCntClr r) s fun e =>
      (∀ k < 7, e.rd (Reg.HERD_DISP_CNT + 4 * k) = 0)
      ∧ s.dev.keeps e ((List.range 7).map fun k => Reg.HERD_DISP_CNT + 4 * k) ∧ e.units = s.dev.units)
  ∧ (∀ (s : State) (r : Requester), s.dev.calm = true → s.dev.writable r .memctl = true →
    Yields (.memctlCntClr r) s fun e =>
      (∀ b < 23, e.rd (Reg.MEMCTL_ECC_CNT b) = 0) ∧ e.mem.ceThrDone = false
      ∧ s.dev.keeps e ((List.range 23).map Reg.MEMCTL_ECC_CNT)
      ∧ e.mem.sram = s.dev.mem.sram)
  ∧ (∀ (s : State) (r : Requester), s.dev.calm = true → s.dev.writable r .mule = true →
    Yields (.muleCntClr r) s fun e =>
      (∀ k < 7, e.rd (Reg.MULE_PAGEIN_CNT + 4 * k) = 0)
      ∧ s.dev.keeps e ((List.range 7).map fun k => Reg.MULE_PAGEIN_CNT + 4 * k) ∧ e.units = s.dev.units)
  ∧ (∀ (s : State) (r : Requester), s.dev.calm = true → s.dev.writable r .dpm = true →
    Yields (.collClr r) s fun e =>
      e.f Fld.DPM_DPM_STAT_COLL_CNT = 0 ∧ s.dev.keeps e [Reg.DPM_DPM_STAT] ∧ e.units = s.dev.units)
  ∧ ∀ (s : State) (r : Requester) (mask : BitVec 16), s.dev.writable r .herd = true →
    Effects (.usrRaise r mask) s fun e =>
      e.edges = s.dev.edges ++ ((List.range 16).filter (bit mask.toNat)).map Ev.HERD_USR
      ∧ e.regs = s.dev.regs ∧ e.units = s.dev.units

/-- Fire edges, hits, start edges and shot ends. With a pair in flight: SHOT_FIRE fires the next shot and starts its
burst on the transmitting ball (NPER periods of twice HALF_PER; of a driver past SHORT_THR up to the next half-period
edge), with drive fault SHORT above SHORT_THR and OPEN below OPEN_THR of an internally driven burst, records the peak
current of the transmitting ball and, for the downstream shot, the mains time; the other shot stays. FIRST_HIT stops
the TDC exactly where the shot in flight has no hit yet, the PGA output lies beyond HIT_THR on the side of POL and the
crossing lies in an unmasked sample from MIN_TOF to WIN_END; the reset switch is open from RST_REL to SHOT_END.
UFE_XSTART_EDGE is taken exactly where the set starts externally, there is no start yet and WIN_END has not ended.
SHOT_END ends the shot, with the switch closed and no burst, with its capture (masked samples 0) and raises CLIP
exactly where a captured sample is at an end of the range. (rests on R86, R89, R90, R91, R95, R98, R100, R104) -/
def Obligations.ShotProgress : Prop :=
  (∀ (s : State) (t : Elapse) (ipk : Byte) (past : Nat) (p : Pair) (up : Bool),
    ((s.dev.answer .none).pass t).ufe.pair = some p → p.nextFire = some up → p.path < 4 →
    Effects (.shotFire t ipk past) s fun e =>
      let b := (s.dev.answer .none).pass t
      ∃ q, e.ufe.pair = some q ∧ (q.shot up).fired = true ∧ (q.shot up).ended = false ∧ (q.shot up).hit = none
        ∧ (q.shot up).start = none
        ∧ (q.shot up).drive = (if p.extDrv = true then 0 else if p.shortThr < ipk.toNat then 3
            else if ipk.toNat < p.openThr then 2 else 0)
        ∧ q.shot (!up) = p.shot (!up)
        ∧ (up = false → b.mae.running = true → q.cyc = b.mae.cyc ∧ q.ang = b.mae.angle)
        ∧ (p.extDrv = false → e.f (ipkField p.path (p.byB up)) = ipk.toNat)
        ∧ (∃ u, e.ufe.burst = some u ∧ u.ball = p.txBall up ∧ u.half = p.halfPer ∧ u.ext = p.extDrv
            ∧ u.stop = if p.extDrv = false ∧ p.shortThr < ipk.toNat
                then min (2 * p.halfPer * p.nPer) ((past / p.halfPer + 1) * p.halfPer) else 2 * p.halfPer * p.nPer)
        ∧ (∀ a, a ≠ Reg.UFE_DRV_IPK p.path → e.rd a = b.rd a) ∧ e.edges = b.edges)
  ∧ (∀ (s : State) (t : Nat) (mv : Int) (p : Pair) (up : Bool), s.dev.ufe.pair = some p → p.flying = some up →
    (Effects (.firstHit t mv) s fun e =>
      e.ufe.pair = some (p.setShot up { p.shot up with
        hit := if p.crosses mv = true ∧ (p.shot up).hit = none ∧ p.minTof ≤ t / 8192 ∧ t / 8192 ≤ p.winEnd ∧ p.masked (t / 8192) = false then some t
               else (p.shot up).hit })
      ∧ e.ufe.open_ = (decide (p.rstRel ≤ t / 8192) && decide (t / 8192 < p.shotEnd))
      ∧ e.regs = s.dev.regs ∧ e.edges = s.dev.edges)
    ∧ Effects (.ufeXstartEdge t) s fun e =>
      e.ufe.pair = some (p.setShot up { p.shot up with
        start := if p.extStart = true ∧ (p.shot up).start = none ∧ t < (p.winEnd + 1) * 8192 then some t
                 else (p.shot up).start })
      ∧ e.regs = s.dev.regs ∧ e.edges = s.dev.edges)
  ∧ ∀ (s : State) (xs : List (BitVec 12)) (p : Pair) (up : Bool), s.dev.ufe.pair = some p → p.flying = some up →
    p.capLen ≤ xs.length → p.capStart + p.capLen ≤ 4096 →
    Effects (.shotEnd xs) s fun e =>
      ∃ q, e.ufe.pair = some q ∧ (q.shot up).ended = true ∧ (q.shot up).hit = (p.shot up).hit ∧ q.shot (!up) = p.shot (!up)
        ∧ e.ufe.open_ = false ∧ e.ufe.burst = none ∧ (q.shot up).capt.length = p.capLen
        ∧ (∀ (i : Nat) (x : BitVec 12), i < p.capLen → xs[i]? = some x →
            (q.shot up).capt[i]? = some (if p.masked (p.capStart + i) = true then 0 else x.toInt))
        ∧ e.edges = s.dev.edges ++
            (if (q.shot up).capt.any (fun x => x == -2048 || x == 2047) = true then [Ev.UFE_RX_CLIP] else [])
        ∧ e.regs = s.dev.regs

/-- The result of a pair. PAIR_RESULT of a pair whose two shots have ended (on a path in use) leaves the unit free
and, whether PATH_GAIN is written in the same clock or not, writes the result block of the path: SEQ goes up by one
mod 256, NEW is set, OVR where NEW was set already, SRC, the task number and its flags as accepted. Each shot's code
is the first that applies of SHORT, OPEN, NOSTART, NOHIT, ORDER, SUB_TICK, OK, and its TOF is the stopping hit (less
the start edge where the set starts externally) for OK and else 0. PAIR is 1 where a shot is not OK, else LAG_EDGE
exactly where the best lag is LAG_MAX, else LOWCORR or OK. PAIR_DONE is raised. On a path not in use the block says
DISABLED with codes and TOF 0. (rests on R83, R96, R98, R99, R101, R107) -/
def Obligations.PairResultWritten : Prop :=
  ∀ (s : State) (t : Elapse) (wrote : Option WordWrite) (p : Pair),
    ((s.dev.answer .none).pass t).ufe.pair = some p → p.path < 4 → p.src < 4 → p.ang < 65536 →
    p.dn.drive ∈ [0, 2, 3] → p.up.drive ∈ [0, 2, 3] → (∀ t, p.dn.hit = some t ∨ p.up.hit = some t → t < 2 ^ 32) →
    (p.en = true → p.dn.ended = true ∧ p.up.ended = true) → (p.en = false → p.dn = {} ∧ p.up = {}) →
    Effects (.pairResult t wrote) s fun e =>
      let b := (s.dev.answer .none).pass t
      let n := p.path
      let code (x : Shot) : Nat × Nat :=
        if p.en = false then (0, 0)
        else if x.drive ≠ 0 then (x.drive, 0)
        else match p.extStart, x.start, x.hit with
          | true, none, _ => (6, 0)
          | true, some _, none => (1, 0)
          | false, _, none => (1, 0)
          | true, some a, some h => if h < a then (4, 0) else if h = a then (5, 0) else (0, h - a)
          | false, _, some h => (0, h)
      e.ufe.pair = none
      ∧ e.f (Fld.UFE_TOF_RES_STAT_SEQ n) = (b.f (Fld.UFE_TOF_RES_STAT_SEQ n) + 1) % 256
      ∧ e.f (Fld.UFE_TOF_RES_STAT_NEW n) = 1
      ∧ (b.on (Fld.UFE_TOF_RES_STAT_NEW n) = true → e.f (Fld.UFE_TOF_RES_STAT_OVR n) = 1 ∧ Ev.UFE_TOF_RES_OVR ∈ e.edges)
      ∧ e.f (Fld.UFE_TOF_RES_STAT_SRC n) = p.src ∧ e.f (Fld.UFE_TOF_RES_ANG_TASK n) = p.task % 1024
      ∧ e.on (Fld.UFE_TOF_RES_STAT_T_LATE n) = p.late ∧ e.on (Fld.UFE_TOF_RES_STAT_T_DEFERRED n) = p.deferred
      ∧ e.on (Fld.UFE_TOF_RES_STAT_T_AT_LIMIT n) = p.atLimit
      ∧ e.f (Fld.UFE_TOF_RES_STAT_CODE_DN n) = (code p.dn).1 ∧ e.rd (Reg.UFE_TOF_RES_TOF_DN n) = (code p.dn).2
      ∧ e.f (Fld.UFE_TOF_RES_STAT_CODE_UP n) = (code p.up).1 ∧ e.rd (Reg.UFE_TOF_RES_TOF_UP n) = (code p.up).2
      ∧ Ev.UFE_TOF_PAIR_DONE ∈ e.edges
      ∧ (p.en = false → e.f (Fld.UFE_TOF_RES_STAT_PAIR n) = 4)
      ∧ (p.en = true → ((code p.dn).1 ≠ 0 ∨ (code p.up).1 ≠ 0) → e.f (Fld.UFE_TOF_RES_STAT_PAIR n) = 1)
      ∧ (p.en = true → (code p.dn).1 = 0 → (code p.up).1 = 0 →
          e.f (Fld.UFE_TOF_RES_STAT_PAIR n) ∈ [0, 2, 3]
          ∧ (e.f (Fld.UFE_TOF_RES_STAT_PAIR n) = 3 ↔ (bestLag p.dn.capt p.up.capt p.lagMax).1.natAbs = p.lagMax))

/-- Manual pairs. MAN_FIRE by a requester that may write the page: where the unit is busy, UFA or UFD is not on, or
HERD accepts a pair in the same clock, the request is discarded with MAN_REJ and nothing else changes. Else a pair
starts on the path named, with SRC = MANUAL, task 0x3FF, no flags and the parameters of the shot set named as they
stand, nothing fired yet, the ball that receives the downstream shot on the charge amplifier and its reset switch
closed. On a path not in use the pair completes at once with PAIR = DISABLED and PAIR_DONE, and the unit is free
again. (rests on R83, R85, R88, R109) -/
def Obligations.ManualPairs : Prop :=
  ∀ (s : State) (r : Requester) (n : Fin 4) (k : Fin 16) (now : Bool), s.dev.writable r .ufeDrv = true →
    ((now = true ∨ s.dev.ufeBusy = true ∨ s.dev.domOn .ufa = false ∨ s.dev.domOn .ufd = false) →
      Effects (.manFire r n k now) s fun e =>
        Ev.UFE_DRV_MAN_REJ ∈ e.edges ∧ e.ufe = s.dev.ufe ∧ e.regs = s.dev.regs)
    ∧ (now = false → s.dev.ufeBusy = false → s.dev.domOn .ufa = true → s.dev.domOn .ufd = true →
      (s.dev.on (Fld.UFE_DRV_PATH_CFG_EN n.val) = true → Effects (.manFire r n k now) s fun e =>
        ∃ q, e.ufe.pair = some q ∧ q.path = n.val ∧ q.src = 1 ∧ q.task = 0x3FF ∧ q.late = false ∧ q.deferred = false
          ∧ q.atLimit = false ∧ q.en = true ∧ q.drv = s.dev.rd (Reg.UFE_DRV_SET_DRV k.val)
          ∧ q.rx = s.dev.rd (Reg.UFE_RX_SET_RX k.val) ∧ q.win = s.dev.rd (Reg.UFE_TOF_SET_WIN k.val)
          ∧ q.cap = s.dev.rd (Reg.UFE_TOF_SET_CAP k.val) ∧ q.hit = s.dev.rd (Reg.UFE_RX_SET_HIT k.val)
          ∧ q.gap = s.dev.rd (Reg.UFE_TOF_SET_GAP k.val) ∧ q.dn = {} ∧ q.up = {}
          ∧ e.ufe.rx = some (q.rxBall false, q.cf) ∧ e.ufe.open_ = false
          ∧ e.regs = s.dev.regs ∧ e.edges = s.dev.edges)
      ∧ (s.dev.on (Fld.UFE_DRV_PATH_CFG_EN n.val) = false → Effects (.manFire r n k now) s fun e =>
        e.ufe.pair = none ∧ e.f (Fld.UFE_TOF_RES_STAT_PAIR n.val) = 4 ∧ e.f (Fld.UFE_TOF_RES_STAT_SRC n.val) = 1
        ∧ Ev.UFE_TOF_PAIR_DONE ∈ e.edges))

/-- The shadow of a result block. RES_STAT_READ of path n copies the seven words that follow RES_STAT_n into the
reader's shadow, and no shadow of another requester changes; the LC, the AC and the host port (HSPI and I2CT alike)
have one shadow each; and a read of any of the seven words of any path by a requester answers the word of its own
shadow, whatever the register holds. Neither read changes a register or a unit other than the shadow (but for the
follow-up work). (formalises R108) -/
def Obligations.ResultShadows : Prop :=
  (∀ (s : State) (r : Requester) (n : Fin 4), s.dev.calm = true → s.dev.opens r .ufeTof = true →
    Yields (.resStatRead r n) s fun e =>
      (∀ i < 7, (e.cap r).res[i]? = some (BitVec.ofNat 32 (s.dev.rd (Reg.UFE_TOF_RES_STAT n.val + 4 + 4 * i))))
      ∧ (∀ q : Requester, q.capture ≠ r.capture → e.cap q = s.dev.cap q)
      ∧ s.dev.keeps e [] ∧ e.ufe = s.dev.ufe)
  ∧ (∀ (s : State) (r : Requester) (n : Fin 4) (i : Fin 7) (w : Word), s.dev.calm = true → s.dev.opens r .ufeTof = true →
    (s.dev.cap r).res[i.val]? = some w →
    Yields (.read64Low r (Reg.UFE_TOF_RES_STAT n.val + 4 + 4 * i.val)) s fun e =>
      e.bus = .data w ∧ s.dev.keeps e [] ∧ e.units = s.dev.units)
  ∧ Requester.lc.capture ≠ Requester.ac.capture ∧ Requester.lc.capture ≠ Requester.hspi.capture
  ∧ Requester.ac.capture ≠ Requester.hspi.capture ∧ Requester.hspi.capture = Requester.i2ct.capture

/-- Stale flow and leak windows. FLOW_STALE of a path whose stale count has reached STALE_TICKS, with UFD on, adds the
cause STALE: the path is FLOW_UNKNOWN, CAUSE shows the lowest code that holds, and FLOW_UNKNOWN is raised where the
path was known; FLOW_n holds. Before that count the command changes nothing. LEAK_WINDOW_END of a window with no
cycles left: a void window sets VOID and raises LEAK_VOID and tests nothing; else LEAK is set and raised exactly where
the difference of the two volume increments exceeds LEAK_THR in size (LEAK never clears), and LEAK_DIFF shows it; a
new window starts from the present volumes where SUP_EN and RET_EN are set. (rests on R119, R122) -/
def Obligations.StaleFlowAndLeakWindows : Prop :=
  (∀ (s : State) (n : Fin 4), s.dev.domOn .ufd = true →
    (max 1 (s.dev.f Fld.FLOW_FLOW_CFG_STALE_TICKS) ≤ (s.dev.flowPath n.val).stale → Effects (.flowStale n) s fun e =>
      bit (e.flowPath n.val).causes 3 = true ∧ e.f (Fld.FLOW_FLOW_STAT_UNKNOWN n.val) = 1
      ∧ bit (e.flowPath n.val).causes (e.f (Fld.FLOW_FLOW_STAT_CAUSE n.val)) = true
      ∧ (∀ c, c < e.f (Fld.FLOW_FLOW_STAT_CAUSE n.val) → bit (e.flowPath n.val).causes c = false)
      ∧ (∀ c, c ≠ 3 → bit (e.flowPath n.val).causes c = bit (s.dev.flowPath n.val).causes c)
      ∧ e.edges = s.dev.edges ++ (if (s.dev.flowPath n.val).causes = 0 then [Ev.FLOW_FLOW_UNKNOWN] else [])
      ∧ (∀ a, a ≠ Reg.FLOW_FLOW_STAT n.val → e.rd a = s.dev.rd a))
    ∧ ((s.dev.flowPath n.val).stale < max 1 (s.dev.f Fld.FLOW_FLOW_CFG_STALE_TICKS) → Effects (.flowStale n) s fun e =>
      e = s.dev.answer .none))
  ∧ ∀ (s : State) (k : Fin 4) (w : LeakWin), s.dev.leakWin k.val = some w → s.dev.f (Fld.FLOW_LEAK_STAT_WIN_LEFT k.val) = 0 →
    w.sup < 4 → w.ret < 4 →
    let diff := (s.dev.volume w.sup - w.vSup) - (s.dev.volume w.ret - w.vRet)
    Effects (.leakWindowEnd k) s fun e =>
      (w.void = true → e.f (Fld.FLOW_LEAK_STAT_VOID k.val) = 1 ∧ Ev.FLOW_LEAK_VOID ∈ e.edges
        ∧ e.f (Fld.FLOW_LEAK_STAT_LEAK k.val) = s.dev.f (Fld.FLOW_LEAK_STAT_LEAK k.val))
      ∧ (w.void = false → e.f (Fld.FLOW_LEAK_STAT_VOID k.val) = 0
        ∧ (-2 ^ 31 ≤ diff → diff < 2 ^ 31 → sgn 32 (e.rd (Reg.FLOW_LEAK_DIFF k.val)) = diff)
        ∧ (s.dev.rd (Reg.FLOW_LEAK_THR k.val) < diff.natAbs → e.f (Fld.FLOW_LEAK_STAT_LEAK k.val) = 1 ∧ Ev.FLOW_LEAK ∈ e.edges)
        ∧ (diff.natAbs ≤ s.dev.rd (Reg.FLOW_LEAK_THR k.val) →
            e.f (Fld.FLOW_LEAK_STAT_LEAK k.val) = s.dev.f (Fld.FLOW_LEAK_STAT_LEAK k.val) ∧ e.edges = s.dev.edges))
      ∧ ∀ a b, s.dev.supPath k.val = some a → s.dev.retPath k.val = some b →
          e.f (Fld.FLOW_LEAK_STAT_WIN_LEFT k.val) = max 1 (s.dev.f (Fld.FLOW_LEAK_WIN_WIN k.val))
          ∧ e.leakWin k.val = some ⟨a, b, s.dev.volume a, s.dev.volume b, s.dev.flowUnknown a || s.dev.flowUnknown b⟩

/-- RTD conversions. MAN_CONV while a conversion runs is discarded with MAN_REJ; else, on an enabled channel, it
starts one, with a discarded conversion first where the channel differs from the last one or was configured since.
RTD_CFG_WRITE stops a conversion of its channel with code ABORT and leaves one of another channel. RTD_CONV_DONE frees
the unit and writes a result with SEQ + 1: BROKEN where a wire in use is open, else SHORT where R_T is below 0.6 RNOM,
else OOR where the temperature lies outside -50.00 to +250.00 degrees, else OK with that temperature; with any other
code RTD_TEMP reads 0x8000. RTD_DISCARD_DONE of a discarded conversion writes the result of a fault, and else goes on
to the conversion that counts. The temperature is the one whose half steps of 0.005 degrees take in the resistance
ratio of IEC 60751. (rests on R124, R125, R126, R127) -/
def Obligations.RtdConversions : Prop :=
  (∀ (s : State) (r : Requester) (n : Fin 8) (fast : Bool), s.dev.writable r .rtd = true →
    (s.dev.rtd.conv.isSome = true → Effects (.manConv r n fast) s fun e =>
      Ev.RTD_MAN_REJ ∈ e.edges ∧ e.rtd = s.dev.rtd ∧ e.regs = s.dev.regs)
    ∧ (s.dev.rtd.conv = none → s.dev.on (Fld.RTD_RTD_CFG_EN n.val) = true → Effects (.manConv r n fast) s fun e =>
      e.rtd.conv = some ⟨n.val, !fast, s.dev.rtd.prev != some n.val || bit s.dev.rtd.dirty n.val⟩
      ∧ e.rtd.prev = some n.val ∧ e.regs = s.dev.regs ∧ e.edges = s.dev.edges))
  ∧ (∀ (s : State) (r : Requester) (n : Fin 8) (data : Word) (c : RtdConv), s.dev.writable r .rtd = true → s.dev.rtd.conv = some c →
    Effects (.rtdCfgWrite r n data) s fun e =>
      bit e.rtd.dirty n.val = true
      ∧ (c.ch = n.val → e.rtd.conv = none ∧ e.f (Fld.RTD_RTD_STAT_CODE n.val) = 4 ∧ Ev.RTD_CONV_DONE ∈ e.edges)
      ∧ (c.ch ≠ n.val → e.rtd.conv = some c ∧ e.edges = s.dev.edges))
  ∧ (∀ (s : State) (m : RtdMeas) (c : RtdConv), s.dev.rtd.conv = some c → c.ch < 8 →
    let three := s.dev.on (Fld.RTD_RTD_CFG_WIRES c.ch) = true
    let rnom := if s.dev.on (Fld.RTD_RTD_CFG_TYPE c.ch) = true then 1000 else 100
    let wires := if s.dev.on (Fld.RTD_RTD_CFG_WIRES c.ch) = true then m.openWires.toNat else m.openWires.toNat % 4
    let rt : Int := (m.rLoop : Int) - (if three then 2 * (m.rLead : Int) else (s.dev.f (Fld.RTD_LEAD2_LEAD c.ch) : Int))
    let t := iecTemp rnom (rt * (1000000 + sgn 16 (s.dev.f (Fld.RTD_CAL_GAIN c.ch))) + sgn 16 (s.dev.f (Fld.RTD_CAL_OFS c.ch)) * 1000000)
    let code := if wires ≠ 0 then 1 else if rt * 10 < 6000 * (rnom : Int) then 2 else if t = none then 3 else 0
    let result (e : Dev) : Prop :=
      e.rtd.conv = none ∧ e.f (Fld.RTD_RTD_STAT_CODE c.ch) = code
      ∧ e.f (Fld.RTD_RTD_STAT_SEQ c.ch) = (s.dev.f (Fld.RTD_RTD_STAT_SEQ c.ch) + 1) % 256
      ∧ e.on (Fld.RTD_RTD_STAT_SLOW c.ch) = c.slow ∧ Ev.RTD_CONV_DONE ∈ e.edges
      ∧ (code = 0 → ∃ x, t = some x ∧ sgn 16 (e.f (Fld.RTD_RTD_TEMP_T c.ch)) = x)
      ∧ (code ≠ 0 → e.f (Fld.RTD_RTD_TEMP_T c.ch) = 0x8000)
    (c.discard = false → Effects (.rtdConvDone m) s result)
    ∧ (c.discard = true → (code = 1 ∨ code = 2) → Effects (.rtdDiscardDone m) s result)
    ∧ (c.discard = true → ¬(code = 1 ∨ code = 2) → Effects (.rtdDiscardDone m) s fun e =>
        e.rtd = { s.dev.rtd with conv := some { c with discard := false } } ∧ e.regs = s.dev.regs ∧ e.edges = s.dev.edges))
  ∧ ∀ (rnom : Nat) (nohm t : Int), 0 < rnom → iecTemp rnom nohm = some t →
    -5000 ≤ t ∧ t ≤ 25000 ∧ iecReaches (nohm * (16 * 10 ^ 14) / rnom) t = true
    ∧ iecReaches (nohm * (16 * 10 ^ 14) / rnom) (t + 1) = false

/-- Fault evaluations of the thermal guard. THERM_FAULT_EVAL of an enabled outlet, with UFD on and a fault evaluation
due: every fault whose condition holds is in force afterwards and none that was in force lifts; the limit in force is
at most ILIM_MAX, at most the limit of each fault in force and at most the current of each criterion's level; HOT is
high exactly where it lies below ILIM_MAX; ILIM_CHG is raised where the limit changes; no task evaluation is counted.
The evaluation is done with, and no register of another outlet changes. Where none is due the command changes nothing.
(rests on R129, R132, R133) -/
def Obligations.ThermalFaultEvaluations : Prop :=
  (∀ (s : State) (k : Fin 4), s.dev.domOn .ufd = true → s.dev.on (Fld.THERM_OUT_EN_EN k.val) = true →
    (s.dev.outlet k.val).due = true →
    Effects (.thermFaultEval k) s fun e =>
      (∀ c < 3, s.dev.faultCond k.val c = true → e.on (faultField k.val c) = true)
      ∧ (∀ c < 3, s.dev.on (faultField k.val c) = true → e.on (faultField k.val c) = true)
      ∧ (∀ c < 3, e.on (faultField k.val c) = true → s.dev.faultCond k.val c = true ∨ s.dev.on (faultField k.val c) = true)
      ∧ e.f (Fld.THERM_ILIM_I k.val) ≤ e.f (Fld.THERM_ILIM_MAX_I k.val)
      ∧ (∀ c < 3, e.on (faultField k.val c) = true → e.f (Fld.THERM_ILIM_I k.val) ≤ e.faultLimit k.val c)
      ∧ (∀ c < 3, e.f (Fld.THERM_ILIM_I k.val) ≤ e.critLimit k.val c)
      ∧ (e.on (Fld.THERM_ILIM_HOT k.val) = true ↔ e.f (Fld.THERM_ILIM_I k.val) < e.f (Fld.THERM_ILIM_MAX_I k.val))
      ∧ (e.f (Fld.THERM_ILIM_I k.val) ≠ s.dev.f (Fld.THERM_ILIM_I k.val) → Ev.THERM_ILIM_CHG ∈ e.edges)
      ∧ e.rd (Reg.THERM_EVAL_CNT k.val) = s.dev.rd (Reg.THERM_EVAL_CNT k.val)
      ∧ (e.outlet k.val).due = false
      ∧ (∀ j < 4, j ≠ k.val → e.rd (Reg.THERM_ILIM j) = s.dev.rd (Reg.THERM_ILIM j)
          ∧ e.rd (Reg.THERM_RUN j) = s.dev.rd (Reg.THERM_RUN j) ∧ e.outlet j = s.dev.outlet j))
  ∧ ∀ (s : State) (k : Fin 4), (s.dev.outlet k.val).due = false →
    Effects (.thermFaultEval k) s fun e => e = s.dev.answer .none

/-- Sample words. SAMPLE_WORDS_EMIT takes the oldest tick whose words are to come. A channel that its settings disable
emits no word and its LAST reads 0. A channel newly powered (no settings since) starts 12 invalid samples: its word
carries SETTLE and its number, SETTLE_LEFT shows 11 and SETTLE is raised. A channel with unchanged settings, no
ranging and nothing left to settle takes its decimated inputs, scaled by 2^PGA, through the stage of its sensor mode
(log entries 139, 140) and emits, for S the value of the stream at the tick (log entry 141), VALUE = sat(round(S (1 +
G / 4,194,304)) + OFS), OVL where the modulator overloaded, an input lay beyond full scale or the value saturated,
SETTLE and HOLD 0, RNG 0 and its number. (rests on R139, R142, R145, R146, R148, R149, R150, R154) -/
def Obligations.SampleWords : Prop :=
  ∀ (s : State) (v : Vector AdcIn 16) (ovl : BitVec 16) (t : TickIn) (ts : List TickIn) (n c : Nat),
    s.dev.domOn .met = true → s.dev.qty.closed = [] → s.dev.fe.ticks = t :: ts → n < 16 → t.cfg[n]? = some c →
    Effects (.sampleWordsEmit v ovl) s fun e =>
      e.fe.ticks = ts ∧ e.fe.last = (t.cyc, t.tick)
      ∧ (cfgEn c = false → e.rd (Reg.MET_FE_LAST n) = 0 ∧ e.f (Fld.MET_FE_CH_STAT_SETTLE_LEFT n) = 0)
      ∧ (cfgEn c = true → s.dev.feChan n = {} →
          bit (e.rd (Reg.MET_FE_LAST n)) 7 = true ∧ bits (e.rd (Reg.MET_FE_LAST n)) 0 4 = n
          ∧ e.f (Fld.MET_FE_CH_STAT_SETTLE_LEFT n) = 11 ∧ Ev.MET_FE_SETTLE ∈ e.edges)
      ∧ (cfgEn c = true → bit c 11 = false → bit t.wrote n = false → (s.dev.feChan n).cfg = some c →
          (s.dev.feChan n).gain = some (cfgPga c) → (s.dev.feChan n).rem = 0 → (s.dev.feChan n).low = false →
          let a := (v.toList[n]?).getD ⟨[], 0⟩
          let xs := a.x.map (adcValue (cfgPga c))
          let smp := (xs.foldl (fun h x => h.take c x.1) (s.dev.feChan n)).sample t n a.fir
          let raw := roundDiv (smp * (4194304 + (t.gc[n]?).getD 0)) 4194304
            + sgn 24 (s.dev.f (Fld.MET_CAL_OFS_OFS n))
          let w := e.rd (Reg.MET_FE_LAST n)
          sgn 24 (bits w 8 24) = max (-8388607) (min 8388607 raw)
          ∧ bit w 7 = false ∧ (bit w 6 = true ↔ (bit ovl.toNat n = true ∨ xs.any (·.2) = true ∨ raw < -8388607 ∨ 8388607 < raw))
          ∧ bit w 5 = false ∧ bit w 4 = false ∧ bits w 0 4 = n)

/-- Modes that a channel does not allow. CH_CFG_WRITE of channel n by a requester that may write MET_FE: where MODE is
a code that R137 does not allow on channel n (VOLT alone on MCH0-2, 7, 9, 11, 13; SHUNT, CT, COIL on MCH3-6; these and
DCSHUNT on MCH8, 10, 12, 14; codes 0-4 on MCH15; so codes 5-7 nowhere), the write is not performed - no register and
no unit changes but by the follow-up work - and CFG_ERR is raised. Where the mode is allowed, the page unlocked and
the lifecycle UNSEALED, MODE and EN take the values written and no CFG_ERR is raised by it. (formalises R138) -/
def Obligations.ModesNotAllowed : Prop :=
  ∀ (s : State) (r : Requester) (n : Fin 16) (data : Word), s.dev.writable r .metFe = true →
    let m := bits data.toNat 1 3
    let allowed := (n.val ∈ [0, 1, 2, 7, 9, 11, 13] ∧ m = 0) ∨ (n.val ∈ [3, 4, 5, 6] ∧ 1 ≤ m ∧ m ≤ 3)
      ∨ (n.val ∈ [8, 10, 12, 14] ∧ 1 ≤ m ∧ m ≤ 4) ∨ (n.val = 15 ∧ m ≤ 4)
    (¬ allowed → s.dev.calm = true → Yields (.chCfgWrite r n data) s fun e =>
      s.dev.keeps e [] ∧ e.units = s.dev.units ∧ e.pends Ev.MET_FE_CFG_ERR = true)
    ∧ (allowed → s.dev.locked .metFe (0x40 + 4 * n.val) = false → s.dev.unsealed = true →
      Effects (.chCfgWrite r n data) s fun e =>
        e.f (Fld.MET_FE_CH_CFG_MODE n.val) = m ∧ e.on (Fld.MET_FE_CH_CFG_EN n.val) = bit data.toNat 0
        ∧ bit e.fe.wrote n.val = true ∧ (Ev.MET_FE_CFG_ERR ∈ e.edges → Ev.MET_FE_CFG_ERR ∈ s.dev.edges))

/-- Range up and pulse inputs. RANGE_UP takes an enabled, ranging channel in the low range, whose RUP_CYC qualifying
cycles have closed, to the high range, counts the switch and raises RANGE_CHG. CNT_IN_CHANGE records the level of the
ball and nothing else. CNT_COUNT accepts the level: where it is new and EN is set and EDGE matches (rising, falling or
both), CNT goes up by one mod 2^32 - from the value written in the same period, if a requester that may write the
unlocked page wrote one - and CNT_EDGE is raised, CNT_WRAP at 0; the stamp is the mains time, or NOTIME where the MAE
does not run; a level that is not new counts nothing. (rests on R143, R156, R157, R158) -/
def Obligations.RangeUpAndPulseInputs : Prop :=
  (∀ (s : State) (n : Fin 16) (c : Nat), (s.dev.feChan n.val).cfg = some c → cfgEn c = true → cfgRanging c = true →
    (s.dev.feChan n.val).low = true → (s.dev.feChan n.val).closed = true → cfgRup c ≤ (s.dev.feChan n.val).run →
    Effects (.rangeUp n) s fun e =>
      (e.feChan n.val).low = false ∧ e.f (Fld.MET_FE_CH_STAT_RNG n.val) = 0
      ∧ e.f (Fld.MET_FE_CH_STAT_RCHG_CNT n.val) = satInc 16 (s.dev.f (Fld.MET_FE_CH_STAT_RCHG_CNT n.val))
      ∧ e.edges = s.dev.edges ++ [Ev.MET_FE_RANGE_CHG]
      ∧ (∀ m, m ≠ n.val → e.feChan m = s.dev.feChan m) ∧ (∀ a, a ≠ Reg.MET_FE_CH_STAT n.val → e.rd a = s.dev.rd a))
  ∧ (∀ (s : State) (n : Fin 4) (level : Bool), s.dev.calm = true →
    Yields (.cntInChange n level) s fun e =>
      e.fe = { s.dev.fe with pins := vSet s.dev.fe.pins n.val level } ∧ vGet e.fe.pins n.val false = level ∧ s.dev.keeps e [])
  ∧ ∀ (s : State) (n : Fin 4) (wrote : Option WordWrite),
    let lvl := vGet s.dev.fe.pins n.val false
    let edge := s.dev.f (Fld.MET_FE_CNT_CFG_EDGE n.val)
    let base := match wrote with
      | some w => if s.dev.writable w.req .metFe = true ∧ bit (s.dev.rd (Reg.PG_LOCK .metFe)) 0 = false then w.data.toNat
                  else s.dev.rd (Reg.MET_FE_CNT n.val)
      | none => s.dev.rd (Reg.MET_FE_CNT n.val)
    (s.dev.on (Fld.MET_FE_CNT_CFG_LEVEL n.val) = lvl → Effects (.cntCount n wrote) s fun e =>
      e.rd (Reg.MET_FE_CNT n.val) = base ∧ (wrote = none → e = s.dev.answer .none)
      ∧ (Ev.MET_FE_CNT_EDGE n.val ∈ e.edges → Ev.MET_FE_CNT_EDGE n.val ∈ s.dev.edges))
    ∧ (s.dev.on (Fld.MET_FE_CNT_CFG_LEVEL n.val) ≠ lvl → s.dev.on (Fld.MET_FE_CNT_CFG_EN n.val) = true →
      (edge = 2 ∨ (edge = 1 ∧ lvl = false) ∨ (edge ≠ 1 ∧ edge ≠ 2 ∧ lvl = true)) →
      Effects (.cntCount n wrote) s fun e =>
        e.rd (Reg.MET_FE_CNT n.val) = (base + 1) % 2 ^ 32 ∧ e.on (Fld.MET_FE_CNT_CFG_LEVEL n.val) = lvl
        ∧ Ev.MET_FE_CNT_EDGE n.val ∈ e.edges ∧ ((base + 1) % 2 ^ 32 = 0 → Ev.MET_FE_CNT_WRAP n.val ∈ e.edges)
        ∧ (s.dev.mae.running = true → e.f (Fld.MET_FE_CNT_AT_TICK n.val) = s.dev.mae.tick
            ∧ e.f (Fld.MET_FE_CNT_AT_CYC n.val) = s.dev.mae.cyc.toNat % 65536 ∧ e.f (Fld.MET_FE_CNT_AT_NOTIME n.val) = 0)
        ∧ (s.dev.mae.running = false → e.f (Fld.MET_FE_CNT_AT_NOTIME n.val) = 1))
    ∧ (s.dev.on (Fld.MET_FE_CNT_CFG_LEVEL n.val) ≠ lvl →
      (s.dev.on (Fld.MET_FE_CNT_CFG_EN n.val) = false ∨ (edge = 1 ∧ lvl = true) ∨ (edge ≠ 1 ∧ edge ≠ 2 ∧ lvl = false)) →
      Effects (.cntCount n wrote) s fun e =>
        e.rd (Reg.MET_FE_CNT n.val) = base ∧ e.on (Fld.MET_FE_CNT_CFG_LEVEL n.val) = lvl
        ∧ (wrote = none → e.edges = s.dev.edges)
        ∧ (Ev.MET_FE_CNT_EDGE n.val ∈ e.edges → Ev.MET_FE_CNT_EDGE n.val ∈ s.dev.edges))

/-- The publication of a cycle. CYCLE_PUBLISH, with MET on, of the oldest closed cycle c of N emitted ticks: QCYC is
c, QSTAT.N is N, SEQ goes up by one mod 256, SPLICED is shown and raised exactly where N is below 256, CYC_DONE is
raised, and each RMS that fits its register is the root of the mean square rounded to nearest. An outlet that is
enabled, of type AC and fits its type adds max(0, E) to DLV and max(0, -E) to RTN of the tariff taken for the cycle,
where E is the sum of v i and the times, in whole mWh with the remainder carried: total times unit plus remainder
grows by exactly that energy (mod 2^64 of the total); its totals under other tariffs do not change. The cycle is no
longer pending; those that closed after it still are. (rests on R160, R162, R165, R166, R168, R171) -/
def Obligations.CyclePublication : Prop :=
  ∀ (s : State) (c : Closed) (cs : List Closed) (n k : Nat), s.dev.domOn .met = true → s.dev.qty.closed = c :: cs → c.rows.length ≤ 256 → n < 16 → k < 4 →
    Effects .cyclePublish s fun e =>
      e.qty.closed = cs ∧ e.rd Reg.MET_QTY_QCYC = c.cyc.toNat ∧ e.f Fld.MET_QTY_QSTAT_N = c.rows.length
      ∧ e.f Fld.MET_QTY_QSTAT_SEQ = (s.dev.f Fld.MET_QTY_QSTAT_SEQ + 1) % 256
      ∧ (e.f Fld.MET_QTY_QSTAT_SPLICED = 1 ↔ c.rows.length < 256)
      ∧ (c.rows.length < 256 → Ev.MET_QTY_SPLICED ∈ e.edges) ∧ Ev.MET_QTY_CYC_DONE ∈ e.edges
      ∧ e.rd Reg.MET_QTY_FREQ = (2 * (c.freq * 1000) + 65536) / 131072 % 2 ^ 32
      ∧ (0 < c.rows.length → 4 * squares c.rows n < c.rows.length * 2 ^ 46 * (2 ^ 66 - 2 ^ 34) →
          let m := c.rows.length * 2 ^ 46
          let r := e.rd (Reg.MET_QTY_RMS n)
          4 * squares c.rows n < (2 * r + 1) * (2 * r + 1) * m ∧ (0 < r → (2 * r - 1) * (2 * r - 1) * m ≤ 4 * squares c.rows n))
      ∧ (s.dev.on (Fld.ENERGY_OUT_CFG_EN k) = true → s.dev.typeFits k = true → s.dev.on (Fld.ENERGY_OUT_CFG_TYPE k) = false →
          ∀ t, (s.dev.cycRec c.cyc).tariff[k]? = some t → 1 ≤ t → t ≤ 8 →
          let en := rawEnergy c.rows (4 + k)
          let lo (x : Nat) := Reg.ENERGY_TOT_LO k t x
          e.rd64 (lo 0) = (s.dev.rd64 (lo 0) + ((vGet s.dev.rem.out k (0, 0)).1 + en.toNat) / energyDen) % 2 ^ 64
          ∧ e.rd64 (lo 1) = (s.dev.rd64 (lo 1) + ((vGet s.dev.rem.out k (0, 0)).2 + (-en).toNat) / energyDen) % 2 ^ 64
          ∧ vGet e.rem.out k (0, 0) = (((vGet s.dev.rem.out k (0, 0)).1 + en.toNat) % energyDen,
              ((vGet s.dev.rem.out k (0, 0)).2 + (-en).toNat) % energyDen)
          ∧ ∀ u x, 1 ≤ u → u ≤ 8 → x < 2 → u ≠ t → e.rd64 (Reg.ENERGY_TOT_LO k u x) = s.dev.rd64 (Reg.ENERGY_TOT_LO k u x))

/-- The shadow of the cycle and the ends of pulses. QSTAT_READ answers QSTAT and copies every per-cycle register of
the page into the reader's shadow, and no other requester's shadow changes; a read of a per-cycle register by a
requester answers its own shadow. PULSE_ACTIVE_END of a pulse in its active time makes the output inactive and starts
the gap. PULSE_GAP_END, with MET on, of a gap with a backlog takes one request off it and starts the next pulse, which
is counted (mod 2^32); with none the output is idle; with MET isolated or off it changes nothing. No other register
changes. (rests on R161, R175, R176) -/
def Obligations.CycleShadowAndPulses : Prop :=
  (∀ (s : State) (r : Requester), s.dev.calm = true → s.dev.opens r .metQty = true →
    Yields (.qstatRead r) s fun e =>
      e.bus = .data (BitVec.ofNat 32 (s.dev.rd Reg.MET_QTY_QSTAT))
      ∧ (∀ a, isQtyReg a = true → (e.cap r).qty.get regReset a = BitVec.ofNat 32 (s.dev.rd a))
      ∧ (∀ q : Requester, q.capture ≠ r.capture → e.cap q = s.dev.cap q) ∧ s.dev.keeps e [])
  ∧ (∀ (s : State) (r : Requester) (off : Nat), s.dev.calm = true → s.dev.opens r .metQty = true → 0x44 ≤ off → off < 0x240 → off % 4 = 0 →
    Yields (.read64Low r (pageBase .metQty + off)) s fun e =>
      e.bus = .data ((s.dev.cap r).qty.get regReset (pageBase .metQty + off)) ∧ s.dev.keeps e [] ∧ e.units = s.dev.units)
  ∧ (∀ (s : State) (m : Fin 2), s.dev.calm = true → (s.dev.pulse m.val).phase = 1 →
    Yields (.pulseActiveEnd m) s fun e =>
      (e.pulse m.val).phase = 2 ∧ e.f (Fld.PULSE_PLS_STAT_ACTIVE m.val) = 0
      ∧ e.f (Fld.PULSE_PLS_STAT_BACKLOG m.val) = s.dev.f (Fld.PULSE_PLS_STAT_BACKLOG m.val)
      ∧ (e.pulse m.val).acc = (s.dev.pulse m.val).acc ∧ s.dev.keeps e [Reg.PULSE_PLS_STAT m.val])
  ∧ (∀ (s : State) (m : Fin 2), s.dev.domOn .met = false → Effects (.pulseGapEnd m) s fun e => e = s.dev.answer .none)
  ∧ ∀ (s : State) (m : Fin 2), s.dev.domOn .met = true → (s.dev.pulse m.val).phase = 2 →
    Effects (.pulseGapEnd m) s fun e =>
      (s.dev.f (Fld.PULSE_PLS_STAT_BACKLOG m.val) = 0 → (e.pulse m.val).phase = 0 ∧ e.regs = s.dev.regs)
      ∧ (0 < s.dev.f (Fld.PULSE_PLS_STAT_BACKLOG m.val) →
          e.f (Fld.PULSE_PLS_STAT_BACKLOG m.val) = s.dev.f (Fld.PULSE_PLS_STAT_BACKLOG m.val) - 1
          ∧ (e.pulse m.val).phase = 1 ∧ e.f (Fld.PULSE_PLS_STAT_ACTIVE m.val) = 1
          ∧ e.rd (Reg.PULSE_PLS_CNT m.val) = (s.dev.rd (Reg.PULSE_PLS_CNT m.val) + 1) % 2 ^ 32)
      ∧ (∀ a, a ≠ Reg.PULSE_PLS_STAT m.val → a ≠ Reg.PULSE_PLS_CNT m.val → e.rd a = s.dev.rd a)

/-- The code corrects every single error, detects every double one and every one-bit address error. For every bank,
word and 32-bit datum: the stored codeword reads as clean with its data; with any one data bit turned over it reads as
CE_DATA of exactly that bit; with any one check bit turned over as CE_CHECK; with any two of its 39 bits turned over
as UNC; and the valid codeword of another word whose address code differs in exactly one bit reads as ADDR, whatever
its data. (rests on R186, R187, R188) -/
def Obligations.CodeCorrectsAndDetects : Prop :=
  ∀ (b w x : Nat), x < 2 ^ 32 →
    let c := encodeWord b w x
    classify (syndrome b w c) = .clean ∧ bits c.toNat 0 32 = x
    ∧ (∀ i < 32, classify (syndrome b w (c ^^^ BitVec.ofNat 39 (2 ^ i))) = .ceData i
        ∧ bits (c ^^^ BitVec.ofNat 39 (2 ^ i)).toNat 0 32 ^^^ 2 ^ i = x)
    ∧ (∀ i, 32 ≤ i → i < 39 → classify (syndrome b w (c ^^^ BitVec.ofNat 39 (2 ^ i))) = .ceCheck
        ∧ bits (c ^^^ BitVec.ofNat 39 (2 ^ i)).toNat 0 32 = x)
    ∧ (∀ i j, i < j → j < 39 → classify (syndrome b w (c ^^^ BitVec.ofNat 39 (2 ^ i) ^^^ BitVec.ofNat 39 (2 ^ j))) = .unc)
    ∧ ∀ b' w' k : Nat, k < 16 → addrCode b' w' = addrCode b w ^^^ 2 ^ k →
        classify (syndrome b' w' c) = .addr

/-- A cleared word reads as UNC at every address. For every bank and word: the all-zero codeword has the syndrome H(A)
XOR 0x14, where H(A) is the XOR of the address columns of the set bits of the word's address code A; that value is not
0, no single bit, no data column and no address column; so the class is UNC (address code 0 included). (formalises
R196) -/
def Obligations.ClearedWordsReadUncorrectable : Prop :=
  ∀ (b w : Nat),
    let h := xorCols (addrCode b w) 0 (addrCols ++ addrCols)
    let σ := syndrome b w 0
    σ = h ^^^ 0x14 ∧ σ ≠ 0 ∧ (∀ k < 7, σ ≠ 2 ^ k) ∧ σ ∉ dataCols ∧ σ ∉ addrCols ∧ classify σ = .unc
    ∧ (addrCode b w = 0 → σ = 0x14)

/-- Reads and writes of SRAM words. Where the requester reaches the bank and owns it, no clear and no handover holds
the access: MEMORY_READ of a clean word answers its data and changes nothing but the cells that have turned over; of a
correctable one it answers the corrected data, writes the corrected codeword back, counts the correction and raises
CE; of an uncorrectable one it answers an error, counts it, raises UE and leaves the word. A requester that does not
own the bank gets an error and NONOWNER, and no word changes. MEMORY_WRITE stores the codeword of the data and no
other word of memory and no register changes (no word past the end). MEMORY_PARTIAL_WRITE merges its byte into the
corrected old word, and where that is uncorrectable answers an error, raises RMW_FAIL and leaves the word. (rests on
R182, R186, R188, R189, R190, R191) -/
def Obligations.SramReadsAndWrites : Prop :=
  ∀ (s : State) (r : Requester) (b : Fin 23) (w : Nat), w < bankWords b.val → s.dev.clearing = false → s.dev.inTransit r b.val = false →
    (s.dev.admits r (.sram b.val w) false = true → ∀ flips : Codeword,
      let c := s.dev.codeword b.val w ^^^ flips
      let cls := classify (syndrome b.val w c)
      let x := bits c.toNat 0 32
      (s.dev.owns r.group b.val = true → Effects (.memoryRead r b w w flips) s fun e =>
        (cls = .clean → e.bus = .data (BitVec.ofNat 32 x) ∧ e.codeword b.val w = c ∧ e.regs = s.dev.regs ∧ e.edges = s.dev.edges)
        ∧ (∀ i, cls = .ceData i → e.bus = .data (BitVec.ofNat 32 (x ^^^ 2 ^ i))
            ∧ e.codeword b.val w = encodeWord b.val w (x ^^^ 2 ^ i) ∧ Ev.MEMCTL_CE ∈ e.edges
            ∧ e.f (Fld.MEMCTL_ECC_CNT_CE b.val) = satInc 16 (s.dev.f (Fld.MEMCTL_ECC_CNT_CE b.val)))
        ∧ (cls = .ceCheck → e.bus = .data (BitVec.ofNat 32 x) ∧ e.codeword b.val w = encodeWord b.val w x
            ∧ Ev.MEMCTL_CE ∈ e.edges
            ∧ e.f (Fld.MEMCTL_ECC_CNT_CE b.val) = satInc 16 (s.dev.f (Fld.MEMCTL_ECC_CNT_CE b.val)))
        ∧ ((cls = .addr ∨ cls = .unc) → e.bus = .error ∧ e.codeword b.val w = c ∧ Ev.MEMCTL_UE ∈ e.edges
            ∧ (cls = .addr → Ev.MEMCTL_ADDR_ERR ∈ e.edges)
            ∧ e.f (Fld.MEMCTL_ECC_CNT_UE b.val) = satInc 16 (s.dev.f (Fld.MEMCTL_ECC_CNT_UE b.val))))
      ∧ (s.dev.owns r.group b.val = false → Effects (.memoryRead r b w w flips) s fun e =>
          e.bus = .error ∧ Ev.MEMCTL_NONOWNER ∈ e.edges ∧ e.rd Reg.MEMCTL_NONOWN_ADDR = bankAddr b.val w ∧ e.mem = s.dev.mem))
    ∧ (s.dev.admits r (.sram b.val w) true = true → s.dev.owns r.group b.val = true → b.val ≠ 19 → ∀ data : Word,
      (b.val ≠ 21 → Effects (.memoryWrite r b w data) s fun e =>
        e.bus = .done ∧ e.codeword b.val w = encodeWord b.val w data.toNat
        ∧ (∀ b' w', sramKey b' w' ≠ sramKey b.val w → e.codeword b' w' = s.dev.codeword b' w')
        ∧ e.regs = s.dev.regs ∧ e.edges = s.dev.edges)
      ∧ (b.val = 21 → (r.legal = true ∨ s.dev.legalTask (w / 4) = false) → Effects (.memoryWrite r b w data) s fun e =>
        e.bus = .done ∧ e.codeword b.val w = encodeWord b.val w data.toNat)
      ∧ (b.val ≠ 21 → ∀ lane : Fin 4,
        (∀ old, s.dev.memPeek b.val w = some old → Effects (.memoryPartialWrite r b w lane false data) s fun e =>
          e.bus = .done ∧ ∃ new, e.codeword b.val w = encodeWord b.val w new ∧ new < 2 ^ 32
            ∧ ∀ i < 4, bits new (8 * i) 8 = if i = lane.val then data.toNat % 256 else bits old (8 * i) 8)
        ∧ (s.dev.memPeek b.val w = none → Effects (.memoryPartialWrite r b w lane false data) s fun e =>
          e.bus = .error ∧ Ev.MEMCTL_RMW_FAIL ∈ e.edges ∧ Ev.MEMCTL_UE ∈ e.edges
          ∧ e.codeword b.val w = s.dev.codeword b.val w)))

/-- Handovers, the clear and held port A accesses. BANK_HANDOVER of a shared bank (MEMCTL open and unlocked): naming
the present owner changes nothing; else it is performed exactly where the group named is not code 7 and the writer is
the handover writer (legal side for groups 1, 3, 5; the AC for 2, 4, 6) of the owner, or of the claimed group on a
NONE bank: OWNER, PREV and IN_TRANSIT are set; a refused one raises OWN_REFUSED and no register changes. A write for a
legal bank changes nothing. HANDOVER_DONE clears IN_TRANSIT with its event. MEMORY_CLEAR_START by the legal side
begins a clear unless one runs, from which on every word of banks 0-21 is 0 for the accesses that follow it (log entry
134) and the AON RAM is as it was; CLEAR_DONE leaves BUSY 0 and DONE 1, with its event, and no word changed.
DPM_PORT_A_RETRY ends the wait: a served access lets the core run its instruction (with AT_LIMIT where it came in the
last clock), and without a waiting access nothing changes. (rests on R179, R180, R181, R195, R200) -/
def Obligations.HandoversAndClear : Prop :=
  (∀ (s : State) (r : Requester) (b : Fin 20) (g : Fin 8), s.dev.writable r .memctl = true → b.val < 16 →
    s.dev.locked .memctl (0x40 + 4 * b.val) = false →
    let cur := s.dev.f (Fld.MEMCTL_BANK_OWN_OWNER b.val)
    let writes (q : Nat) := (q ∈ [1, 3, 5] ∧ r.legal = true) ∨ (q ∈ [2, 4, 6] ∧ (r = .ac ∨ r = .acDbg))
    Effects (.bankHandover r b g) s fun e =>
      (g.val = cur → e.regs = s.dev.regs ∧ e.edges = s.dev.edges)
      ∧ (g.val ≠ cur → g.val ≠ 7 → (if cur = 0 then writes g.val else writes cur) →
          e.f (Fld.MEMCTL_BANK_OWN_OWNER b.val) = g.val ∧ e.f (Fld.MEMCTL_BANK_OWN_PREV b.val) = cur
          ∧ e.f (Fld.MEMCTL_BANK_OWN_IN_TRANSIT b.val) = 1 ∧ e.edges = s.dev.edges
          ∧ ∀ a, a ≠ Reg.MEMCTL_BANK_OWN b.val → e.rd a = s.dev.rd a)
      ∧ (g.val ≠ cur → ¬(g.val ≠ 7 ∧ (if cur = 0 then writes g.val else writes cur)) →
          e.regs = s.dev.regs ∧ e.edges = s.dev.edges ++ [Ev.MEMCTL_OWN_REFUSED])
      ∧ e.bus = .done ∧ e.mem = s.dev.mem)
  ∧ (∀ (s : State) (r : Requester) (b : Fin 20) (g : Fin 8), s.dev.writable r .memctl = true → 16 ≤ b.val →
    Effects (.bankHandover r b g) s fun e => e.regs = s.dev.regs ∧ e.edges = s.dev.edges ∧ e.bus = .done)
  ∧ (∀ (s : State) (b : Fin 16), s.dev.on (Fld.MEMCTL_BANK_OWN_IN_TRANSIT b.val) = true →
    Effects (.handoverDone b) s fun e =>
      e.f (Fld.MEMCTL_BANK_OWN_IN_TRANSIT b.val) = 0 ∧ e.f (Fld.MEMCTL_BANK_OWN_OWNER b.val) = s.dev.f (Fld.MEMCTL_BANK_OWN_OWNER b.val)
      ∧ e.edges = s.dev.edges ++ [Ev.MEMCTL_HANDOVER_DONE])
  ∧ (∀ (s : State) (r : Requester), s.dev.writable r .memctl = true → r.legal = true →
    Effects (.memoryClearStart r) s fun e =>
      e.clearing = true ∧ (s.dev.clearing = true → e.mem = s.dev.mem ∧ e.rd Reg.MEMCTL_CLEAR = s.dev.rd Reg.MEMCTL_CLEAR)
      ∧ (s.dev.clearing = false → (∀ b w, b < 22 → w < 8192 → e.codeword b w = 0)
          ∧ ∀ w, w < 8192 → e.codeword 22 w = s.dev.codeword 22 w))
  ∧ (∀ s : State, s.dev.clearing = true →
    Effects .clearDone s fun e =>
      e.mem = s.dev.mem ∧ e.clearing = false ∧ e.f Fld.MEMCTL_CLEAR_DONE = 1 ∧ e.edges = s.dev.edges ++ [Ev.MEMCTL_CLEAR_DONE])
  ∧ ∀ (s : State) (atLimit : Bool),
    (s.dev.mem.dpmWait = none → ∀ served, Effects (.dpmPortARetry served atLimit) s fun e => e = s.dev.answer .none)
    ∧ ∀ (id : CoreId) (w : Nat), s.dev.mem.dpmWait = some ⟨if id = .lc then .lc else .ac, w⟩ →
      (s.dev.coreRuns id = true → Effects (.dpmPortARetry true false) s fun e =>
        e = ({ s.dev.answer .none with mem.dpmWait := none } : Dev).coreExec id none)
      ∧ (s.dev.coreRuns id = false → Effects (.dpmPortARetry true true) s fun e =>
        e.mem.dpmWait = none ∧ e.f Fld.DPM_DPM_STAT_AT_LIMIT = 1 ∧ Ev.DPM_AT_LIMIT ∈ e.edges ∧ e.core id = s.dev.core id)

/-- Page-ins, their timeout and the stall timeout. PAGE_IN_DONE of a request for account n of the LC, HERD or a PIN
that goes into an invalid frame at the clock hand, with no other request waiting: where n is not parked, the transfers
succeeded and the chosen copy c passes its checks, the frame is VALID for n with REF 1, DIRTY 0 and SLOT c, holds the
256 bytes of that copy, PAGEIN_CNT goes up by one and the page-in is over; where neither copy is trusted, or a
transfer failed, it ends with NOCOPY or FRAM in ERR_INFO, PAGE_ERR, and no frame changes. PAGE_IN_TIMEOUT ends the
page-in with TIMEOUT and PAGE_ERR, and the LC stalled on it is to get a bus error. STALL_TO of an LC stall that is not
over raises STALL_TO, marks the access to fail, and the page-in goes on. (rests on R206, R209, R210, R211, R217) -/
def Obligations.PageIns : Prop :=
  (∀ (s : State) (q : PageReq) (ok atLimit : Bool) (dur stall : Nat), s.dev.mule.op = some q → q.src ≠ .cmd → q.acct < 1024 → s.dev.mule.hand < 64 →
    s.dev.on (Fld.MULE_FRAME_VALID s.dev.mule.hand) = false → s.dev.mule.reqs = [] → s.dev.mule.epoch = none →
    s.dev.mule.parked = [] →
    (∀ c, ok = true → s.dev.mule.framBad = false → s.dev.chooseCopy q.acct = some c →
      contextGood (s.dev.framRd (copyAddr c q.acct) 256) q.acct = true → s.dev.pinCount < 40 →
      Effects (.pageInDone ok dur stall atLimit) s fun e =>
        let f := s.dev.mule.hand
        e.on (Fld.MULE_FRAME_VALID f) = true ∧ e.f (Fld.MULE_FRAME_ACCT f) = q.acct ∧ e.f (Fld.MULE_FRAME_REF f) = 1
        ∧ e.f (Fld.MULE_FRAME_DIRTY f) = 0 ∧ e.f (Fld.MULE_FRAME_SLOT f) = c
        ∧ (∀ i < 64, e.memPeek 19 (f * 64 + i) = some (leNat (s.dev.framRd (copyAddr c q.acct + 4 * i) 4)))
        ∧ e.rd Reg.MULE_PAGEIN_CNT = satInc 32 (s.dev.rd Reg.MULE_PAGEIN_CNT) ∧ e.mule.op = none
        ∧ e.mem.fram = s.dev.mem.fram
        ∧ (atLimit = true → Ev.MULE_AT_LIMIT ∈ e.edges)
        ∧ (∀ g < 64, g ≠ f → e.rd (Reg.MULE_FRAME g) = s.dev.rd (Reg.MULE_FRAME g)))
    ∧ ((ok = false ∨ s.dev.mule.framBad = true ∨ s.dev.chooseCopy q.acct = none) →
      Effects (.pageInDone ok dur stall atLimit) s fun e =>
        Ev.MULE_PAGE_ERR ∈ e.edges ∧ e.f Fld.MULE_ERR_INFO_ACCT = q.acct ∧ e.f Fld.MULE_ERR_INFO_SRC = q.src.code
        ∧ e.f Fld.MULE_ERR_INFO_CAUSE = (if ok = true ∧ s.dev.mule.framBad = false then 3 else 1)
        ∧ e.mule.op = none ∧ (∀ g < 64, e.rd (Reg.MULE_FRAME g) = s.dev.rd (Reg.MULE_FRAME g)) ∧ e.mem = s.dev.mem))
  ∧ (∀ (s : State) (q : PageReq) (stall : Nat), s.dev.mule.op = some q → q.acct < 1024 → s.dev.mule.reqs = [] →
    s.dev.mule.epoch = none →
    Effects (.pageInTimeout stall) s fun e =>
      e.mule.op = none ∧ Ev.MULE_PAGE_ERR ∈ e.edges ∧ e.f Fld.MULE_ERR_INFO_CAUSE = 4
      ∧ e.f Fld.MULE_ERR_INFO_ACCT = q.acct ∧ 4000 ≤ e.rd Reg.MULE_PAGEIN_MAX
      ∧ (q.src = .lc → s.dev.mule.lcWait = some q.acct → e.mule.lcFail = some q.acct)
      ∧ (∀ g < 64, e.rd (Reg.MULE_FRAME g) = s.dev.rd (Reg.MULE_FRAME g)) ∧ e.mem = s.dev.mem)
  ∧ ∀ (s : State) (n : Nat), s.dev.mule.lcWait = some n → s.dev.stallOver = false →
    Effects .stallTo s fun e =>
      Ev.MULE_STALL_TO ∈ e.edges ∧ e.mule = { s.dev.mule with lcFail := some n } ∧ 2000 ≤ e.rd Reg.MULE_STALL_MAX
      ∧ ∀ a, a ≠ Reg.MULE_STALL_MAX → e.rd a = s.dev.rd a

/-- Commands of MULE. With MULE open, serving and idle, and neither PIN nor CMD busy: MULE_PIN of a resident account
pins its frame at once, of another one starts a page-in with PIN_STAT busy, and where 40 frames are pinned is refused
with PIN_FULL; MULE_UNPIN clears PIN of the account's frame. SAVE_FULL without a power-fail warning, the staging bank
not in transit, starts an epoch of cause FULL (RESTORE for the first one after a restore) in its snapshot, CMD_STAT
busy. FORMAT starts exactly in the lifecycles BLANK, PROVISIONED and UNSEALED, every frame invalid, and is refused
else. ADOPT of a resident account is refused, of another one starts its page-in. MULE_ENABLE sets EN, and where the
restore is still due it starts. (rests on R213, R214, R219, R222, R225, R227) -/
def Obligations.MuleCommands : Prop :=
  (∀ (s : State) (r : Requester) (n : Fin 1024), s.dev.writable r .mule = true → s.dev.muleReady = true →
    s.dev.mule.op = none → s.dev.mule.reqs = [] → s.dev.mule.epoch = none →
    s.dev.on Fld.MULE_PIN_STAT_BUSY = false → s.dev.on Fld.MULE_CMD_STAT_BUSY = false →
    (∀ f, s.dev.frameOf n.val = some f → s.dev.pinCount < 40 → Effects (.mulePin r n) s fun e =>
      e.f (Fld.MULE_FRAME_PIN f) = 1 ∧ e.rd Reg.MULE_PIN_STAT = 0 ∧ e.mule = s.dev.mule ∧ e.edges = s.dev.edges)
    ∧ (s.dev.frameOf n.val = none → s.dev.pinCount < 40 → Effects (.mulePin r n) s fun e =>
      e.mule.op = some ⟨.pin, n.val⟩ ∧ e.rd Reg.MULE_PIN_STAT = 1 ∧ e.edges = s.dev.edges)
    ∧ ((∀ f, s.dev.frameOf n.val = some f → s.dev.on (Fld.MULE_FRAME_PIN f) = false) → 40 ≤ s.dev.pinCount →
      Effects (.mulePin r n) s fun e =>
        e.rd Reg.MULE_PIN_STAT = 16 ∧ Ev.MULE_PIN_FULL ∈ e.edges ∧ e.mule = s.dev.mule
        ∧ ∀ g < 64, e.rd (Reg.MULE_FRAME g) = s.dev.rd (Reg.MULE_FRAME g))
    ∧ (∀ f, s.dev.frameOf n.val = some f → Effects (.muleUnpin r n) s fun e =>
      e.f (Fld.MULE_FRAME_PIN f) = 0 ∧ e.f (Fld.MULE_FRAME_ACCT f) = n.val ∧ e.mule = s.dev.mule
      ∧ ∀ g < 64, g ≠ f → e.rd (Reg.MULE_FRAME g) = s.dev.rd (Reg.MULE_FRAME g))
    ∧ (s.dev.on Fld.PWR_SUPPLY_PFW = false → s.dev.stageOk = true →
      s.dev.on (Fld.MEMCTL_BANK_OWN_IN_TRANSIT s.dev.stageBank) = false → Effects (.saveFull r) s fun e =>
      (∃ x : Epoch, e.mule = { s.dev.mule with epoch := some x } ∧ x.phase = .snapshot ∧ x.full = true ∧ x.byCmd = true
        ∧ x.cause = if s.dev.mule.fresh = true then 4 else 2)
      ∧ e.rd Reg.MULE_CMD_STAT = 1 ∧ e.edges = s.dev.edges)
    ∧ ((s.dev.lifecycle = .blank ∨ s.dev.lifecycle = .provisioned ∨ s.dev.lifecycle = .unsealed) →
      Effects (.format r) s fun e =>
        e.mule.store = .formatting ∧ e.rd Reg.MULE_CMD_STAT = 1 ∧ (∀ f < 64, e.rd (Reg.MULE_FRAME f) = 0)
        ∧ e.mem = s.dev.mem)
    ∧ ((s.dev.lifecycle = .sealed ∨ s.dev.lifecycle = .retired) → Effects (.format r) s fun e =>
      e.f Fld.MULE_CMD_STAT_RESULT = 15 ∧ e.mule = s.dev.mule ∧ e.mem = s.dev.mem)
    ∧ (s.dev.frameOf n.val ≠ none → Effects (.adopt r n) s fun e => e.f Fld.MULE_CMD_STAT_RESULT = 15 ∧ e.mule = s.dev.mule)
    ∧ (s.dev.frameOf n.val = none → Effects (.adopt r n) s fun e =>
      e.mule.op = some ⟨.cmd, n.val⟩ ∧ e.rd Reg.MULE_CMD_STAT = 1 ∧ e.edges = s.dev.edges))
  ∧ ∀ (s : State) (r : Requester), s.dev.writable r .mule = true → s.dev.locked .mule 0x40 = false →
    (Effects (.muleEnable r) s fun e =>
      e.on Fld.MULE_CTRL_EN = true ∧ e.stageBank = s.dev.stageBank ∧ e.mule = s.dev.mule ∧ e.edges = s.dev.edges)
    ∧ (s.dev.mule.store = .notReady → s.dev.domOn .lgl = true → s.dev.domOn .sys = true → s.dev.clearing = false →
      s.dev.boot.appDue = false → s.dev.mule.reports = [] → s.dev.herd.running = [] → s.dev.herd.asks = [] →
      s.dev.ports.host.tx = none → s.dev.ports.uart.stop = false → s.dev.pwr.pend = none → s.dev.watch.checkMode = false →
      ∃ t, exec (.muleEnable r) s = .next t ∧ t.dev.mule.store = .restoring)

/-- An epoch whose transfers fail is abandoned. Where a FRAM transfer of an epoch in its save phase fails (EPOCH_DONE
with a failed transfer; MSPI_TRANSFER_DONE whose status fails its check; MSPI_TIMEOUT; no quiesce epoch owed, no
request waiting), no epoch runs any more; EPOCH_FAIL is raised and counted; no byte of the FRAM changes, so the OPEN
header and its WRITTEN map stand and nothing is committed; LAST_COMMIT and EPOCH_OPEN hold and the contexts that the
epoch had staged are dirty again, so that a following BACKSTOP whose period has passed starts an epoch again that
carries the number EPOCH_OPEN as before. (formalises R223) -/
def Obligations.FailedEpochIsAbandoned : Prop :=
  ∀ (s : State) (ep : Epoch), s.dev.mule.epoch = some ep → ep.phase = .saving →
    s.dev.mule.owed = false → s.dev.mule.reqs = [] → s.dev.mule.op = none →
    (∀ c : Instr, (c = .epochDone false
        ∨ s.dev.domOn .per = true ∧ s.dev.mule.store = .ready ∧ (c = .mspiTimeout ∨ ∃ (st : BitVec 8) (lim : Bool),
            c = .mspiTransferDone st lim ∧ st.toNat &&& s.dev.f Fld.MSPI_SR_CHK_MASK ≠ s.dev.f Fld.MSPI_SR_CHK_EXP)) →
      Effects c s fun e =>
      e.mule.epoch = none ∧ Ev.MULE_EPOCH_FAIL ∈ e.edges
      ∧ e.rd Reg.MULE_EPOCH_FAIL_CNT = satInc 32 (s.dev.rd Reg.MULE_EPOCH_FAIL_CNT)
      ∧ e.mem.fram = s.dev.mem.fram ∧ e.rd Reg.MULE_LAST_COMMIT = s.dev.rd Reg.MULE_LAST_COMMIT
      ∧ e.rd Reg.MULE_EPOCH_OPEN = s.dev.rd Reg.MULE_EPOCH_OPEN ∧ e.rd Reg.MULE_EPOCH_CNT = s.dev.rd Reg.MULE_EPOCH_CNT
      ∧ Ev.MULE_EPOCH_DONE ∉ e.edges.drop s.dev.edges.length
      ∧ ∀ f ∈ ep.dirty, f < 64 → e.f (Fld.MULE_FRAME_DIRTY f) = 1)
    ∧ ∀ u : State, u.dev.mule.epoch = none → u.dev.muleReady = true → u.dev.on Fld.PWR_SUPPLY_PFW = false →
      u.dev.mule.op = none → u.dev.mule.reqs = [] → u.dev.stageOk = true →
      u.dev.on (Fld.MEMCTL_BANK_OWN_IN_TRANSIT u.dev.stageBank) = false → u.dev.savePeriod ≤ u.dev.rd Reg.MULE_SINCE →
      u.dev.rd Reg.MULE_EPOCH_OPEN = s.dev.rd Reg.MULE_EPOCH_OPEN →
      Effects .backstop u fun e =>
        e.mule.epoch = some { cause := if u.dev.mule.fresh = true then 4 else 0, full := false, phase := .snapshot }
        ∧ e.edges = u.dev.edges ++ [Ev.MULE_BACKSTOP]
        ∧ e.rd Reg.MULE_EPOCH_OPEN = s.dev.rd Reg.MULE_EPOCH_OPEN ∧ e.mem = u.dev.mem

/-- A commit leaves a slot that a restore accepts. SNAPSHOT_DONE of an epoch in its snapshot, with MULE owning the
staging bank and no request waiting, enters the save phase: every frame is clean, the staged frames are the valid ones
that were dirty (all with FULL), those that were dirty are remembered, CYC is taken and the count since the last
snapshot restarts. EPOCH_DONE of an epoch in its save phase whose transfers succeed, with no forced set, commits: the
slot of the number EPOCH_OPEN reads as committed with that number by the checks of the restore (magic, format, state
and both CRCs), LAST_COMMIT is that number and EPOCH_OPEN the next one, whose slot is not committed, EPOCH_CNT goes up
by one, nothing is parked any more, no epoch runs, and EPOCH_DONE is raised. (rests on R215, R216, R220, R225) -/
def Obligations.CommitIsAcceptedByRestore : Prop :=
  (∀ (s : State) (ep : Epoch) (stall : Nat), s.dev.mule.epoch = some ep → ep.phase = .snapshot → s.dev.stageOk = true →
    s.dev.mule.reqs = [] → s.dev.mule.op = none →
    Effects (.snapshotDone stall) s fun e =>
      (∃ x, e.mule.epoch = some x ∧ x.phase = .saving ∧ x.cyc = s.dev.mae.cyc.toNat ∧ x.cause = ep.cause ∧ x.full = ep.full
        ∧ ∀ f < 64, (f, s.dev.f (Fld.MULE_FRAME_ACCT f)) ∈ x.staged ↔
            (s.dev.on (Fld.MULE_FRAME_VALID f) = true ∧ (ep.full = true ∨ s.dev.on (Fld.MULE_FRAME_DIRTY f) = true)))
      ∧ (∃ x, e.mule.epoch = some x ∧ ∀ f < 64, f ∈ x.dirty ↔
            (s.dev.on (Fld.MULE_FRAME_VALID f) = true ∧ s.dev.on (Fld.MULE_FRAME_DIRTY f) = true))
      ∧ (∀ f < 64, e.on (Fld.MULE_FRAME_VALID f) = true → e.f (Fld.MULE_FRAME_DIRTY f) = 0)
      ∧ e.rd Reg.MULE_SINCE = 0 ∧ e.mem.fram = s.dev.mem.fram)
  ∧ ∀ (s : State) (ep : Epoch), s.dev.mule.epoch = some ep → ep.phase = .saving → s.dev.stageOk = true →
    s.dev.mule.owed = false → s.dev.mule.reqs = [] → s.dev.mule.op = none → s.dev.mule.store = .ready →
    s.dev.forcedSet = [] → (∀ p ∈ ep.staged, p.2 < 1024) → (∀ p ∈ s.dev.mule.parked, p.acct < 1024) →
    let n := s.dev.rd Reg.MULE_EPOCH_OPEN
    Effects (.epochDone true) s fun e =>
      e.committed (slotBase n) = some n ∧ e.rd Reg.MULE_LAST_COMMIT = n ∧ e.rd Reg.MULE_EPOCH_OPEN = (n + 1) % 2 ^ 32
      ∧ e.committed (slotBase (n + 1)) = none
      ∧ e.rd Reg.MULE_EPOCH_CNT = satInc 32 (s.dev.rd Reg.MULE_EPOCH_CNT)
      ∧ e.mule.parked = [] ∧ e.mule.epoch = none ∧ Ev.MULE_EPOCH_DONE ∈ e.edges

/-- Restores and formats. RESTORE_DONE with no quiesce epoch owed: a device header that is absent, a DEV_ID that is
not the device's, or no committed slot makes it fail with BLANK, FOREIGN or NO_COMMIT (RESULT 5, 4, 3) and
RESTORE_FAIL, MULE then holding no store, and the energy totals as they were. Else the committed slot with the higher
epoch is taken: LAST_COMMIT is its number and EPOCH_OPEN the next, the energy totals hold the numbers of its ENERGY
image, MULE serves, and RESTORED is raised. FORMAT_DONE with good transfers leaves a device header that passes its
checks with the device's identity, slot A committed with epoch 0, EPOCH_OPEN 1, CMD_STAT 0, MULE serving, and raises
FORMAT_DONE; with a failed one MULE holds no store and CMD_STAT shows FRAM. (rests on R215, R225, R226, R227) -/
def Obligations.RestoresAndFormats : Prop :=
  (∀ s : State, s.dev.mule.store = .restoring → s.dev.mule.owed = false → s.dev.mule.framBad = false →
    let a := s.dev.committed 0x1000
    let b := s.dev.committed 0x2000
    Effects (.restoreDone true) s fun e =>
      ((s.dev.headerGood = false ∨ leNat (s.dev.framRd 8 8) ≠ s.dev.otp.devId % 2 ^ 64 ∨ (a = none ∧ b = none)) →
        e.mule.store = .failed ∧ Ev.MULE_RESTORE_FAIL ∈ e.edges
        ∧ e.f Fld.MULE_RESTORE_RESULT = (if s.dev.headerGood = false then 5
            else if leNat (s.dev.framRd 8 8) ≠ s.dev.otp.devId % 2 ^ 64 then 4 else 3)
        ∧ ∀ l ∈ energyLows, e.rd64 l = s.dev.rd64 l)
      ∧ (∀ n base, s.dev.headerGood = true → leNat (s.dev.framRd 8 8) = s.dev.otp.devId % 2 ^ 64 →
          ((base = 0x1000 ∧ a = some n ∧ ∀ m, b = some m → m < n) ∨ (base = 0x2000 ∧ b = some n ∧ ∀ m, a = some m → m ≤ n)) →
          e.mule.store = .ready ∧ Ev.MULE_RESTORED ∈ e.edges ∧ e.rd Reg.MULE_LAST_COMMIT = n
          ∧ e.rd Reg.MULE_EPOCH_OPEN = (n + 1) % 2 ^ 32
          ∧ ∀ i l, energyLows[i]? = some l → e.rd64 l = leNat (s.dev.framRd (base + 0x200 + 8 * i) 8)))
  ∧ (∀ s : State, s.dev.mule.store = .restoring → s.dev.mule.owed = false →
    Effects (.restoreDone false) s fun e =>
      e.mule.store = .failed ∧ Ev.MULE_RESTORE_FAIL ∈ e.edges ∧ e.f Fld.MULE_RESTORE_RESULT = 6 ∧ e.mem.fram = s.dev.mem.fram)
  ∧ (∀ s : State, s.dev.mule.store = .formatting → s.dev.mule.framBad = false → s.dev.mule.owed = false →
    Effects (.formatDone true) s fun e =>
      e.mule.store = .ready ∧ e.headerGood = true ∧ leNat (e.framRd 8 8) = s.dev.otp.devId % 2 ^ 64
      ∧ e.committed 0x1000 = some 0 ∧ e.committed 0x2000 = none ∧ e.rd Reg.MULE_LAST_COMMIT = 0
      ∧ e.rd Reg.MULE_EPOCH_OPEN = 1 ∧ e.rd Reg.MULE_CMD_STAT = 0 ∧ Ev.MULE_FORMAT_DONE ∈ e.edges)
  ∧ ∀ s : State, s.dev.mule.store = .formatting →
    Effects (.formatDone false) s fun e =>
      e.mule.store = .failed ∧ e.f Fld.MULE_CMD_STAT_RESULT = 1 ∧ e.mem.fram = s.dev.mem.fram

/-- The legal flash, the digest slots, the outlet enables and the legal watchdog. LFL PROG, ERASE_SECTOR and ERASE_ALL
and the digest burn are performed for the boot ROM while UNSEALED: PROG takes the 256 bytes of L0-L2 at LFL_SRC;
nothing in LFL changes yet. From anyone else, or in another lifecycle, RESULT reads REFUSED and nothing else changes.
LFL_DONE has the page hold its bytes, the sector or the array erased, and every other byte as before. The burn takes
LFL_SHA for the lowest unused slot, which DIGEST_BURN_DONE adds and shows in USED; with eight used it is refused with
SLOTS_FULL. ENA_CTRL takes the bits written, unless one of them enables an outlet that is cut: that write is not
performed. LWDG_KICK in the tick of expiry sets AT_LIMIT; LWDG_CFG is not set back to 0. LWDG (running) clears
ENA_CTRL, raises LWDG, sets RST_CAUSE bit 5 and resets LGL. (rests on R234, R235, R239, R240, R307) -/
def Obligations.LegalFlashDigestsAndWatchdog : Prop :=
  (∀ (s : State) (r : Requester) (page : Fin 1024), s.dev.writable r .fwall = true → s.dev.boot.lfl = none →
    (r = .bootRom → s.dev.lifecycle = .unsealed →
      (∀ x : Nat → Word, (∀ i < 64, s.dev.f Fld.FWALL_LFL_SRC_OFS + i < 12288
          ∧ s.dev.codeword (16 + (s.dev.f Fld.FWALL_LFL_SRC_OFS + i) / 4096) ((s.dev.f Fld.FWALL_LFL_SRC_OFS + i) % 4096)
            = encodeWord (16 + (s.dev.f Fld.FWALL_LFL_SRC_OFS + i) / 4096)
                ((s.dev.f Fld.FWALL_LFL_SRC_OFS + i) % 4096) (x i).toNat) →
        Effects (.lflProg r page) s fun e =>
          e.boot.lfl = some (.prog page.val (bytesOf ((List.range 64).map x))) ∧ e.f Fld.FWALL_LFL_STAT_BUSY = 1
          ∧ e.mem = s.dev.mem)
      ∧ (Effects (.lflEraseSector r page) s fun e =>
          e.boot.lfl = some (.eraseSector page.val) ∧ e.f Fld.FWALL_LFL_STAT_BUSY = 1 ∧ e.mem = s.dev.mem)
      ∧ (Effects (.lflEraseAll r) s fun e =>
          e.boot.lfl = some .eraseAll ∧ e.f Fld.FWALL_LFL_STAT_BUSY = 1 ∧ e.mem = s.dev.mem))
    ∧ ((r ≠ .bootRom ∨ s.dev.lifecycle ≠ .unsealed) →
      ∀ c ∈ [Instr.lflProg r page, .lflEraseSector r page, .lflEraseAll r], Effects c s fun e =>
        e.f Fld.FWALL_LFL_STAT_RESULT = 1 ∧ e.units = s.dev.units ∧ e.edges = s.dev.edges
        ∧ ∀ a, a ≠ Reg.FWALL_LFL_STAT → e.rd a = s.dev.rd a))
  ∧ (∀ (s : State) (ok : Bool) (p : Nat) (bs : List Byte), bs.length = 256 →
    (s.dev.boot.lfl = some (.prog p bs) → Effects (.lflDone ok) s fun e =>
      e.boot.lfl = none ∧ e.f Fld.FWALL_LFL_STAT_BUSY = 0 ∧ e.f Fld.FWALL_LFL_STAT_RESULT = (if ok then 0 else 2)
      ∧ (ok = true → e.lflRd (p * 256) 256 = bs)
      ∧ ∀ a, (a < p * 256 ∨ p * 256 + 256 ≤ a) → e.lflRd a 1 = s.dev.lflRd a 1)
    ∧ (s.dev.boot.lfl = some (.eraseSector p) → Effects (.lflDone ok) s fun e =>
      e.boot.lfl = none ∧ e.f Fld.FWALL_LFL_STAT_BUSY = 0 ∧ e.f Fld.FWALL_LFL_STAT_RESULT = 0
      ∧ ∀ a, e.lflRd a 1 = if a / 4096 = p / 16 then [0xFF] else s.dev.lflRd a 1)
    ∧ (s.dev.boot.lfl = some .eraseAll → Effects (.lflDone ok) s fun e =>
      e.boot.lfl = none ∧ e.f Fld.FWALL_LFL_STAT_BUSY = 0 ∧ ∀ a < 0x40000, e.lflRd a 1 = [0xFF]))
  ∧ (∀ (s : State) (r : Requester), s.dev.writable r .fwall = true → s.dev.boot.digest = none →
    (r = .bootRom → s.dev.lifecycle = .unsealed → (∃ n < 8, ∀ p ∈ s.dev.otp.digests, p.2 ≠ n) →
      Effects (.digestBurn r) s fun e =>
        e.boot.digest = some s.dev.boot.lflSha ∧ e.f Fld.FWALL_DGST_STAT_BUSY = 1 ∧ e.otp = s.dev.otp)
    ∧ (r = .bootRom → s.dev.lifecycle = .unsealed → (∀ n < 8, ∃ p ∈ s.dev.otp.digests, p.2 = n) →
      Effects (.digestBurn r) s fun e =>
        e.f Fld.FWALL_DGST_STAT_RESULT = 2 ∧ e.units = s.dev.units ∧ ∀ a, a ≠ Reg.FWALL_DGST_STAT → e.rd a = s.dev.rd a)
    ∧ ((r ≠ .bootRom ∨ s.dev.lifecycle ≠ .unsealed) → Effects (.digestBurn r) s fun e =>
        e.f Fld.FWALL_DGST_STAT_RESULT = 1 ∧ e.units = s.dev.units ∧ ∀ a, a ≠ Reg.FWALL_DGST_STAT → e.rd a = s.dev.rd a))
  ∧ (∀ (s : State) (g n : Nat), s.dev.boot.digest = some g → n < 8 → (∀ p ∈ s.dev.otp.digests, p.2 ≠ n) →
    (∀ m < n, ∃ p ∈ s.dev.otp.digests, p.2 = m) →
    Effects .digestBurnDone s fun e =>
      e.otp = { s.dev.otp with digests := s.dev.otp.digests ++ [(g, n)] } ∧ e.boot.digest = none
      ∧ e.f Fld.FWALL_DGST_STAT_BUSY = 0 ∧ e.f Fld.FWALL_DGST_STAT_RESULT = 0
      ∧ ∀ m < 8, bit (e.f Fld.FWALL_DGST_STAT_USED) m = (m == n || s.dev.otp.digests.any (·.2 == m)))
  ∧ (∀ (s : State) (r : Requester), s.dev.calm = true → s.dev.writable r .fwall = true → s.dev.locked .fwall 0x40 = false →
    (∀ en : BitVec 4, Yields (.enaCtrlWrite r en) s fun e =>
      ((∃ k < 4, bit en.toNat k = true ∧ bit (s.dev.rd Reg.FWALL_ENA_CTRL) k = false ∧ s.dev.on Fld.PREPAY_CFG_AUTO_CUT = true
          ∧ s.dev.on (Fld.PREPAY_PP_STAT_CUT k) = true) → e.rd Reg.FWALL_ENA_CTRL = s.dev.rd Reg.FWALL_ENA_CTRL)
      ∧ ((∀ k < 4, bit en.toNat k = true → s.dev.on Fld.PREPAY_CFG_AUTO_CUT = true →
          s.dev.on (Fld.PREPAY_PP_STAT_CUT k) = true → bit (s.dev.rd Reg.FWALL_ENA_CTRL) k = true) →
          e.rd Reg.FWALL_ENA_CTRL = en.toNat)
      ∧ s.dev.keeps e [Reg.FWALL_ENA_CTRL] ∧ e.units = s.dev.units)
    ∧ (∀ t : Bool, Yields (.lwdgKick r t) s fun e =>
      e.f Fld.FWALL_LWDG_STAT_AT_LIMIT = (if t = true ∧ s.dev.lwdgTmo ≠ 0 then 1 else s.dev.f Fld.FWALL_LWDG_STAT_AT_LIMIT)
      ∧ s.dev.keeps e [Reg.FWALL_LWDG_STAT] ∧ e.units = s.dev.units)
    ∧ ∀ tmo : BitVec 10, Yields (.lwdgCfgWrite r tmo) s fun e =>
      e.f Fld.FWALL_LWDG_CFG_TMO
        = (if tmo = 0 ∧ s.dev.f Fld.FWALL_LWDG_CFG_TMO ≠ 0 then s.dev.f Fld.FWALL_LWDG_CFG_TMO else tmo.toNat)
      ∧ s.dev.keeps e [Reg.FWALL_LWDG_CFG] ∧ e.units = s.dev.units)
  ∧ ∀ s : State, s.dev.domOn .lgl = true → s.dev.lwdgTmo ≠ 0 →
    Effects .lwdg s fun e =>
      e.rd Reg.FWALL_ENA_CTRL = 0 ∧ Ev.FWALL_LWDG ∈ e.edges ∧ bit (e.rd Reg.SYSCTL_RST_CAUSE) 5 = true
      ∧ e.f Fld.FWALL_LWDG_STAT_EXP_CNT = satInc 8 (s.dev.f Fld.FWALL_LWDG_STAT_EXP_CNT)
      ∧ (e.boot.rom = true → ∃ f, e.boot.phase = .writing f) ∧ e.f Fld.SYSCTL_BOOT_STAT_COLD = 0 ∧ e.mbx = Vector.replicate 2 {} ∧ e.bill = {}

/-- Operations of the crypto engine. With CRYPTO open to the legal requester, its page not locked and no operation in
progress, each of the commands AES_ENC to KEY_CLR and CRYPTO_INVALID_OP starts its OP with its key slot and LEN as it
stands: BUSY 1, TAMPER_DURING 0. While one is in progress a further start, and a write to DIN, change nothing of it.
CRYPTO_DONE ends the operation: BUSY 0, DONE raised, ERR raised where RESULT is not OK. RESULT is BADLEN for a LEN out
of range; else REFUSED for OP 0, 14 and 15, BAD_KEY for AES_ENC, AES_DEC and CMAC without an AES-128 key and SIGN
without a P-256 key, NOKEY for UNWRAP without a KWK, REFUSED for WRAP and KWK_LOAD outside the early lifecycles or for
KWK_LOAD with a KWK held; none of these has output. Else AES_ENC, AES_DEC and CMAC write their output to DOUT byte by
byte; CRC32 advances CRC_ACC; SHA_INIT and SHA_UPDATE set and advance the hash state; KEY_CLR empties its slot alone.
(rests on R241, R242, R314) -/
def Obligations.CryptoOperations : Prop :=
  (∀ (s : State) (r : Requester) (key : Fin 8) (o : Fin 3) (p : Instr × Nat × Nat), s.dev.writable r .crypto = true →
    s.dev.locked .crypto 0x40 = false →
    p ∈ [(Instr.aesEnc r key, 1, key.val), (.aesDec r key, 2, key.val), (.cmac r key, 3, key.val), (.shaInit r, 4, 0),
      (.shaUpdate r, 5, 0), (.shaFinal r, 6, 0), (.sign r key, 7, key.val), (.verify r key, 8, key.val), (.crc32 r, 9, 0),
      (.unwrap r key, 10, key.val), (.wrap r key, 11, key.val), (.kwkLoad r, 12, 0), (.keyClr r key, 13, key.val),
      (.cryptoInvalidOp r o key, [0, 14, 15].getD o.val 0, key.val)] →
    (s.dev.crypto.run = none → Effects p.1 s fun e =>
      e.crypto = { s.dev.crypto with run := some (p.2.1, p.2.2, s.dev.f Fld.CRYPTO_LEN_LEN) }
      ∧ e.f Fld.CRYPTO_STAT_BUSY = 1 ∧ e.f Fld.CRYPTO_STAT_TAMPER_DURING = 0 ∧ e.edges = s.dev.edges
      ∧ ∀ a, a ≠ Reg.CRYPTO_CTRL → a ≠ Reg.CRYPTO_STAT → e.rd a = s.dev.rd a)
    ∧ (s.dev.crypto.run ≠ none → Effects p.1 s fun e =>
      e.crypto = s.dev.crypto ∧ e.edges = s.dev.edges ∧ ∀ a, a ≠ Reg.CRYPTO_CTRL → e.rd a = s.dev.rd a)
    ∧ (s.dev.crypto.run ≠ none → ∀ w < 64, ∀ data : Word,
      Effects (.registerWrite r (Reg.CRYPTO_DIN w) data .word 0) s fun e => e.crypto = s.dev.crypto ∧ e.regs = s.dev.regs))
  ∧ ∀ (s : State) (op key len : Nat), s.dev.crypto.run = some (op, key, len) → op < 16 → key < 8 →
    let bad := ((op = 1 ∨ op = 2) ∧ len ∉ [16, 32, 48, 64]) ∨ (op ∈ [3, 5, 6, 9] ∧ 256 < len)
      ∨ (op = 10 ∧ len ∉ [24, 40]) ∨ (op = 11 ∧ len ∉ [16, 32]) ∨ (op = 12 ∧ len ≠ 16)
    let early := s.dev.lifecycle ∈ [Lifecycle.blank, .provisioned, .unsealed]
    let type := s.dev.f ⟨Reg.CRYPTO_KS_INFO, 2 * key, 2⟩
    let k := natBytes 16 (vGet s.dev.crypto.keys key 0)
    let dout := fun (e : Dev) (bs : List Nat) => ∀ i < bs.length,
      bits (e.rd (Reg.CRYPTO_DOUT (i / 4))) (8 * (i % 4)) 8 = (bs[i]?).getD 0 % 256
    Effects .cryptoDone s fun e =>
      e.crypto.run = none ∧ e.f Fld.CRYPTO_STAT_BUSY = 0 ∧ Ev.CRYPTO_DONE ∈ e.edges
      ∧ (e.f Fld.CRYPTO_STAT_RESULT ≠ 0 → Ev.CRYPTO_ERR ∈ e.edges)
      ∧ (e.f Fld.CRYPTO_STAT_RESULT ∈ [1, 2, 5, 6] → (∀ w < 16, e.rd (Reg.CRYPTO_DOUT w) = s.dev.rd (Reg.CRYPTO_DOUT w))
          ∧ e.kwk = s.dev.kwk ∧ e.crypto.keys = s.dev.crypto.keys ∧ e.crypto.shaH = s.dev.crypto.shaH)
      ∧ (bad → e.f Fld.CRYPTO_STAT_RESULT = 6)
      ∧ (op ∈ [0, 14, 15] → e.f Fld.CRYPTO_STAT_RESULT = 5)
      ∧ (¬bad → op ∈ [1, 2, 3] → type ≠ 1 → e.f Fld.CRYPTO_STAT_RESULT = 1)
      ∧ (op = 7 → type ≠ 2 → e.f Fld.CRYPTO_STAT_RESULT = 1)
      ∧ (¬bad → op = 10 → s.dev.on Fld.CRYPTO_STAT_KWK_OK = false → e.f Fld.CRYPTO_STAT_RESULT = 2)
      ∧ (¬bad → op = 11 → ¬early → e.f Fld.CRYPTO_STAT_RESULT = 5)
      ∧ (¬bad → op = 12 → (¬early ∨ s.dev.on Fld.CRYPTO_STAT_KWK_OK = true) → e.f Fld.CRYPTO_STAT_RESULT = 5)
      ∧ (¬bad → op = 12 → early → s.dev.on Fld.CRYPTO_STAT_KWK_OK = false → s.dev.eraseActive = false →
          e.f Fld.CRYPTO_STAT_RESULT = 0 ∧ e.on Fld.CRYPTO_STAT_KWK_OK = true ∧ e.kwk = bytesNat (s.dev.dinBytes 0 16))
      ∧ (¬bad → op = 1 → type = 1 → e.f Fld.CRYPTO_STAT_RESULT = 0 ∧ dout e (ecb (aesEnc k) (len / 16) (s.dev.dinBytes 0 len)))
      ∧ (¬bad → op = 2 → type = 1 → e.f Fld.CRYPTO_STAT_RESULT = 0 ∧ dout e (ecb (aesDec k) (len / 16) (s.dev.dinBytes 0 len)))
      ∧ (¬bad → op = 3 → type = 1 → e.f Fld.CRYPTO_STAT_RESULT = 0 ∧ dout e (cmac k (s.dev.dinBytes 0 len)))
      ∧ (op = 4 → e.f Fld.CRYPTO_STAT_RESULT = 0 ∧ e.crypto.shaH = shaInit ∧ e.crypto.shaLen = 0)
      ∧ (¬bad → op = 5 → e.f Fld.CRYPTO_STAT_RESULT = 0 ∧ e.crypto = { s.dev.crypto.absorb (s.dev.dinBytes 0 len) with run := none })
      ∧ (¬bad → op = 9 → e.rd Reg.CRYPTO_CRC_ACC
          = crcRun (s.dev.rd Reg.CRYPTO_CRC_ACC) ((s.dev.dinBytes 0 len).map (BitVec.ofNat 8)) % 2 ^ 32)
      ∧ (op = 13 → e.f ⟨Reg.CRYPTO_KS_INFO, 2 * key, 2⟩ = 0 ∧ ∀ j < 8, j ≠ key →
          e.f ⟨Reg.CRYPTO_KS_INFO, 2 * j, 2⟩ = s.dev.f ⟨Reg.CRYPTO_KS_INFO, 2 * j, 2⟩
          ∧ vGet e.crypto.keys j 0 = vGet s.dev.crypto.keys j 0)

/-- Requests, responses and interface versions of the mailbox. REQ_GO of channel c from anyone but its requester, or
while it is PENDING, changes nothing. Else, the page not locked, the channel becomes PENDING and REQ is raised, but: a
WRITE request under an IF_STATE that does not serve it is answered at once with IF_RO, a READ, STOP or served WRITE
request with LEN above 16 with BADLEN, both with the request's TAG and without REQ; a KEY request of either kind stays
PENDING without REQ. RSP_RELEASE by the legal side of a PENDING request that is not KEY makes the channel DONE with
STATUS and LEN as written and the TAG, and raises RSP (AT_LIMIT in the tick of expiry); of a served KEY request before
its tick it is held and no register shows it. KEY_RELEASE_TICK releases a held KEY response with STATUS OK or REFUSED,
any other with REFUSED and zero data. TIMEOUT ends a request that is not KEY with STATUS TIMEOUT. IFVER_WRITE sets
IFVER and IF_STATE, and raises IF_CHG where it changes. The other channel never changes. (rests on R244, R245, R246,
R247, R248, R249) -/
def Obligations.MailboxRequestsAndResponses : Prop :=
  let stat := fun (e : Dev) (c : Nat) => e.f (Fld.LGLMBX_REQ_STAT_STATE c)
  let others := fun (d e : Dev) (c : Nat) (l : List Nat) =>
    (∀ a, a ∉ l → e.rd a = d.rd a) ∧ ∀ k, k ≠ c → e.mbxCh k = d.mbxCh k
  (∀ (s : State) (r : Requester) (c : Fin 2) (hdr : Word), s.dev.writable r .lglmbx = true →
    let opc := bits hdr.toNat 0 8
    let long : Prop := 16 < bits hdr.toNat 8 5
    let tag := bits hdr.toNat 16 8
    let served : Prop := s.dev.f (Fld.LGLMBX_REQ_STAT_IF_STATE c.val) = 1 ∨ s.dev.f (Fld.LGLMBX_REQ_STAT_IF_STATE c.val) = 2
    let mine := if c.val = 0 then r ∈ [Requester.ac, .acDbg] else r ∈ [Requester.hspi, .i2ct]
    let regs := [Reg.LGLMBX_REQ_HDR c.val, Reg.LGLMBX_REQ_STAT c.val, Reg.LGLMBX_RSP_HDR c.val]
    ((¬mine ∨ stat s.dev c.val = 1) → Effects (.reqGo r c hdr) s fun e =>
      e.regs = s.dev.regs ∧ e.mbx = s.dev.mbx ∧ e.edges = s.dev.edges)
    ∧ (mine → stat s.dev c.val ≠ 1 → s.dev.locked .lglmbx 0x100 = false → Effects (.reqGo r c hdr) s fun e =>
      others s.dev e c.val regs
      ∧ (0xC0 ≤ opc → stat e c.val = 1 ∧ (e.mbxCh c.val).opc = opc ∧ (e.mbxCh c.val).held = none
          ∧ ((served ∧ ¬long) → (e.mbxCh c.val).unserved = false ∧ e.edges = s.dev.edges ++ [Ev.LGLMBX_REQ])
          ∧ ((¬served ∨ long) → (e.mbxCh c.val).unserved = true ∧ e.edges = s.dev.edges))
      ∧ (0x88 ≤ opc → opc < 0xC0 → ¬served → stat e c.val = 2 ∧ e.rd (Reg.LGLMBX_RSP_HDR c.val) = 2 + tag * 2 ^ 16
          ∧ e.edges = s.dev.edges)
      ∧ (opc < 0xC0 → (opc < 0x88 ∨ served) → long → stat e c.val = 2
          ∧ e.rd (Reg.LGLMBX_RSP_HDR c.val) = 3 + tag * 2 ^ 16 ∧ e.edges = s.dev.edges)
      ∧ (opc < 0xC0 → (opc < 0x88 ∨ served) → ¬long → stat e c.val = 1 ∧ (e.mbxCh c.val).opc = opc
          ∧ e.edges = s.dev.edges ++ [Ev.LGLMBX_REQ]))
    ∧ ∀ limit : Bool,
      (r.legal = true → stat s.dev c.val = 1 → (s.dev.mbxCh c.val).opc < 0xC0 → Effects (.rspRelease r c hdr limit) s fun e =>
        stat e c.val = 2 ∧ others s.dev e c.val regs ∧ e.edges = s.dev.edges ++ [Ev.LGLMBX_RSP]
        ∧ e.rd (Reg.LGLMBX_RSP_HDR c.val)
          = opc + bits hdr.toNat 8 5 * 2 ^ 8 + s.dev.f (Fld.LGLMBX_REQ_HDR_TAG c.val) * 2 ^ 16
        ∧ (limit = true → e.f (Fld.LGLMBX_REQ_STAT_AT_LIMIT c.val) = 1))
      ∧ (r.legal = true → stat s.dev c.val = 1 → 0xC0 ≤ (s.dev.mbxCh c.val).opc → (s.dev.mbxCh c.val).unserved = false →
        limit = false → Effects (.rspRelease r c hdr limit) s fun e =>
          stat e c.val = 1 ∧ (e.mbxCh c.val).held = some (opc, bits hdr.toNat 8 5) ∧ e.regs = s.dev.regs
          ∧ others s.dev e c.val [] ∧ e.edges = s.dev.edges)
      ∧ (r.legal = false → Effects (.rspRelease r c hdr limit) s fun e =>
          stat e c.val = stat s.dev c.val ∧ e.mbx = s.dev.mbx ∧ e.rd (Reg.LGLMBX_RSP_HDR c.val) = s.dev.rd (Reg.LGLMBX_RSP_HDR c.val)
          ∧ Ev.FWALL_FW_VIOL ∈ e.edges))
  ∧ (∀ (s : State) (c : Fin 2), stat s.dev c.val = 1 →
    (0xC0 ≤ (s.dev.mbxCh c.val).opc → Effects (.keyReleaseTick c) s fun e =>
      stat e c.val = 2 ∧ e.edges = s.dev.edges ++ [Ev.LGLMBX_RSP]
      ∧ e.f (Fld.LGLMBX_RSP_HDR_TAG c.val) = s.dev.f (Fld.LGLMBX_REQ_HDR_TAG c.val)
      ∧ (∀ st len, (s.dev.mbxCh c.val).held = some (st, len) → len < 32 →
          e.f (Fld.LGLMBX_RSP_HDR_STATUS c.val) = min 1 st ∧ e.f (Fld.LGLMBX_RSP_HDR_LEN c.val) = len
          ∧ ∀ w < 16, e.rd (Reg.LGLMBX_RSP_DATA c.val w) = s.dev.rd (Reg.LGLMBX_RSP_DATA c.val w))
      ∧ ((s.dev.mbxCh c.val).held = none →
          e.f (Fld.LGLMBX_RSP_HDR_STATUS c.val) = 1 ∧ ∀ w < 16, e.rd (Reg.LGLMBX_RSP_DATA c.val w) = 0))
    ∧ ((s.dev.mbxCh c.val).opc < 0xC0 → Effects (.timeout c) s fun e =>
      stat e c.val = 2 ∧ e.f (Fld.LGLMBX_RSP_HDR_STATUS c.val) = 4 ∧ e.edges = s.dev.edges ++ [Ev.LGLMBX_TIMEOUT]
      ∧ others s.dev e c.val [Reg.LGLMBX_REQ_STAT c.val, Reg.LGLMBX_RSP_HDR c.val])
    ∧ (0xC0 ≤ (s.dev.mbxCh c.val).opc → Effects (.timeout c) s fun e => e.regs = s.dev.regs ∧ e.mbx = s.dev.mbx))
  ∧ ∀ (s : State) (r : Requester) (c : Fin 2) (ver : BitVec 16), s.dev.writable r .lglmbx = true →
    s.dev.locked .lglmbx 0x100 = false → mbxRequester r c.val = true →
    Effects (.ifverWrite r c ver) s fun e =>
      let lo := s.dev.f Fld.LGLMBX_IF_RANGE_IF_MIN
      let hi := s.dev.f Fld.LGLMBX_IF_RANGE_IF_MAX
      let v := ver.toNat
      let st := e.f (Fld.LGLMBX_REQ_STAT_IF_STATE c.val)
      e.rd (Reg.LGLMBX_IFVER c.val) = v ∧ others s.dev e c.val [Reg.LGLMBX_IFVER c.val, Reg.LGLMBX_REQ_STAT c.val]
      ∧ (v = 0 → st = 0) ∧ (v ≠ 0 → lo ≤ v → v ≤ hi → st = 1)
      ∧ (v ≠ 0 → (v < lo ∨ hi < v) → lo / 256 ≤ v / 256 → v / 256 ≤ hi / 256 → st = 2)
      ∧ ((v / 256 < lo / 256 ∨ hi / 256 < v / 256) → v ≠ 0 → st = 3)
      ∧ e.edges = (if st = s.dev.f (Fld.LGLMBX_REQ_STAT_IF_STATE c.val) then s.dev.edges else s.dev.edges ++ [Ev.LGLMBX_IF_CHG])

/-- The calendar clock. Every calendar time of the hundred years is read back from the words that spell it.
TIME_LO_READ answers TIME_LO and captures TIME_HI and SUBSEC for its reader alone. The RTC commands are accepted, or
refused with REASON and CMD_REJ, as the table of R257 says. SEC adds the second's length to UPTIME and raises SEC;
with nothing pending the calendar advances by one second around the hundred years (passing its end sets TIME_LOST); a
pending SET gives SET's time and DST, clears TIME_LOST and LFXO_FAIL and records the step; DST_ADD and DST_SUB move it
by an hour; an ADJ within the limit starts a slew, one of whole seconds beyond it steps; a SHIFT changes the next
second's length and completes at its end with ADJ_DONE; a command accepted in the period that ends at the boundary is
left pending by it (whether it was is free, the model's choice of log entry 143). VBATLOW_CLEAR clears VBATLOW only
where VBAT_MEAS is 0.05 V above the threshold. LFXO_FAIL sets LFXO_FAIL and TIME_LOST, also where the RC counts
already; LFXO_RETURN has the RTC return at the next boundary. (rests on R251, R252, R253, R257, R258, R259, R260,
R262, R263, R265, R266, R267) -/
def Obligations.CalendarClock : Prop :=
  let shows := fun (e : Dev) (t : Nat) => e.rd Reg.RTC_TIME_LO = calLo t ∧ bits (e.rd Reg.RTC_TIME_HI) 0 24 = calHi t
  (∀ t < century, calOf (calLo t) (calHi t) = some t)
  ∧ (∀ (s : State) (r : Requester) (n : Nat), s.dev.calm = true → s.dev.opens r .rtc = true →
    Yields (.timeLoRead r n) s fun e =>
      e.bus = .data (BitVec.ofNat 32 (s.dev.rd Reg.RTC_TIME_LO))
      ∧ (e.regRead r .rtc 0x44).1 = s.dev.rd Reg.RTC_TIME_HI
      ∧ (s.dev.rtc.sub ≤ n → n < s.dev.rtc.len → n < 2 ^ 32 → (e.regRead r .rtc 0x48).1 = n)
      ∧ (∀ q : Requester, q.capture ≠ r.capture → e.cap q = s.dev.cap q) ∧ s.dev.keeps e [])
  ∧ (∀ (s : State) (r : Requester), s.dev.writable r .rtc = true →
    let slewing := s.dev.on Fld.RTC_STATUS_SLEWING
    let dst := s.dev.on Fld.RTC_TIME_HI_DST
    let busy := s.dev.rtc.cmd.isSome
    let ofs := sgn 32 (s.dev.rd Reg.RTC_ADJ_OFS)
    let n := s.dev.f Fld.RTC_SHIFT_N
    let time := calOf (s.dev.rd Reg.RTC_SET_LO) (s.dev.rd Reg.RTC_SET_HI)
    let rows : List (Instr × Nat × RtcCmd) :=
      [(.rtcSet r, (if slewing then 2 else if time.isNone then 3 else 0), .set (s.dev.rd Reg.RTC_SET_LO) (s.dev.rd Reg.RTC_SET_HI)),
        (.rtcAdj r, (if slewing then 2 else if ofs = 0 then 4 else 0), .adj ofs),
        (.rtcCancel r, (if slewing then 0 else 6), .cancel),
        (.dstAdd r, (if dst then 5 else 0), .dstAdd), (.dstSub r, (if dst then 0 else 5), .dstSub),
        (.shiftAdv r, (if slewing then 2 else if n = 0 then 4 else 0), .shift 6 n),
        (.shiftRet r, (if slewing then 2 else if n = 0 then 4 else 0), .shift 7 (-(n : Int)))]
    ∀ p ∈ rows, Effects p.1 s fun e =>
      let reason := if busy then 1 else p.2.1
      if reason = 0 then e.rtc = { s.dev.rtc with cmd := some p.2.2, sub := e.rtc.sub, late := e.rtc.late } ∧ e.regs = s.dev.regs ∧ e.edges = s.dev.edges
      else e.f Fld.RTC_CMD_STAT_REASON = reason ∧ e.rtc = s.dev.rtc ∧ e.edges = s.dev.edges ++ [Ev.RTC_CMD_REJ]
        ∧ ∀ a, a ≠ Reg.RTC_CMD_STAT → e.rd a = s.dev.rd a)
  ∧ (∀ (s : State) (t : Int) (vbat : Nat),
    let now := s.dev.cal
    let plain := s.dev.on Fld.RTC_STATUS_SLEWING = false
    Effects (.sec t vbat) s fun e =>
      Ev.RTC_SEC ∈ e.edges ∧ e.uptime = (s.dev.uptime + s.dev.rtc.len) % 2 ^ 48
      ∧ (s.dev.rtc.cmd = none → shows e ((now + 1) % century)
          ∧ (now + 1 < century → e.f Fld.RTC_TIME_HI_TIME_LOST = s.dev.f Fld.RTC_TIME_HI_TIME_LOST)
          ∧ (now + 1 = century → e.f Fld.RTC_TIME_HI_TIME_LOST = 1)
          ∧ (plain → s.dev.rtc.place ≠ 31 → s.dev.rtc.place < 32 → s.dev.rtc.carry = 0 → e.rtc.len = 32768))
      ∧ (∀ c, s.dev.rtc.late = true → s.dev.rtc.cmd = some c → shows e ((now + 1) % century) ∧ e.rtc.cmd = some c ∧ e.rtc.late = false)
      ∧ (s.dev.rtc.late = false → (∀ lo hi u, s.dev.rtc.cmd = some (.set lo hi) → calOf lo hi = some u →
          shows e u ∧ e.f Fld.RTC_TIME_HI_DST = bits hi 24 1 ∧ e.f Fld.RTC_TIME_HI_TIME_LOST = 0
          ∧ e.f Fld.RTC_STATUS_LFXO_FAIL = 0 ∧ Ev.RTC_STEP ∈ e.edges ∧ e.rtc.cmd = none
          ∧ e.rd Reg.RTC_STEP_OLD_LO = calLo ((now + 1) % century) ∧ e.rd Reg.RTC_STEP_NEW_LO = calLo u
          ∧ e.f Fld.RTC_STEP_INFO_SRC = 1 ∧ e.f Fld.RTC_STEP_INFO_SEQ = (s.dev.f Fld.RTC_STEP_INFO_SEQ + 1) % 2 ^ 16)
      ∧ (s.dev.rtc.cmd = some .dstAdd → shows e ((now + 3601) % century) ∧ e.f Fld.RTC_TIME_HI_DST = 1
          ∧ Ev.RTC_DST_DONE ∈ e.edges ∧ e.rtc.cmd = none)
      ∧ (s.dev.rtc.cmd = some .dstSub → shows e ((now + century - 3599) % century) ∧ e.f Fld.RTC_TIME_HI_DST = 0
          ∧ Ev.RTC_DST_DONE ∈ e.edges ∧ e.rtc.cmd = none)
      ∧ (∀ o : Int, s.dev.rtc.cmd = some (.adj o) → o.natAbs ≤ s.dev.rtcSlewLimit →
          shows e ((now + 1) % century) ∧ sgn 32 (e.rd Reg.RTC_ADJ_LEFT) = o ∧ e.f Fld.RTC_STATUS_SLEWING = 1 ∧ e.rtc.cmd = none)
      ∧ (∀ w : Int, s.dev.rtc.cmd = some (.adj (32768 * w)) → s.dev.rtcSlewLimit < (32768 * w).natAbs →
          shows e (((now : Int) + 1 + w) % century).toNat ∧ Ev.RTC_STEP ∈ e.edges ∧ Ev.RTC_ADJ_DONE ∈ e.edges
          ∧ e.rtc.cmd = none ∧ e.f Fld.RTC_STEP_INFO_SRC = 0)
      ∧ (∀ op n, s.dev.rtc.cmd = some (.shift op n) → plain → s.dev.rtc.place < 31 → s.dev.rtc.carry = 0 →
          e.rtc.cmd = some (.shifting op) ∧ (e.rtc.len : Int) = max 256 (32768 - n) ∧ (e.rtc.carry : Int) = max 0 (n - 32512))
      ∧ (∀ op < 8, s.dev.rtc.cmd = some (.shifting op) → s.dev.rtc.carry = 0 →
          e.rtc.cmd = none ∧ Ev.RTC_ADJ_DONE ∈ e.edges ∧ e.f Fld.RTC_CMD_STAT_LAST_OP = op)))
  ∧ (∀ (s : State) (r : Requester), s.dev.calm = true → s.dev.writable r .rtc = true → Yields (.vbatlowClear r) s fun e =>
    e.f Fld.RTC_TIME_HI_VBATLOW
      = (if s.dev.vbatThr + 50 ≤ s.dev.rd Reg.RTC_VBAT_MEAS then 0 else s.dev.f Fld.RTC_TIME_HI_VBATLOW)
    ∧ s.dev.keeps e [Reg.RTC_TIME_HI] ∧ e.units = s.dev.units)
  ∧ ∀ (s : State) (n : Nat),
    (Effects (.lfxoFail n) s fun e =>
      e.f Fld.RTC_STATUS_LFXO_FAIL = 1 ∧ e.f Fld.RTC_TIME_HI_TIME_LOST = 1 ∧ e.rtc.rc = true ∧ e.rtc.back = false
      ∧ (s.dev.rtc.rc = false → e.rtc.sub = s.dev.rtc.sub + n)
      ∧ e.edges = s.dev.edges ++ [Ev.RTC_LFXO_FAIL] ∧ e.rd Reg.RTC_TIME_LO = s.dev.rd Reg.RTC_TIME_LO
      ∧ e.rtc.len = s.dev.rtc.len)
    ∧ (s.dev.rtc.rc = true → Effects .lfxoReturn s fun e => e.rtc = { s.dev.rtc with back := true } ∧ e.regs = s.dev.regs)

/-- Tariff tables, tariffs in force, and the commands of a session. TBL_CMD_COMMIT of pending tables in which an
enabled switch point names no tariff T1-T8 or an enabled season or special day no date is refused with TBL_ERR; else
the tables are PENDING; the active tables stand. TARIFF_CTRL_WRITE stores its register and evaluates at once: with MET
on, each outlet's ACT_TARIFF is its override where that is 1-8, DEF_TARIFF where the calendar is not used, else the
calendar's; a change raises TARIFF_CHG. SESS_OPEN of an IDLE outlet that is enabled, of good type, with its tenant's
frame pinned and room in the queue makes it OPENING with SESS_ID, the start values, SE and ACC 0 and queues START.
SESS_CLOSE of an OPEN session makes it CLOSING and queues END, SESS_SETTLE of an INTERRUPTED one sets SETTLED; both
add SE to the tenant's context. Otherwise the command only sets RESULT and raises SESS_ERR. (rests on R272, R274,
R275, R277, R279, R280, R283, R292) -/
def Obligations.TariffsAndSessions : Prop :=
  (∀ (s : State) (r : Requester), s.dev.writable r .tariff = true →
    let bad : Prop :=
      (∃ p < 16, ∃ i < 12, s.dev.on (Fld.TARIFF_SWPT_EN p i) = true
        ∧ (s.dev.f (Fld.TARIFF_SWPT_TARIFF p i) = 0 ∨ 8 < s.dev.f (Fld.TARIFF_SWPT_TARIFF p i)))
      ∨ (∃ n < 4, s.dev.on (Fld.TARIFF_SEASON_EN n) = true
        ∧ dateOfSomeYear (s.dev.f (Fld.TARIFF_SEASON_MON n)) (s.dev.f (Fld.TARIFF_SEASON_DAY n)) = false)
      ∨ (∃ n < 48, s.dev.on (Fld.TARIFF_SPECIAL_EN n) = true ∧ dateExists (s.dev.f (Fld.TARIFF_SPECIAL_YEAR n))
        (s.dev.f (Fld.TARIFF_SPECIAL_MON n)) (s.dev.f (Fld.TARIFF_SPECIAL_DAY n)) = false)
    Effects (.tblCmdCommit r) s fun e =>
      e.units = s.dev.units ∧ (∀ a, a ≠ Reg.TARIFF_TBL_STAT → e.rd a = s.dev.rd a)
      ∧ (bad → e.f Fld.TARIFF_TBL_STAT_RESULT ≠ 0 ∧ e.edges = s.dev.edges ++ [Ev.TARIFF_TBL_ERR]
          ∧ e.f Fld.TARIFF_TBL_STAT_PENDING = s.dev.f Fld.TARIFF_TBL_STAT_PENDING)
      ∧ (¬bad → e.f Fld.TARIFF_TBL_STAT_RESULT = 0 ∧ e.f Fld.TARIFF_TBL_STAT_PENDING = 1 ∧ e.edges = s.dev.edges))
  ∧ (∀ (s : State) (r : Requester) (g : TariffReg) (data : Word), s.dev.writable r .tariff = true →
    s.dev.locked .tariff 0x40 = false →
    Effects (.tariffCtrlWrite r g data) s fun e =>
      (g = .ctrl → e.f Fld.TARIFF_CTRL_EN = bits data.toNat 8 1 ∧ e.f Fld.TARIFF_CTRL_DEF_TARIFF = bits data.toNat 0 4
        ∧ e.rd Reg.TARIFF_OVR = s.dev.rd Reg.TARIFF_OVR)
      ∧ (g = .ovr → e.rd Reg.TARIFF_OVR = bits data.toNat 0 16 ∧ e.rd Reg.TARIFF_CTRL = s.dev.rd Reg.TARIFF_CTRL)
      ∧ (s.dev.domOn .met = true →
          (∀ k < 4,
            let act := bits (e.rd Reg.ENERGY_ACT_TARIFF) (4 * k) 4
            let ovr := bits (e.rd Reg.TARIFF_OVR) (4 * k) 4
            let dflt := e.f Fld.TARIFF_CTRL_DEF_TARIFF
            (1 ≤ ovr ∧ ovr ≤ 8 → act = ovr)
            ∧ (¬(1 ≤ ovr ∧ ovr ≤ 8) → (e.on Fld.TARIFF_CTRL_EN = false ∨ s.dev.timeLost = true) →
                act = if 1 ≤ dflt ∧ dflt ≤ 8 then dflt else 1)
            ∧ (¬(1 ≤ ovr ∧ ovr ≤ 8) → act = e.calPath.tariff))
          ∧ e.edges = if e.rd Reg.ENERGY_ACT_TARIFF = s.dev.rd Reg.ENERGY_ACT_TARIFF then s.dev.edges
              else s.dev.edges ++ [Ev.TARIFF_TARIFF_CHG])
      ∧ (∀ a, a ≠ Reg.TARIFF_CTRL → a ≠ Reg.TARIFF_OVR → a ≠ Reg.TARIFF_STATUS → a ≠ Reg.ENERGY_ACT_TARIFF → e.rd a = s.dev.rd a)
      ∧ e.units = s.dev.units)
  ∧ ∀ (s : State) (r : Requester) (k : Fin 4) (acct : Fin 1024) (tenant host : Bool), s.dev.writable r .bill = true →
    let st := fun (d : Dev) (o : Nat) => d.f (Fld.BILL_SESS_STAT_STATE o)
    let full : Prop := 2 < s.dev.bill.queue.length ∨ s.dev.bill.step ≠ none ∨ s.dev.bill.intr ≠ []
    let outletOk : Prop := s.dev.on (Fld.ENERGY_OUT_CFG_EN k.val) = true ∧ s.dev.on (Fld.ENERGY_OUT_CFG_TYPE_OK k.val) = true
    let absent : Prop := s.dev.on (Fld.BILL_SESS_STAT_TENANT k.val) = true ∧ s.dev.tenantFrame k.val = none
    let refused := fun (c : Instr) (n : Nat) => Effects c s fun e =>
      e.f Fld.BILL_SESS_RES_RESULT = n ∧ e.edges = s.dev.edges ++ [Ev.BILL_SESS_ERR] ∧ e.units = s.dev.units
      ∧ ∀ a, a ≠ Reg.BILL_SESS_RES → e.rd a = s.dev.rd a
    let queued := fun (e : Dev) (type : Nat) => ∃ b : List Byte, e.bill.queue = s.dev.bill.queue ++ [b] ∧ b.length = 92
      ∧ leNat (b.take 1) = type ∧ leNat ((b.drop 2).take 1) = k.val
      ∧ leNat ((b.drop 16).take 4) = e.rd (Reg.BILL_SESS_ID k.val)
      ∧ leNat ((b.drop 0x28).take 8) = s.dev.outletTotal k.val 0 ∧ leNat ((b.drop 0x30).take 8) = s.dev.outletTotal k.val 1
    let added := fun (e : Dev) => ∀ f, s.dev.tenantFrame k.val = some f →
      (∀ w < 64, (s.dev.memPeek 19 (f * 64 + w)).isSome = true) → ∀ i < 16, ∀ x y,
        s.dev.memPeek 19 (f * 64 + 8 + 2 * i) = some x → s.dev.memPeek 19 (f * 64 + 9 + 2 * i) = some y →
        ∃ x' y', e.memPeek 19 (f * 64 + 8 + 2 * i) = some x' ∧ e.memPeek 19 (f * 64 + 9 + 2 * i) = some y'
          ∧ x' + y' * 2 ^ 32 = (x + y * 2 ^ 32 + s.dev.rd (Reg.BILL_SE k.val (i / 2 + 1) (i % 2))) % 2 ^ 64
    (st s.dev k.val ≠ 0 → refused (.sessOpen r k acct tenant host) 1)
    ∧ (st s.dev k.val = 0 → ¬outletOk → refused (.sessOpen r k acct tenant host) 2)
    ∧ (st s.dev k.val = 0 → outletOk → tenant = true → s.dev.pinnedFrame acct.val = none →
        refused (.sessOpen r k acct tenant host) 3)
    ∧ (st s.dev k.val = 0 → outletOk → (tenant = true → s.dev.pinnedFrame acct.val ≠ none) → full →
        refused (.sessOpen r k acct tenant host) 4)
    ∧ (st s.dev k.val = 0 → outletOk → (tenant = true → s.dev.pinnedFrame acct.val ≠ none) → ¬full →
      Effects (.sessOpen r k acct tenant host) s fun e =>
        st e k.val = 1 ∧ e.f Fld.BILL_SESS_RES_RESULT = 0 ∧ e.f (Fld.BILL_SESS_STAT_ACCT k.val) = acct.val
        ∧ e.on (Fld.BILL_SESS_STAT_TENANT k.val) = tenant ∧ e.on (Fld.BILL_SESS_STAT_HOST k.val) = host
        ∧ e.rd (Reg.BILL_SESS_ID k.val) = s.dev.rd Reg.BILL_SESS_NEXT
        ∧ e.rd Reg.BILL_SESS_NEXT = (s.dev.rd Reg.BILL_SESS_NEXT + 1) % 2 ^ 32
        ∧ e.rd (Reg.BILL_START_CYC k.val) = s.dev.mae.cyc.toNat
        ∧ e.rd (Reg.BILL_START_TIME_LO k.val) = s.dev.rd Reg.RTC_TIME_LO
        ∧ e.rd64 (Reg.BILL_START_DLV_LO k.val) = s.dev.outletTotal k.val 0
        ∧ e.rd64 (Reg.BILL_START_RTN_LO k.val) = s.dev.outletTotal k.val 1
        ∧ (∀ i < 16, e.rd (Reg.BILL_SE k.val (i / 2 + 1) (i % 2)) = 0) ∧ e.rd64 (Reg.PREPAY_ACC_LO k.val) = 0
        ∧ queued e 1 ∧ e.mem = s.dev.mem ∧ (∀ o < 4, o ≠ k.val → st e o = st s.dev o))
    ∧ (st s.dev k.val ≠ 2 → refused (.sessClose r k) 1)
    ∧ (st s.dev k.val = 2 → absent → refused (.sessClose r k) 3)
    ∧ (st s.dev k.val = 2 → ¬absent → full → refused (.sessClose r k) 4)
    ∧ (st s.dev k.val = 2 → ¬absent → ¬full → Effects (.sessClose r k) s fun e =>
        st e k.val = 3 ∧ e.f Fld.BILL_SESS_RES_RESULT = 0 ∧ queued e 2 ∧ added e ∧ e.rd64 (Reg.PREPAY_ACC_LO k.val) = 0
        ∧ e.on (Fld.PREPAY_PP_STAT_CUT k.val) = false ∧ (∀ o < 4, o ≠ k.val → st e o = st s.dev o)
        ∧ (s.dev.on (Fld.BILL_SESS_STAT_TENANT k.val) = false → e.mem = s.dev.mem))
    ∧ ((st s.dev k.val ≠ 4 ∨ s.dev.on (Fld.BILL_SESS_STAT_SETTLED k.val) = true) → refused (.sessSettle r k) 1)
    ∧ (st s.dev k.val = 4 → s.dev.on (Fld.BILL_SESS_STAT_SETTLED k.val) = false → absent → refused (.sessSettle r k) 3)
    ∧ (st s.dev k.val = 4 → s.dev.on (Fld.BILL_SESS_STAT_SETTLED k.val) = false → ¬absent →
      Effects (.sessSettle r k) s fun e =>
        e.on (Fld.BILL_SESS_STAT_SETTLED k.val) = true ∧ e.f Fld.BILL_SESS_RES_RESULT = 0 ∧ added e
        ∧ st e k.val = (if s.dev.on (Fld.BILL_SESS_STAT_REC_DONE k.val) = true then 0 else 4)
        ∧ e.bill.queue = s.dev.bill.queue ∧ e.rd64 (Reg.PREPAY_ACC_LO k.val) = 0)

/-- The ring of records. REC_COMMIT with a record at the head and no ring write in progress sends the head's 96 bytes,
with SEQ = REC_WR and its CRC, and the 64 signature bytes to MULE (REC_STAT.BUSY); with an empty queue or a write in
progress it only sets RESULT to EMPTY or BUSY. REC_DONE of a write that succeeded puts the 160 bytes at ring position
REC_WR mod 2,867 and nowhere else, advances REC_WR, takes the head off the queue, makes an OPENING session OPEN by its
START, a CLOSING one IDLE by its END, and raises REC_DONE; of one that failed it leaves queue, REC_WR and FRAM as they
are, RESULT reads FRAM and REC_ERR is raised. REC_RD_GO of a sequence outside the ring reads NOT_HELD; else it starts
a read, and REC_RD_DONE copies the 160 bytes of that position to REC_RD with RESULT OK or CRC, or reads FRAM where the
transfer failed. (rests on R277, R283, R284, R285, R286) -/
def Obligations.RecordRing : Prop :=
  (∀ (s : State) (r : Requester), s.dev.writable r .bill = true →
    (s.dev.bill.out = none → ∀ b l, s.dev.bill.queue = b :: l → b.length = 92 → Effects (.recCommit r) s fun e =>
      (∃ bs : List Byte, e.bill = { s.dev.bill with out := some bs, badWr := false, rdFirst := s.dev.bill.reading.isSome } ∧ bs.length = 160
        ∧ bs.take 4 = b.take 4 ∧ leNat ((bs.drop 4).take 4) = s.dev.rd Reg.BILL_REC_WR ∧ (bs.take 92).drop 8 = b.drop 8
        ∧ leNat ((bs.drop 92).take 4) = crc32 (bs.take 92)
        ∧ ∀ w < 16, leNat ((bs.drop (96 + 4 * w)).take 4) = s.dev.rd (Reg.BILL_REC_SIG w))
      ∧ e.f Fld.BILL_REC_STAT_BUSY = 1 ∧ e.edges = s.dev.edges ∧ e.mem = s.dev.mem)
    ∧ ((s.dev.bill.out ≠ none ∨ s.dev.bill.queue = []) → Effects (.recCommit r) s fun e =>
      e.f Fld.BILL_REC_STAT_RESULT = (if s.dev.bill.out = none then 1 else 2) ∧ e.bill = s.dev.bill
      ∧ (∀ a, a ≠ Reg.BILL_REC_STAT → e.rd a = s.dev.rd a) ∧ e.edges = s.dev.edges)
    ∧ (s.dev.bill.reading = none →
      let q := s.dev.rd Reg.BILL_REC_RD_SEQ
      let w := s.dev.rd Reg.BILL_REC_WR
      ((w ≤ q ∨ q + 2867 < w) → Effects (.recRdGo r) s fun e =>
        e.f Fld.BILL_REC_RD_STAT_RESULT = 1 ∧ e.bill = s.dev.bill ∧ ∀ a, a ≠ Reg.BILL_REC_RD_STAT → e.rd a = s.dev.rd a)
      ∧ (q < w → w ≤ q + 2867 → Effects (.recRdGo r) s fun e =>
        e.bill = { s.dev.bill with reading := some q, badRd := false, rdFirst := s.dev.bill.out.isNone } ∧ e.f Fld.BILL_REC_RD_STAT_BUSY = 1 ∧ ∀ a, a ≠ Reg.BILL_REC_RD_STAT → e.rd a = s.dev.rd a)))
  ∧ (∀ (s : State) (bs : List Byte) (ok : Bool), s.dev.bill.out = some bs → bs.length = 160 →
    let st := fun (d : Dev) (k : Nat) => d.f (Fld.BILL_SESS_STAT_STATE k)
    (ok = true → s.dev.bill.badWr = false → s.dev.bill.step = none → s.dev.bill.intr = [] → Effects (.recDone ok) s fun e =>
      let at_ := 0x90000 + s.dev.rd Reg.BILL_REC_WR % 2867 * 0xA0
      e.framRd at_ 160 = bs ∧ (∀ a, (a < at_ ∨ at_ + 160 ≤ a) → e.framRd a 1 = s.dev.framRd a 1)
      ∧ e.rd Reg.BILL_REC_WR = (s.dev.rd Reg.BILL_REC_WR + 1) % 2 ^ 32 ∧ e.bill.queue = s.dev.bill.queue.drop 1
      ∧ e.bill.out = none ∧ Ev.BILL_REC_DONE ∈ e.edges ∧ e.f Fld.BILL_REC_STAT_BUSY = 0 ∧ e.f Fld.BILL_REC_STAT_RESULT = 0
      ∧ (s.dev.bill.queue.length < 6 → e.f Fld.BILL_STATUS_QUEUED = s.dev.bill.queue.length - 1)
      ∧ ∀ k < 4, leNat ((bs.drop 2).take 1) = k →
          (leNat (bs.take 1) = 1 → st s.dev k = 1 → st e k = 2) ∧ (leNat (bs.take 1) = 2 → st s.dev k = 3 → st e k = 0)
          ∧ (leNat (bs.take 1) = 3 → e.on (Fld.BILL_SESS_STAT_REC_DONE k) = true
              ∧ (st s.dev k = 4 → s.dev.on (Fld.BILL_SESS_STAT_SETTLED k) = true → st e k = 0))
          ∧ ∀ o < 4, o ≠ k → e.rd (Reg.BILL_SESS_STAT o) = s.dev.rd (Reg.BILL_SESS_STAT o))
    ∧ ((ok = false ∨ s.dev.bill.badWr = true) → Effects (.recDone ok) s fun e =>
      e.bill = { s.dev.bill with out := none } ∧ e.mem = s.dev.mem ∧ e.f Fld.BILL_REC_STAT_RESULT = 3
      ∧ e.f Fld.BILL_REC_STAT_BUSY = 0 ∧ e.edges = s.dev.edges ++ [Ev.BILL_REC_ERR]
      ∧ ∀ a, a ≠ Reg.BILL_REC_STAT → e.rd a = s.dev.rd a))
  ∧ ∀ (s : State) (q : Nat) (ok : Bool), s.dev.bill.reading = some q →
    let bs := s.dev.framRd (0x90000 + q % 2867 * 0xA0) 160
    (ok = true → s.dev.bill.badRd = false → Effects (.recRdDone ok) s fun e =>
      (∀ w < 40, e.rd (Reg.BILL_REC_RD w) = leNat ((bs.drop (4 * w)).take 4)) ∧ e.bill = { s.dev.bill with reading := none }
      ∧ e.f Fld.BILL_REC_RD_STAT_BUSY = 0 ∧ e.mem = s.dev.mem
      ∧ e.f Fld.BILL_REC_RD_STAT_RESULT
        = if leNat ((bs.drop 4).take 4) = q ∧ leNat ((bs.drop 92).take 4) = crc32 (bs.take 92) then 0 else 2)
    ∧ ((ok = false ∨ s.dev.bill.badRd = true) → Effects (.recRdDone ok) s fun e =>
      e.f Fld.BILL_REC_RD_STAT_RESULT = 3 ∧ e.bill = { s.dev.bill with reading := none } ∧ e.mem = s.dev.mem
      ∧ ∀ a, a ≠ Reg.BILL_REC_RD_STAT → e.rd a = s.dev.rd a)

/-- Entries, verdicts, releases and logins of PREPAY. VERDICT 1 or 2 for a held entry is kept (AT_LIMIT in the release
tick); with no entry held nothing changes. ENTRY_RELEASE of a held entry, whose account's frame holds readable words
where it is pinned, takes the first cause of R299 that applies; with one RESULT is refused and CAUSE its code, else
accepted; the entry is gone, RES names the account, RESULT is raised. A refusal other than LOCKED is counted in
REF_CNT and enters the history (locking nothing with fewer than four in it); a PIN refusal increments PIN_FAIL; no
other refusal writes the context. An accepted CREDIT or DEBIT token and emergency credit change CREDIT and what is
owed as R302 and R303 say, every accepted token moves the window and counts, an accepted login sets LOGIN.
ENTRY_ABANDON drops the keys; KEYPAD_LOCK_END unlocks; LOGIN_SET creates a HOST login, LOGIN_CLR and LOGIN_TIMEOUT end
one. (rests on R295, R297, R299, R301, R302, R303, R309, R310, R311) -/
def Obligations.EntriesAndLogins : Prop :=
  (∀ (s : State) (r : Requester) (v : Word) (tick : Bool), s.dev.writable r .prepay = true →
    (∀ x, s.dev.prepay.held = some x → (bits v.toNat 0 2 = 1 ∨ bits v.toNat 0 2 = 2) → Effects (.verdict r v tick) s fun e =>
      e.prepay = { s.dev.prepay with held := some { x with verdict := some (decide (bits v.toNat 0 2 = 1)) } }
      ∧ (tick = true → e.f Fld.PREPAY_RES_AT_LIMIT = 1) ∧ ∀ a, a ≠ Reg.PREPAY_RES → e.rd a = s.dev.rd a)
    ∧ (s.dev.prepay.held = none → Effects (.verdict r v tick) s fun e => e.units = s.dev.units ∧ e.regs = s.dev.regs))
  ∧ (∀ (s : State) (x : KeyEntry), s.dev.prepay.held = some x →
    let n := s.dev.entryAcct x
    let f := s.dev.pinnedFrame n
    let words := fun (d : Dev) (g : Nat) => ctxPlaces.map fun w => (d.memPeek 19 (g * 64 + w)).getD 0
    let c := ctxOf (words s.dev (f.getD 0))
    let ty := bits x.number 20 4
    let a := bits x.number 24 16 * 10 ^ s.dev.f Fld.PREPAY_CFG_AMT_UNIT
    let cleared := min a c.owed
    let ec := s.dev.rd Reg.PREPAY_EC_LIMIT
    let credit : Int := if x.kind = 1 ∧ ty = 0 then c.credit + a - cleared else if x.kind = 1 ∧ ty = 1 then c.credit - a
      else if x.kind = 3 then c.credit + ec else c.credit
    let dist := sgn 16 (bits x.number 40 16 + 65536 - c.seq)
    let used := decide (dist = 0) || (decide (-32 ≤ dist ∧ dist < 0) && bit c.map (-dist - 1).toNat)
    let rows : List (Bool × Nat) :=
      [(x.locked, 12), (x.tamper, 15),
        (x.malformed || decide (x.kind = 1 ∧ 2 ^ 66 ≤ x.number) || decide (x.kind = 2 ∧ 1023 < x.number), 1),
        (decide (x.kind = 3) && !s.dev.on Fld.PREPAY_LOGIN_VALID, 11), (x.verdict.isNone, 14), (f.isNone, 13),
        (!bit c.flags 0, 6), (decide (x.kind = 1) && x.verdict == some false, 2),
        (decide (x.kind = 2) && (x.verdict == some false || !bit c.flags 3), 8),
        (decide (x.kind ≠ 1) && bit c.flags 1, 9), (decide (x.kind = 1 ∧ 5 < ty), 5),
        (decide (x.kind = 1) && bit c.valid 0 && used, 3), (decide (x.kind = 1 ∧ dist < -32) && bit c.valid 0, 4),
        (decide (x.kind = 1 ∧ ty ≤ 1 ∨ x.kind = 3)
          && decide ((s.dev.rd Reg.PREPAY_CREDIT_MAX : Int) < credit ∨ credit < -(2 ^ 47)), 7),
        (decide (x.kind = 3) && !(decide (0 < ec ∧ c.credit ≤ 0 ∧ 0 < c.credit + ec ∧ c.owed = 0) && !bit c.ecFlags 1), 10)]
    let cause := ((rows.find? (·.1)).map (·.2)).getD 0
    x.kind ∈ [1, 2, 3] → (∀ g, f = some g → ∀ w < 64, (s.dev.memPeek 19 (g * 64 + w)).isSome = true) →
    Effects .entryRelease s fun e =>
      let c' := ctxOf (words e (f.getD 0))
      e.prepay.held = none ∧ e.f Fld.PREPAY_ENT_STAT_STATE = 0 ∧ e.f Fld.PREPAY_RES_ACCT = n ∧ Ev.PREPAY_RESULT ∈ e.edges
      ∧ e.f Fld.PREPAY_RES_CAUSE = cause ∧ e.f Fld.PREPAY_RES_RESULT = (if cause = 0 then 1 else 2)
      ∧ e.on Fld.PREPAY_RES_TAMPER_DURING = x.during
      ∧ ((cause = 0 ∨ cause = 12) → e.rd Reg.PREPAY_REF_CNT = s.dev.rd Reg.PREPAY_REF_CNT ∧ e.lockout = s.dev.lockout)
      ∧ (cause ≠ 0 → cause ≠ 12 → e.rd Reg.PREPAY_REF_CNT = satInc 32 (s.dev.rd Reg.PREPAY_REF_CNT)
          ∧ (s.dev.lockout.hist.length < 4 → e.f Fld.PREPAY_LOCK_HIST = s.dev.lockout.hist.length + 1
              ∧ e.f Fld.PREPAY_LOCK_LOCKED = s.dev.f Fld.PREPAY_LOCK_LOCKED))
      ∧ ∀ g, f = some g →
          (cause ≠ 0 → cause ≠ 8 → c' = c)
          ∧ (cause = 8 → c' = { c with pinFail := (c.pinFail + 1) % 2 ^ 16 })
          ∧ (cause = 0 → c'.credit = credit)
          ∧ (cause = 0 → x.kind = 1 → c'.tokCnt = (c.tokCnt + 1) % 2 ^ 32 ∧ bit c'.valid 0 = true
              ∧ c'.seq = (if bit c.valid 0 = true ∧ dist < 0 then c.seq else bits x.number 40 16)
              ∧ (ty = 0 → c'.owed = c.owed - cleared ∧ bit c'.ecFlags 0 = decide (cleared < c.owed))
              ∧ (ty = 3 → bit c'.flags 1 = true) ∧ (ty = 4 → bit c'.flags 1 = false ∧ c'.pinFail = 0)
              ∧ (ty = 5 → bit c'.flags 3 = false) ∧ (ty = 2 → c'.fh = bits x.number 24 4) ∧ bit c'.ecFlags 1 = false)
          ∧ (cause = 0 → x.kind = 3 → c'.owed = ec ∧ bit c'.ecFlags 0 = true ∧ bit c'.ecFlags 1 = true
              ∧ c'.ecCnt = (c.ecCnt + 1) % 2 ^ 16)
          ∧ (cause = 0 → x.kind = 2 → c' = c ∧ e.f Fld.PREPAY_LOGIN_ACCT = n ∧ e.on Fld.PREPAY_LOGIN_VALID = true))
  ∧ (∀ s : State, s.dev.prepay.keys ≠ [] → Effects .entryAbandon s fun e =>
    e.prepay = { s.dev.prepay with keys := [] } ∧ e.f Fld.PREPAY_ENT_STAT_STATE = 0 ∧ e.edges = s.dev.edges
    ∧ e.rd Reg.PREPAY_REF_CNT = s.dev.rd Reg.PREPAY_REF_CNT)
  ∧ (∀ s : State, s.dev.calm = true → Yields .keypadLockEnd s fun e =>
    e.f Fld.PREPAY_LOCK_LOCKED = 0 ∧ e.f Fld.PREPAY_LOCK_HIST = s.dev.f Fld.PREPAY_LOCK_HIST
    ∧ s.dev.keeps e [Reg.PREPAY_LOCK] ∧ e.units = s.dev.units)
  ∧ ∀ (s : State) (r : Requester) (acct : Fin 1024), s.dev.calm = true →
    (s.dev.writable r .prepay = true →
      (Yields (.loginSet r acct) s fun e => e.f Fld.PREPAY_LOGIN_ACCT = acct.val ∧ e.f Fld.PREPAY_LOGIN_HOST = 1
        ∧ e.f Fld.PREPAY_LOGIN_VALID = 1 ∧ s.dev.keeps e [Reg.PREPAY_LOGIN] ∧ e.units = s.dev.units)
      ∧ (Yields (.loginClr r) s fun e => e.f Fld.PREPAY_LOGIN_VALID = 0 ∧ s.dev.keeps e [Reg.PREPAY_LOGIN] ∧ e.units = s.dev.units))
    ∧ Yields .loginTimeout s fun e => e.f Fld.PREPAY_LOGIN_VALID = 0 ∧ s.dev.keeps e [Reg.PREPAY_LOGIN] ∧ e.units = s.dev.units

/-- Keys, the display and lamp diagnosis. KEY_ACCEPTED with PER on, the keypad enabled and the key up: alone, it is
pushed into the FIFO (FIFO_OVR where full) and raises KEY; '#' with no entry in progress scrolls and raises MANUAL; a
digit or '*' starts an entry; '#' after twenty digits holds a token with their number and raises ENTRY; with another
key it raises MULTI and nothing more. KEY_RELEASED clears DOWN while the keypad is scanned, STUCK takes its key out
and raises STUCK. KEY_FIFO_READ by the legal side answers and removes the oldest entry, EMPTY where there is none; the
application side reads 0 from KEY_FIFO and KEY_STAT. SCROLL_STEP shows the next item of the sequence, ITEM_REFRESH of
the CHK item its eight digits on their SEG and COM lines, RESULT_SHOWN_END resumes the scroll and raises RESULT_SHOWN.
LAMP_DIAG_RESULT of a lamp in diagnosis is judged by R329 at the duty in force (LMP_DUTY, or the one before it where
no period has started since its write), counted, and the run moves as R330 says; LAMP_CLR clears latch and run. (rests
on R295, R300, R316, R319, R321, R323, R324, R325, R326, R327, R329, R330) -/
def Obligations.KeysDisplayAndLamps : Prop :=
  (∀ (s : State) (c : Fin 16) (more : Bool), s.dev.domOn .per = true → s.dev.on Fld.KEYPAD_CTRL_EN = true →
    bit (s.dev.f Fld.KEYPAD_KEY_STAT_DOWN) c.val = false → s.dev.panel.multi = false →
    (more = false → s.dev.keysDown = 0 → Effects (.keyAccepted c more) s fun e =>
      bit (e.f Fld.KEYPAD_KEY_STAT_DOWN) c.val = true ∧ Ev.KEYPAD_KEY ∈ e.edges
      ∧ (s.dev.panel.fifo.length < 8 → e.panel.fifo = s.dev.panel.fifo ++ [c.val])
      ∧ (8 ≤ s.dev.panel.fifo.length → e.panel.fifo = s.dev.panel.fifo ∧ Ev.KEYPAD_FIFO_OVR ∈ e.edges)
      ∧ (c.val % 4 = 3 → e.prepay = s.dev.prepay ∧ e.f Fld.LCD_STATUS_ITEM = s.dev.f Fld.LCD_STATUS_ITEM)
      ∧ (c.val = 14 → s.dev.f Fld.PREPAY_ENT_STAT_STATE = 0 → Ev.LCD_MANUAL ∈ e.edges ∧ e.prepay = s.dev.prepay
          ∧ e.f Fld.LCD_STATUS_ITEM = (s.dev.scrollSeq.find? fun x => s.dev.f Fld.LCD_STATUS_ITEM < x).getD 0)
      ∧ (c.val % 4 ≠ 3 → c.val ≠ 14 → s.dev.prepayOn = true → s.dev.prepay.held = none → s.dev.prepay.keys = [] →
          e.prepay = { s.dev.prepay with keys := [c.val] } ∧ e.f Fld.PREPAY_ENT_STAT_STATE = 1 ∧ e.f Fld.LCD_STATUS_MODE = 1)
      ∧ (c.val = 14 → s.dev.prepayOn = true → s.dev.prepay.held = none → s.dev.prepay.keys.length = 20 →
          s.dev.f Fld.PREPAY_ENT_STAT_STATE = 1 → (∀ k ∈ s.dev.prepay.keys, (keyDigit k).isSome = true) →
          ∃ x : KeyEntry, e.prepay = { held := some x } ∧ x.kind = 1 ∧ x.malformed = false ∧ x.verdict = none
            ∧ x.number = s.dev.prepay.keys.foldl (fun n k => 10 * n + (keyDigit k).getD 0) 0
            ∧ x.locked = s.dev.on Fld.PREPAY_LOCK_LOCKED ∧ Ev.PREPAY_ENTRY ∈ e.edges ∧ e.f Fld.PREPAY_ENT_STAT_STATE = 2
            ∧ e.f Fld.PREPAY_ENT_ACCT_ACCT = bits x.number 56 10 ∧ e.f Fld.PREPAY_ENT_TOK_SEQ = bits x.number 40 16
            ∧ e.f Fld.PREPAY_ENT_TOK_AMT = bits x.number 24 16 ∧ e.f Fld.PREPAY_ENT_TOK2_TYPE = bits x.number 20 4
            ∧ e.f Fld.PREPAY_ENT_TOK2_MAC = bits x.number 0 20))
    ∧ ((more = true ∨ s.dev.keysDown ≠ 0) → Effects (.keyAccepted c more) s fun e =>
      bit (e.f Fld.KEYPAD_KEY_STAT_DOWN) c.val = true ∧ e.panel = { s.dev.panel with multi := true }
      ∧ e.prepay = s.dev.prepay ∧ e.edges = s.dev.edges ++ [Ev.KEYPAD_MULTI]))
  ∧ (∀ (s : State) (c : Fin 16), s.dev.domOn .per = true → bit (s.dev.f Fld.KEYPAD_KEY_STAT_DOWN) c.val = true →
    (s.dev.on Fld.KEYPAD_CTRL_EN = false → Effects (.keyReleased c) s fun e => e.regs = s.dev.regs ∧ e.panel = s.dev.panel)
    ∧ (s.dev.on Fld.KEYPAD_CTRL_EN = true → Effects (.keyReleased c) s fun e =>
      bit (e.f Fld.KEYPAD_KEY_STAT_DOWN) c.val = false ∧ bit e.panel.stuck c.val = false ∧ e.panel.fifo = s.dev.panel.fifo
      ∧ (∀ k < 16, k ≠ c.val → bit (e.f Fld.KEYPAD_KEY_STAT_DOWN) k = bit (s.dev.f Fld.KEYPAD_KEY_STAT_DOWN) k)
      ∧ (e.keysDown = 0 → e.panel.multi = false) ∧ e.edges = s.dev.edges)
    ∧ (bit s.dev.panel.stuck c.val = false → Effects (.stuck c) s fun e =>
      bit e.panel.stuck c.val = true ∧ e.edges = s.dev.edges ++ [Ev.KEYPAD_STUCK] ∧ e.regs = s.dev.regs))
  ∧ (∀ (s : State) (r : Requester), s.dev.calm = true → s.dev.opens r .keypad = true →
    Yields (.keyFifoRead r) s fun e =>
      s.dev.keeps e []
      ∧ (r.legal = true → ∀ k t, s.dev.panel.fifo = k :: t → e.bus = .data (BitVec.ofNat 32 k) ∧ e.panel = { s.dev.panel with fifo := t })
      ∧ (r.legal = true → s.dev.panel.fifo = [] → e.bus = .data 256 ∧ e.units = s.dev.units)
      ∧ (r.legal = false → e.bus = .data 0 ∧ e.units = s.dev.units ∧ (e.regRead r .keypad 0x48).1 = 0))
  ∧ (∀ s : State, s.dev.domOn .per = true →
    (s.dev.f Fld.LCD_STATUS_MODE = 0 → Effects .scrollStep s fun e =>
      e.f Fld.LCD_STATUS_ITEM = (s.dev.scrollSeq.find? fun x => s.dev.f Fld.LCD_STATUS_ITEM < x).getD 0
      ∧ e.panel = { s.dev.panel with shown := .item (e.f Fld.LCD_STATUS_ITEM) } ∧ e.edges = s.dev.edges)
    ∧ (s.dev.panel.shown = .item 0 → Effects .itemRefresh s fun e =>
      (∀ i < 8, bits (e.rd (if i < 4 then Reg.LCD_DISP_LO else Reg.LCD_DISP_HI)) (8 * (i % 4)) 8
        = hexGlyph (s.dev.rd Reg.FWALL_CHK / 16 ^ (7 - i)))
      ∧ (∀ l < 16, ∀ c < 4, e.segLit l c = bit (hexGlyph (s.dev.rd Reg.FWALL_CHK / 16 ^ (7 - l / 2)))
          ([0, 5, 4, 3, 1, 6, 2, 7].getD (l % 2 * 4 + c) 0))
      ∧ e.rd Reg.LCD_DISP_SYM = 1 ∧ e.panel = s.dev.panel)
    ∧ (s.dev.f Fld.LCD_STATUS_MODE = 2 → Effects .resultShownEnd s fun e =>
      e.f Fld.LCD_STATUS_MODE = 0 ∧ e.edges = s.dev.edges ++ [Ev.LCD_RESULT_SHOWN]))
  ∧ (∀ (s : State) (n : Fin 6) (m : LampMeas) (since : Nat), s.dev.domOn .per = true → bit s.dev.lamp.diag n.val = true →
    Effects (.lampDiagResult n m since) s fun e =>
      let res := vGet e.lamp.res n.val 0
      let duty := vGet e.lamp.duty n.val 0
      let judged := if m.reached = false then 2 else if s.dev.f Fld.LAMP_DIAG_CFG_SHORT_THR < m.volt then 3 else 1
      let run := s.dev.f (Fld.LAMP_LMP_STAT_RUN n.val)
      bit e.lamp.diag n.val = false
      ∧ (duty = vGet s.dev.lamp.duty n.val 0 ∨ duty = s.dev.f (Fld.LAMP_LMP_DUTY_DUTY n.val))
      ∧ e.f (Fld.LAMP_LMP_STAT_DIAG_CNT n.val) = satInc 16 (s.dev.f (Fld.LAMP_LMP_STAT_DIAG_CNT n.val))
      ∧ ((s.dev.on (Fld.LAMP_LMP_CFG_EN n.val) = false ∨ duty = 0) → res = 0)
      ∧ (s.dev.on (Fld.LAMP_LMP_CFG_EN n.val) = true → s.dev.on (Fld.LAMP_LMP_CFG_SHORT_OFF n.val) = false →
          (48 ≤ duty → res = judged)
          ∧ (0 < duty → duty < 48 → s.dev.on Fld.LAMP_DIAG_CFG_DIAG_STRETCH = false → res = 4))
      ∧ ((res = 0 ∨ res = 4) → e.f (Fld.LAMP_LMP_STAT_RUN n.val) = run) ∧ (res = 4 → Ev.LAMP_STARVED ∈ e.edges)
      ∧ (res = 1 → e.f (Fld.LAMP_LMP_STAT_RUN n.val) = 0)
      ∧ ((res = 2 ∨ res = 3) → vGet s.dev.lamp.last n.val 0 ≠ res → e.f (Fld.LAMP_LMP_STAT_RUN n.val) = 1)
      ∧ ((res = 2 ∨ res = 3) → vGet s.dev.lamp.last n.val 0 = res → run = 2 →
          e.on (Fld.LAMP_LMP_STAT_LATCHED n.val) = true ∧ (if res = 2 then Ev.LAMP_OPEN else Ev.LAMP_SHORT) ∈ e.edges)
      ∧ (e.lamp.diag = 0 → Ev.LAMP_DIAG_DONE ∈ e.edges))
  ∧ ∀ (s : State) (r : Requester) (n : Fin 6), s.dev.writable r .lamp = true → Effects (.lampClr r n) s fun e =>
    e.on (Fld.LAMP_LMP_STAT_LATCHED n.val) = false ∧ e.f (Fld.LAMP_LMP_STAT_RUN n.val) = 0
    ∧ e.f (Fld.LAMP_LMP_STAT_STATE n.val) = vGet s.dev.lamp.res n.val 0 % 8 ∧ ∀ a, a ≠ Reg.LAMP_LMP_STAT n.val → e.rd a = s.dev.rd a

/-- Tamper sources, their classes and their records. GANDER_OCCURRENCE of a source that is monitored, not active and
detected (a ball at its POL, DWELL readings, three checks of the mesh) makes it ACTIVE; where it is enabled it takes
its record (LAST, FIRST for the first one, CNT and TOTAL, with the calendar and its flags), class ALERT or ERASE
raises its event, class ERASE destroys the KWK, empties the key slots where LGL is on, aborts an operation of CRYPTO,
sets KWK_GONE and LAST_ERASE and raises KWK_DESTROYED, and a lower class sets TAMPER_DURING of an operation in
progress, which goes on. A source that is active, not detected, or not enabled, takes no record. SOURCE_RELEASE ends
the active state where what is measured says so, and keeps the records. DIE_TEMP_READING at or beyond a threshold
lengthens the run of readings beyond it, one in between resets both runs; MESH_CHECK counts likewise. GANDER_CLR in
BLANK or PROVISIONED clears every record but AON_RST's, in any other lifecycle nothing changes. (rests on R332, R333,
R334, R335, R336, R337, R338, R339, R342, R343) -/
def Obligations.TamperSourcesAndRecords : Prop :=
  (∀ (s : State) (k : Fin 14) (high : BitVec 7), k.val ≠ 7 → k.val ≠ 12 →
    let srcs := BitVec.ofNat 14 (2 ^ k.val)
    let n := s.dev.f (Fld.GANDER_REC_CNT_CNT k.val)
    let class_ := s.dev.f (Fld.GANDER_SRC_CFG_CLASS k.val)
    let active := bit (s.dev.f Fld.GANDER_STATUS_ACTIVE) k.val
    let monitored := s.dev.monitored k.val
    let detected : Prop := (k.val < 7 → b2n (high.getLsbD k.val) = s.dev.f (Fld.GANDER_SRC_CFG_POL k.val))
      ∧ (k.val = 11 → max 1 (s.dev.f Fld.GANDER_TEMP_CFG_DWELL) ≤ s.dev.gander.hot) ∧ (k.val = 13 → s.dev.gander.differ = 3)
    let hi := bits (s.dev.rd Reg.RTC_TIME_HI) 0 27 + b2n s.dev.bootFlag * 2 ^ 27 + b2n (s.dev.on Fld.PWR_SUPPLY_VBAT_ACTIVE) * 2 ^ 28
    let kept := fun (e : Dev) => ∀ j < 14, j ≠ k.val → e.rd (Reg.GANDER_REC_CNT j) = s.dev.rd (Reg.GANDER_REC_CNT j)
      ∧ e.rd (Reg.GANDER_LAST_LO j) = s.dev.rd (Reg.GANDER_LAST_LO j)
    (monitored = true → detected → active = false → s.dev.on (Fld.GANDER_SRC_CFG_EN k.val) = true →
      Effects (.ganderOccurrence srcs high) s fun e =>
        bit (e.f Fld.GANDER_STATUS_ACTIVE) k.val = true ∧ kept e
        ∧ e.f (Fld.GANDER_REC_CNT_CNT k.val) = min (n + 1) 0xFFFF ∧ e.rd Reg.GANDER_TOTAL = satInc 32 (s.dev.rd Reg.GANDER_TOTAL)
        ∧ e.rd (Reg.GANDER_LAST_LO k.val) = s.dev.rd Reg.RTC_TIME_LO ∧ e.rd (Reg.GANDER_LAST_HI k.val) = hi
        ∧ (n = 0 → e.rd (Reg.GANDER_FIRST_LO k.val) = s.dev.rd Reg.RTC_TIME_LO ∧ e.rd (Reg.GANDER_FIRST_HI k.val) = hi)
        ∧ (n ≠ 0 → e.rd (Reg.GANDER_FIRST_LO k.val) = s.dev.rd (Reg.GANDER_FIRST_LO k.val))
        ∧ (n = 0xFFFE → Ev.GANDER_SAT ∈ e.edges) ∧ (1 ≤ class_ → Ev.GANDER_SRC k.val ∈ e.edges)
        ∧ (2 ≤ class_ → e.kwk = 0 ∧ e.on Fld.CRYPTO_STAT_KWK_OK = false ∧ e.on Fld.GANDER_STATUS_KWK_GONE = true
            ∧ e.f Fld.GANDER_STATUS_LAST_ERASE = k.val ∧ Ev.GANDER_KWK_DESTROYED ∈ e.edges
            ∧ (s.dev.domOn .lgl = true → e.crypto.keys = Vector.replicate 8 0 ∧ e.rd Reg.CRYPTO_KS_INFO = 0
                ∧ e.crypto.run = none ∧ Ev.CRYPTO_KEY_LOST ∈ e.edges
                ∧ (s.dev.crypto.run ≠ none → e.f Fld.CRYPTO_STAT_RESULT = 4 ∧ Ev.CRYPTO_TAMPER_ABORT ∈ e.edges
                    ∧ ∀ w < 16, e.rd (Reg.CRYPTO_DOUT w) = 0)))
        ∧ (class_ < 2 → e.kwk = s.dev.kwk ∧ e.crypto = s.dev.crypto
            ∧ (s.dev.crypto.run ≠ none → e.on Fld.CRYPTO_STAT_TAMPER_DURING = true)))
    ∧ ((active = true ∨ monitored = false ∨ ¬detected) → Effects (.ganderOccurrence srcs high) s fun e => e.regs = s.dev.regs ∧ e.kwk = s.dev.kwk)
    ∧ (s.dev.on (Fld.GANDER_SRC_CFG_EN k.val) = false → Effects (.ganderOccurrence srcs high) s fun e =>
        kept e ∧ e.f (Fld.GANDER_REC_CNT_CNT k.val) = n ∧ e.rd Reg.GANDER_TOTAL = s.dev.rd Reg.GANDER_TOTAL ∧ e.edges = s.dev.edges
        ∧ e.kwk = s.dev.kwk))
  ∧ (∀ (s : State) (k : Fin 14) (high : Bool),
    let ended : Prop := (k.val < 7 → b2n high ≠ s.dev.f (Fld.GANDER_SRC_CFG_POL k.val))
      ∧ (k.val = 11 → max 1 (s.dev.f Fld.GANDER_TEMP_CFG_DWELL) ≤ s.dev.gander.cool) ∧ (k.val = 13 → s.dev.gander.same = 3)
    Effects (.sourceRelease k high) s fun e =>
    (ended → bit (e.f Fld.GANDER_STATUS_ACTIVE) k.val = false)
    ∧ (¬ended → e.f Fld.GANDER_STATUS_ACTIVE = s.dev.f Fld.GANDER_STATUS_ACTIVE) ∧ e.edges = s.dev.edges ∧ e.rd Reg.GANDER_TOTAL = s.dev.rd Reg.GANDER_TOTAL
    ∧ ∀ j < 14, (j ≠ k.val → bit (e.f Fld.GANDER_STATUS_ACTIVE) j = bit (s.dev.f Fld.GANDER_STATUS_ACTIVE) j)
        ∧ e.f (Fld.GANDER_REC_CNT_CNT j) = s.dev.f (Fld.GANDER_REC_CNT_CNT j)
        ∧ e.rd (Reg.GANDER_LAST_LO j) = s.dev.rd (Reg.GANDER_LAST_LO j))
  ∧ (∀ (s : State) (t : Int), -32768 ≤ t → t < 32768 →
    let lo := sgn 16 (s.dev.f Fld.GANDER_TEMP_THR_TLO)
    let hi := sgn 16 (s.dev.f Fld.GANDER_TEMP_THR_THI)
    let hyst : Int := max 5 (s.dev.f Fld.GANDER_TEMP_CFG_HYST)
    let dwell := max 1 (s.dev.f Fld.GANDER_TEMP_CFG_DWELL)
    Effects (.dieTempReading t) s fun e =>
      sgn 16 (e.rd Reg.GANDER_TEMP_NOW) = t
      ∧ ((hi ≤ t ∨ t ≤ lo) → e.gander.hot = min 15 (s.dev.gander.hot + 1) ∧ e.gander.cool = 0
          ∧ (dwell ≤ s.dev.gander.hot + 1 → bit (e.f Fld.GANDER_STATUS_ACTIVE) 11 = true)
          ∧ (s.dev.gander.hot + 1 < dwell → e.f Fld.GANDER_STATUS_ACTIVE = s.dev.f Fld.GANDER_STATUS_ACTIVE ∧ e.edges = s.dev.edges))
      ∧ (lo + hyst < t → t < hi - hyst → e.gander.hot = 0 ∧ e.gander.cool = min 15 (s.dev.gander.cool + 1)
          ∧ (dwell ≤ s.dev.gander.cool + 1 → bit (e.f Fld.GANDER_STATUS_ACTIVE) 11 = false))
      ∧ (lo < t → t < hi → (t ≤ lo + hyst ∨ hi - hyst ≤ t) → e.gander.hot = 0 ∧ e.gander.cool = 0
          ∧ e.f Fld.GANDER_STATUS_ACTIVE = s.dev.f Fld.GANDER_STATUS_ACTIVE))
  ∧ (∀ s : State,
    (Effects (.meshCheck false) s fun e =>
      e.gander.differ = min 3 (s.dev.gander.differ + 1) ∧ e.gander.same = 0
      ∧ (2 ≤ s.dev.gander.differ → bit (e.f Fld.GANDER_STATUS_ACTIVE) 13 = true)
      ∧ (s.dev.gander.differ < 2 → e.regs = s.dev.regs))
    ∧ Effects (.meshCheck true) s fun e =>
      e.gander.same = min 3 (s.dev.gander.same + 1) ∧ e.gander.differ = 0
      ∧ (2 ≤ s.dev.gander.same → bit (e.f Fld.GANDER_STATUS_ACTIVE) 13 = false) ∧ (s.dev.gander.same < 2 → e.regs = s.dev.regs))
  ∧ ∀ (s : State) (r : Requester), s.dev.calm = true → s.dev.writable r .gander = true → Yields (.ganderClr r) s fun e =>
    ((s.dev.lifecycle = .blank ∨ s.dev.lifecycle = .provisioned) → e.rd Reg.GANDER_TOTAL = 0
      ∧ (∀ j < 14, j ≠ 12 → e.f (Fld.GANDER_REC_CNT_CNT j) = 0 ∧ e.rd (Reg.GANDER_FIRST_LO j) = 0
          ∧ e.rd (Reg.GANDER_LAST_LO j) = 0 ∧ e.rd (Reg.GANDER_LAST_HI j) = 0)
      ∧ e.rd (Reg.GANDER_REC_CNT 12) = s.dev.rd (Reg.GANDER_REC_CNT 12) ∧ e.rd (Reg.GANDER_LAST_LO 12) = s.dev.rd (Reg.GANDER_LAST_LO 12))
    ∧ ((s.dev.lifecycle = .sealed ∨ s.dev.lifecycle = .unsealed ∨ s.dev.lifecycle = .retired) → s.dev.keeps e [])
    ∧ e.units = s.dev.units

/-- Host frames and transactions. With PER and SYS on, PER not quiescing and no transaction in progress: HSPI_WRITE of
words that lie in the DPM stores each at its word, HSPI_READ returns them (0 from a word that missed its deadline on,
which fails with NOTREADY; AT_LIMIT where told); a frame cut inside a word fails with ALIGN there; an unlisted command
byte with BADCMD. Every frame answers the status byte of the frame before, counts in FRAME_CNT, sets MODE3; a failure
stands in LAST_ERR, LAST_ADDR, ERR_CNT, raises FRAME_ERR and shows in the next status. A first word that is unaligned,
outside the host view or in an unreached target fails with ALIGN, RANGE, BUSERR; a frame fails with PORT_BUSY while
I2C holds the port, ABORT while PER quiesces, NOTREADY while a word of the frame before is held. A frame that goes on
has no result yet and holds the port. A write that comes second in a DPM collision is performed and shows DPM_BUSY.
I2C_SET_POINTER sets the pointer; I2C_WRITE and I2C_READ move it on over the DPM words they write or read; an address
byte while HSPI holds the port is NACKed with PORT_BUSY. A read stretch of a transaction's last word that times out
fails with NOTREADY and zeros. (rests on R201, R382, R383, R384, R386, R387, R388, R389, R394, R395) -/
def Obligations.HostFramesAndTransactions : Prop :=
  ∀ s : State, s.dev.domOn .per = true → s.dev.domOn .sys = true → s.dev.clearing = false →
  let p := s.dev.ports.host
  let hspi (e : Dev) (mode : Fin 4) (ws : List Word) (fail : Option (Nat × Nat)) (busy limit : Bool) : Prop :=
    e.bus = .frame (BitVec.ofNat 8 (0x40 + b2n (s.dev.line 2) * 32 + b2n p.busy * 16 + b2n p.limit * 8 + p.result)) ws
    ∧ e.rd Reg.HSPI_FRAME_CNT = (s.dev.rd Reg.HSPI_FRAME_CNT + 1) % 2 ^ 32
    ∧ e.f Fld.HSPI_HOST_STAT_MODE3 = (if 2 ≤ mode.val then 1 else 0)
    ∧ e.f Fld.HSPI_HOST_STAT_BUSY_SEEN = (if busy then 1 else s.dev.f Fld.HSPI_HOST_STAT_BUSY_SEEN)
    ∧ e.f Fld.HSPI_HOST_STAT_AT_LIMIT = (if limit then 1 else s.dev.f Fld.HSPI_HOST_STAT_AT_LIMIT)
    ∧ e.ports = { s.dev.ports with host := { p with result := (fail.map (·.1)).getD 0, busy := busy, limit := limit } }
    ∧ (match fail with
      | none => e.f Fld.HSPI_HOST_STAT_LAST_ERR = s.dev.f Fld.HSPI_HOST_STAT_LAST_ERR
          ∧ e.rd Reg.HSPI_LAST_ADDR = s.dev.rd Reg.HSPI_LAST_ADDR
          ∧ e.f Fld.HSPI_HOST_STAT_ERR_CNT = s.dev.f Fld.HSPI_HOST_STAT_ERR_CNT
      | some (c, a) => e.f Fld.HSPI_HOST_STAT_LAST_ERR = c ∧ e.rd Reg.HSPI_LAST_ADDR = a
          ∧ e.f Fld.HSPI_HOST_STAT_ERR_CNT = satInc 8 (s.dev.f Fld.HSPI_HOST_STAT_ERR_CNT))
    ∧ e.edges = s.dev.edges ++ (if fail.isSome then [Ev.HSPI_FRAME_ERR] else [])
        ++ (if limit then [Ev.HSPI_AT_LIMIT] else [])
    ∧ ∀ a, a ∉ [Reg.HSPI_FRAME_CNT, Reg.HSPI_HOST_STAT, Reg.HSPI_LAST_ADDR] → e.rd a = s.dev.rd a
  let stored (e : Dev) (h : Nat) (words : List Word) : Prop :=
    (∀ i < words.length, e.codeword 20 (h / 4 + i) = encodeWord 20 (h / 4 + i) (words.getD i 0).toNat)
    ∧ ∀ b w, w < 8192 → (b ≠ 20 ∨ w < h / 4 ∨ h / 4 + words.length ≤ w) → e.codeword b w = s.dev.codeword b w
  let holds (h n : Nat) (x : Nat → Word) : Prop :=
    ∀ i < n, h + 4 * i < 0x2000 → s.dev.codeword 20 (h / 4 + i) = encodeWord 20 (h / 4 + i) (x i).toNat
  let all : TxPart := ⟨true, true⟩
  (∀ (a : Nat) (mode : Fin 4) (words : List Word) (tail : Fin 32), a < 2 ^ 24 →
    (s.dev.quiescing .per = false → p.tx = none → a % 4 = 0 → a + 4 * words.length ≤ 0x2000 →
      (Effects (.hspiWrite ⟨a, mode, none, all⟩ words tail) s fun e => stored e a words
        ∧ hspi e mode [] (if tail = 0 then none else some (3, a + 4 * words.length)) false false)
      ∧ Effects (.hspiWrite ⟨a, mode, none, ⟨true, false⟩⟩ words tail) s fun e => stored e a words
        ∧ e.ports = { s.dev.ports with host := { p with tx := some { i2c := false, addr := a + 4 * words.length } } }
        ∧ e.edges = s.dev.edges)
    ∧ (s.dev.quiescing .per = false → p.tx = none → a % 4 = 0 → a < 0x2000 → ∀ v : Word,
      Effects (.hspiWrite ⟨a, mode, some ⟨a / 4, false, true⟩, all⟩ [v] 0) s fun e => stored e a [v]
        ∧ e.ports.host = { p with result := 0, busy := true, limit := false }
        ∧ e.f Fld.HSPI_HOST_STAT_BUSY_SEEN = 1 ∧ e.rd Reg.DPM_COLL_ADDR = a / 4
        ∧ e.f Fld.DPM_DPM_STAT_LAST_LATER = 1 ∧ e.edges = s.dev.edges ++ [Ev.DPM_COLL_B])
    ∧ ∀ c : Nat,
      ((p.tx.any (·.i2c) = true ∧ c = 7)
        ∨ (p.tx = none ∧ s.dev.quiescing .per = true ∧ c = 6)
        ∨ (p.tx.any (fun x => !x.i2c && x.held.isSome) = true ∧ s.dev.quiescing .per = false ∧ c = 5)
        ∨ (p.tx = none ∧ s.dev.quiescing .per = false
            ∧ ((a % 4 ≠ 0 ∧ c = 3) ∨ (a % 4 = 0 ∧ hostAddr a = none ∧ c = 2)
              ∨ (a % 4 = 0 ∧ c = 4 ∧ ∃ q o, hostAddr a = some (pageBase q + o) ∧ o < 0x1000 ∧ s.dev.reaches q.dom = false)))) →
      (words ≠ [] → Effects (.hspiWrite ⟨a, mode, none, all⟩ words tail) s fun e =>
        hspi e mode [] (some (c, a)) false false ∧ e.mem = s.dev.mem)
      ∧ ∀ n, 0 < n → Effects (.hspiRead ⟨a, mode, none, all⟩ n none false 0) s fun e =>
        hspi e mode (List.replicate n 0) (some (c, a)) false false ∧ e.mem = s.dev.mem)
  ∧ (s.dev.quiescing .per = false → p.tx = none →
    (∀ (a n : Nat) (mode : Fin 4) (x : Nat → Word) (limit : Bool), a % 4 = 0 → a + 4 * n ≤ 0x2000 → holds a (n + 1) x →
      (Effects (.hspiRead ⟨a, mode, none, all⟩ n none limit 0) s fun e =>
        e.mem = s.dev.mem ∧ hspi e mode ((List.range n).map x) none false limit)
      ∧ ∀ k < n, Effects (.hspiRead ⟨a, mode, none, all⟩ n (some k) limit 0) s fun e => e.mem = s.dev.mem
          ∧ hspi e mode ((List.range n).map fun i => if i < k then x i else 0) (some (5, a + 4 * k)) false limit)
    ∧ (∀ (cmd : Byte) (mode : Fin 4), cmd ≠ 2 → cmd ≠ 3 → Effects (.hspiBadcmd cmd mode) s fun e =>
        hspi e mode [] (some (1, 0)) false false ∧ e.mem = s.dev.mem)
    ∧ (s.dev.on Fld.I2CT_ADDR_EN = true →
      (∀ a < 2 ^ 24, Effects (.i2cSetPointer a all) s fun e =>
        e.rd Reg.I2CT_PTR = a ∧ e.edges = s.dev.edges ∧ e.units = s.dev.units ∧ ∀ b, b ≠ Reg.I2CT_PTR → e.rd b = s.dev.rd b)
      ∧ (∀ (a : Nat) (words : List Word) (tail : Fin 4), a % 4 = 0 → a + 4 * words.length ≤ 0x2000 →
        Effects (.i2cWrite a words tail none all) s fun e => stored e a words ∧ e.rd Reg.I2CT_PTR = a + 4 * words.length
          ∧ (tail = 0 → e.edges = s.dev.edges ∧ ∀ b, b ≠ Reg.I2CT_PTR → e.rd b = s.dev.rd b)
          ∧ (tail ≠ 0 → e.edges = s.dev.edges ++ [Ev.I2CT_I2C_ERR] ∧ e.f Fld.I2CT_STAT_LAST_ERR = 3
            ∧ e.rd Reg.I2CT_LAST_ADDR = a + 4 * words.length))
      ∧ ∀ (n : Nat) (x : Nat → Word) (limit : Bool), s.dev.rd Reg.I2CT_PTR % 4 = 0 →
        s.dev.rd Reg.I2CT_PTR + 4 * n ≤ 0x2000 → holds (s.dev.rd Reg.I2CT_PTR) n x →
        Effects (.i2cRead n 0 none limit all) s fun e =>
          e.bus = .words ((List.range n).map x) ∧ e.rd Reg.I2CT_PTR = s.dev.rd Reg.I2CT_PTR + 4 * n ∧ e.mem = s.dev.mem
          ∧ e.f Fld.I2CT_STAT_AT_LIMIT = (if limit then 1 else s.dev.f Fld.I2CT_STAT_AT_LIMIT)
          ∧ e.edges = s.dev.edges ++ if limit then [Ev.I2CT_AT_LIMIT] else []))
  ∧ (p.tx.any (!·.i2c) = true → s.dev.on Fld.I2CT_ADDR_EN = true → ∀ (a : Nat) (last : Bool),
    Effects (.i2cSetPointer a ⟨true, last⟩) s fun e =>
      e.bus = .nack ∧ e.f Fld.I2CT_STAT_NACK_CNT = satInc 16 (s.dev.f Fld.I2CT_STAT_NACK_CNT) ∧ e.edges = s.dev.edges ++ [Ev.I2CT_PORT_BUSY]
      ∧ e.units = s.dev.units ∧ ∀ b, b ≠ Reg.I2CT_STAT → e.rd b = s.dev.rd b)
  ∧ ∀ q : HostTx, p.tx = some q → q.i2c = true → q.next = some .held → q.closed = true → q.addr < 2 ^ 24 →
    Effects .i2cReadStretchTimeout s fun e =>
      e.bus = .words (List.replicate q.n 0) ∧ e.ports.host.tx = none ∧ e.f Fld.I2CT_STAT_LAST_ERR = 5
      ∧ e.rd Reg.I2CT_LAST_ADDR = q.addr ∧ e.f Fld.I2CT_STAT_ERR_CNT = satInc 8 (s.dev.f Fld.I2CT_STAT_ERR_CNT)
      ∧ e.edges = s.dev.edges ++ [Ev.I2CT_I2C_ERR] ∧ e.mem = s.dev.mem

/-- The host DMA, MSPI and the UART. HSPI_DMA_GO takes the settings and shows BUSY, unless a copy runs; HSPI_DMA_DONE
leaves every word copied to the bank HOSTDMA owns, all else as it was, with DMA_DONE; where HOSTDMA does not own it,
nothing is copied and DMA_ERR is raised. MSPI_TRANSFER_DONE of a MULE or BILL transfer counts it, records the status
byte and fails with SR and FAIL where the check does not pass; MSPI_TIMEOUT ends a transfer with TIMEOUT, and the
failure is that of the page-in, or of the ring access, that made it. MSPI_DIRECT_GO starts a direct transfer unless
one runs, REFUSED while MULE.CTRL.EN is 1; DIR_DONE stores the bytes read and raises DIR_DONE. MSPI_CFG_WRITE sets
CFG, and TX_NOW and TX_OK follow while PLL_S runs, with TX_SLOW where TX_OK falls. UART: a byte received goes into the
FIFO with RX_DATA, or into the ring as the fourth of a word; errors and an overrun set their bits with RX_ERR; the
byte sent makes room for the next, TX_EMPTY where there is none; DATA takes and gives bytes; an engine starts at the
head of its area. (rests on R31, R182, R392, R397, R398, R399, R400, R401, R402, R403) -/
def Obligations.HostDmaMspiAndUart : Prop :=
  (∀ (s : State) (r : Requester) (toBank : Bool), s.dev.writable r .hspi = true → s.dev.locked .hspi 0x40 = false →
    Effects (.hspiDmaGo r toBank) s fun e =>
      e.bus = .done ∧ e.mem = s.dev.mem ∧ e.edges = s.dev.edges
      ∧ (s.dev.ports.dma = none → e.f Fld.HSPI_DMA_CTRL_BUSY = 1 ∧ e.ports = { s.dev.ports with
          dma := some ⟨s.dev.f Fld.HSPI_DMA_DPM_WORD, s.dev.f Fld.HSPI_DMA_S_BANK, s.dev.f Fld.HSPI_DMA_S_WORD,
            min 2048 (max 1 (s.dev.f Fld.HSPI_DMA_LEN_LEN)), !toBank⟩ })
      ∧ (s.dev.ports.dma ≠ none → e.ports = s.dev.ports))
  ∧ (∀ (s : State) (q : HostDma) (x : Nat → Word), s.dev.ports.dma = some q → s.dev.clearing = false → q.bank < 16 →
    0 < q.len → q.dpm + q.len ≤ 2048 → q.word + q.len ≤ 8192 → s.dev.domOn (bankDom q.bank) = true → s.dev.domOn .per = true →
    let src := if q.toDpm then (q.bank, q.word) else (20, q.dpm)
    let dst := if q.toDpm then (20, q.dpm) else (q.bank, q.word)
    (∀ i < q.len, s.dev.codeword src.1 (src.2 + i) = encodeWord src.1 (src.2 + i) (x i).toNat) →
    s.dev.on (Fld.MEMCTL_BANK_OWN_IN_TRANSIT q.bank) = false →
    Effects (.hspiDmaDone none) s fun e =>
      e.ports = { s.dev.ports with dma := none } ∧ e.f Fld.HSPI_DMA_CTRL_BUSY = 0
      ∧ (s.dev.f (Fld.MEMCTL_BANK_OWN_OWNER q.bank) = 6 →
          (∀ i < q.len, e.codeword dst.1 (dst.2 + i) = encodeWord dst.1 (dst.2 + i) (x i).toNat)
          ∧ (∀ b w, w < 8192 → (b ≠ dst.1 ∨ w < dst.2 ∨ dst.2 + q.len ≤ w) → e.codeword b w = s.dev.codeword b w)
          ∧ e.edges = s.dev.edges ++ [Ev.HSPI_DMA_DONE])
      ∧ (s.dev.f (Fld.MEMCTL_BANK_OWN_OWNER q.bank) ≠ 6 →
          e.mem = s.dev.mem ∧ e.edges = s.dev.edges ++ [Ev.MEMCTL_NONOWNER, Ev.HSPI_DMA_ERR]))
  ∧ (∀ (s : State) (st : Byte) (atLimit : Bool), s.dev.domOn .per = true → s.dev.framBusy = true →
    let good := st.toNat &&& s.dev.f Fld.MSPI_SR_CHK_MASK = s.dev.f Fld.MSPI_SR_CHK_EXP
    (Effects (.mspiTransferDone st atLimit) s fun e =>
      e.rd Reg.MSPI_XFER_CNT = (s.dev.rd Reg.MSPI_XFER_CNT + 1) % 2 ^ 32 ∧ e.f Fld.MSPI_STAT_SR_LAST = st.toNat
      ∧ (atLimit = true → e.f Fld.MSPI_STAT_AT_LIMIT = 1 ∧ Ev.MSPI_AT_LIMIT ∈ e.edges)
      ∧ (good → e.f Fld.MSPI_STAT_RESULT = 0 ∧ e.rd Reg.MSPI_FAIL_CNT = s.dev.rd Reg.MSPI_FAIL_CNT ∧ e.units = s.dev.units)
      ∧ (¬good → e.f Fld.MSPI_STAT_RESULT = 1 ∧ e.rd Reg.MSPI_FAIL_CNT = satInc 32 (s.dev.rd Reg.MSPI_FAIL_CNT)
          ∧ Ev.MSPI_FAIL ∈ e.edges ∧ (s.dev.mule.op.isSome = true → e.mule = { s.dev.mule with framBad := true })))
    ∧ Effects .mspiTimeout s fun e =>
      e.f Fld.MSPI_STAT_RESULT = 2 ∧ e.rd Reg.MSPI_FAIL_CNT = satInc 32 (s.dev.rd Reg.MSPI_FAIL_CNT)
      ∧ Ev.MSPI_TIMEOUT ∈ e.edges
      ∧ (s.dev.mule.op.isSome = true → e.edges = s.dev.edges ++ [Ev.MSPI_TIMEOUT] ∧ e.mule = { s.dev.mule with framBad := true })
      ∧ (s.dev.mule.op = none → s.dev.mule.store = .ready → s.dev.mule.epoch = none →
          e.edges = s.dev.edges ++ [Ev.MSPI_TIMEOUT] ∧ e.mule = s.dev.mule
          ∧ (s.dev.bill.reading = none → e.bill = { s.dev.bill with badWr := true })
          ∧ (s.dev.bill.out = none → e.bill = { s.dev.bill with badRd := true })))
  ∧ (∀ (s : State) (r : Requester) (ctrl : Word), s.dev.writable r .mspi = true → r.legal = true →
    s.dev.locked .mspi 0x40 = false → Effects (.mspiDirectGo r ctrl) s fun e =>
      e.bus = .done ∧ e.edges = s.dev.edges ∧ e.mem = s.dev.mem ∧ e.f Fld.MSPI_DIR_CTRL_OPC = bits ctrl.toNat 0 8
      ∧ (s.dev.on Fld.MULE_CTRL_EN = true → e.f Fld.MSPI_STAT_RESULT = 3 ∧ e.ports = s.dev.ports)
      ∧ (s.dev.on Fld.MULE_CTRL_EN = false → s.dev.ports.dir = none →
          e.ports = { s.dev.ports with dir := some ⟨bit ctrl.toNat 9, min 64 (bits ctrl.toNat 16 7)⟩ }))
  ∧ (∀ (s : State) (x : DirXfer) (rx : List Byte), s.dev.ports.dir = some x → (x.read = true → rx.length = x.len) → x.len ≤ 64 →
    Effects (.dirDone rx) s fun e =>
      e.ports = { s.dev.ports with dir := none } ∧ e.f Fld.MSPI_STAT_RESULT = 0
      ∧ e.rd Reg.MSPI_XFER_CNT = (s.dev.rd Reg.MSPI_XFER_CNT + 1) % 2 ^ 32
      ∧ e.edges = s.dev.edges ++ [Ev.MSPI_DIR_DONE]
      ∧ ∀ i < 64, bits (e.rd (Reg.MSPI_DIR_DATA (i / 4))) (8 * (i % 4)) 8
          = if x.read = true ∧ i < x.len then (rx.getD i 0).toNat
            else bits (s.dev.rd (Reg.MSPI_DIR_DATA (i / 4))) (8 * (i % 4)) 8)
  ∧ (∀ (s : State) (r : Requester) (v : Word), s.dev.calm = true → s.dev.writable r .mspi = true → r.legal = true →
    s.dev.locked .mspi 0x40 = false → Yields (.mspiCfgWrite r v) s fun e =>
      e.f Fld.MSPI_CFG_MODE = bits v.toNat 0 2 ∧ e.f Fld.MSPI_CFG_DIV = bits v.toNat 2 8
      ∧ e.f Fld.MSPI_CFG_SDIV = bits v.toNat 10 4 ∧ e.f Fld.MSPI_CFG_DUMMY = bits v.toNat 16 4
      ∧ s.dev.keeps e [Reg.MSPI_CFG] ∧ e.units = s.dev.units
      ∧ (s.dev.pwr.pllS = true →
          let w := if bits v.toNat 0 2 = 1 then 2 else if bits v.toNat 0 2 = 2 then 4 else 1
          let n := max (8 + 24 / w + bits v.toNat 16 4 + 2048 / w) (18 + 24 / w + 2048 / w) * max 20 (bits v.toNat 2 8)
          e.rd Reg.MSPI_TX_NOW = (10 * n + 767) / 768
          ∧ e.f Fld.MSPI_STAT_TX_OK = (if n ≤ 46 * 768 then 1 else 0)
          ∧ (s.dev.f Fld.MSPI_STAT_TX_OK = 1 → 46 * 768 < n → e.pends Ev.MSPI_TX_SLOW = true)))
  ∧ ∀ s : State, let u := s.dev.ports.uart
    (s.dev.domOn .per = true → s.dev.on Fld.UART_CFG_EN = true → ∀ (b : Byte) (fe pe : Bool),
      let pe' := pe = true ∧ s.dev.f Fld.UART_CFG_PARITY ∈ [1, 2]
      (s.dev.uartDma 0 = false ∨ 16 ≤ u.rx.length → Effects (.uartRxByte b fe pe) s fun e =>
        e.ports = { s.dev.ports with uart := { u with rx := if 16 ≤ u.rx.length then u.rx else u.rx ++ [b] } }
        ∧ (u.rx.length < 16 → Ev.UART_RX_DATA ∈ e.edges)
        ∧ (Ev.UART_RX_ERR ∈ e.edges ↔ Ev.UART_RX_ERR ∈ s.dev.edges ∨ fe = true ∨ pe' ∨ 16 ≤ u.rx.length)
        ∧ (e.f Fld.UART_STAT_FE = 1 ↔ s.dev.f Fld.UART_STAT_FE = 1 ∨ fe = true)
        ∧ (e.f Fld.UART_STAT_PE = 1 ↔ s.dev.f Fld.UART_STAT_PE = 1 ∨ pe')
        ∧ (e.f Fld.UART_STAT_OVR = 1 ↔ s.dev.f Fld.UART_STAT_OVR = 1 ∨ 16 ≤ u.rx.length)
        ∧ e.mem = s.dev.mem)
      ∧ (s.dev.uartDma 0 = true → u.stop = false → u.rx.length = 3 → s.dev.f (Fld.UART_DMA_LEN_LEN 0) ≠ 0 →
        ∀ k w, s.dev.f (Fld.UART_DMA_CFG_BANK 0) = k →
          s.dev.f (Fld.UART_DMA_CFG_WORD0 0) + s.dev.f (Fld.UART_DMA_PTR_PTR 0) = w → w < 8192 → s.dev.domOn (bankDom k) = true →
          s.dev.f (Fld.MEMCTL_BANK_OWN_OWNER k) = 6 → Effects (.uartRxByte b fe pe) s fun e =>
            e.ports = { s.dev.ports with uart := { u with rx := [] } }
            ∧ e.codeword k w = encodeWord k w (leNat (u.rx ++ [b]))
            ∧ (∀ k' w', w' < 8192 → (k', w') ≠ (k, w) → e.codeword k' w' = s.dev.codeword k' w')
            ∧ e.f (Fld.UART_DMA_PTR_PTR 0) = (if s.dev.f (Fld.UART_DMA_PTR_PTR 0) + 1 < s.dev.f (Fld.UART_DMA_LEN_LEN 0)
                then s.dev.f (Fld.UART_DMA_PTR_PTR 0) + 1 else 0)))
    ∧ (∀ b : Byte, u.out = some b → u.stop = false → s.dev.uartDma 1 = false → s.dev.on Fld.UART_CFG_EN = true → Effects .uartTxByteDone s fun e =>
        e.ports = { s.dev.ports with uart := { u with tx := u.tx.drop 1, out := u.tx.head?, last := false } }
        ∧ e.edges = s.dev.edges ++ (if u.tx = [] then [Ev.UART_TX_EMPTY] else []) ++ (if u.last then [Ev.UART_DMA_DONE] else [])
        ∧ e.regs = s.dev.regs)
    ∧ ∀ r : Requester, s.dev.writable r .uart = true →
      (s.dev.locked .uart 0x40 = false → u.out ≠ none → ∀ b : Byte, Effects (.uartDataWrite r b) s fun e =>
        e.ports = { s.dev.ports with uart := { u with tx := if 16 ≤ u.tx.length then u.tx else u.tx ++ [b] } }
        ∧ e.regs = s.dev.regs ∧ e.edges = s.dev.edges ∧ e.bus = .done)
      ∧ (s.dev.locked .uart 0x40 = false → u.out = none → u.tx = [] → u.stop = false → s.dev.on Fld.UART_CFG_EN = true → ∀ b : Byte,
        Effects (.uartDataWrite r b) s fun e => e.ports = { s.dev.ports with uart := { u with out := some b, last := false } }
          ∧ e.regs = s.dev.regs ∧ e.edges = s.dev.edges ∧ e.bus = .done)
      ∧ (∀ b t, u.rx = b :: t → Effects (.uartDataRead r) s fun e =>
        e.bus = .data (b.zeroExtend 32) ∧ e.ports = { s.dev.ports with uart := { u with rx := t } } ∧ e.regs = s.dev.regs
        ∧ e.edges = s.dev.edges)
      ∧ (s.dev.locked .uart 0x40 = false → ∀ (x : Fin 2) (v : Word), u.rx.length < 4 → u.out ≠ none →
        s.dev.uartDma x.val = false → Effects (.uartDmaStart r x v) s fun e =>
          e.uartDma x.val = true ∧ e.f (Fld.UART_DMA_PTR_PTR x.val) = 0 ∧ e.f (Fld.UART_DMA_CFG_BANK x.val) = bits v.toNat 0 4
          ∧ e.f (Fld.UART_DMA_CFG_WORD0 x.val) = bits v.toNat 16 13 ∧ e.ports = s.dev.ports ∧ e.edges = s.dev.edges
          ∧ ∀ a, a ∉ [Reg.UART_DMA_CFG x.val, Reg.UART_DMA_PTR x.val] → e.rd a = s.dev.rd a)

/-- The boot ROM, its services, the AC and the fuses. A warm start of LGL (by LWDG) with a sound image hands over at
its ENTRY with a0 = RST_CAUSE, a1 = BOOT_STAT, STAGE LEGAL; else BOOT_RES reads the code and, with the domains that
hold RWU fields on, STAGE reads NO_IMAGE and every RWU field its reset value, while without them the boot ROM waits
with slot 8 set on each. With the last of them up a cold start's seal load gives every RWU field its value in the
block and clears slot 8, the hand-over still to come. APP_BOOT called by the legal image returns NOT_VOTED without
slot 0 on APP, RETIRED in RETIRED, runs the loader at its first call with BOOT_HOST, waits for the crypto engine, else
judges the image: on a pass the AC runs from its entry and AC_STARTED is raised, on a failure the AC stays in reset,
AFL_RES names the check and AFL_FAIL is raised. SEAL_STORE while UNSEALED leaves a sound block with the RWU bits in
force and SEQ one more where it reads back as written, and else answers 2; in either case LFL outside its sector is as
before. In other states it is refused and changes no memory. AC_HOLD by the legal side resets the AC; AC_RESTART by
the AC raises RESTART_REQ alone. A PROG_CMD that R424 lets through begins its burn with LIFECYCLE raised (RETIRE
empties the keys and clears ENA_CTRL), any other reads REFUSED. OTP_PROG_DONE burns the field or reads PROG_FAIL, and
the field cannot be burnt again. (rests on R237, R409, R411, R413, R414, R415, R417, R418, R419, R424, R425, R426) -/
def Obligations.BootServicesAndFuses : Prop :=
  (∀ (s : State) (g : Nat), s.dev.domOn .lgl = true → s.dev.lwdgTmo ≠ 0 → s.dev.boot.lfl = none →
    s.dev.on Fld.SYSCTL_BOOT_STAT_OTP_ERR = false → s.dev.lifecycle ≠ .retired → s.dev.otp.active = some g →
    let h := s.dev.lflRd 0 64
    let hash := strNat (sha256 (natsOf (s.dev.lflRd 0 (fieldLe h 8 4))))
    let code := if headerOk h = false then 1 else if hash ≠ g then 2
      else if silOk (fieldLe h 0x10 1) (fieldLe h 0x11 1) = false then 3 else 0
    Effects .lwdg s fun e =>
      e.f Fld.FWALL_BOOT_RES_RESULT = code
      ∧ (code = 0 → e.f Fld.SYSCTL_BOOT_STAT_STAGE = 1 ∧ e.lc.on = true ∧ e.lc.pc = BitVec.ofNat 32 (0x08000000 + fieldLe h 0x18 4) ∧ e.lc.priv = .machine
          ∧ e.lc.get 10 = BitVec.ofNat 32 (e.rd Reg.SYSCTL_RST_CAUSE)
          ∧ e.lc.get 11 = BitVec.ofNat 32 (e.rd Reg.SYSCTL_BOOT_STAT) ∧ e.boot.appDue = false)
      ∧ (code ≠ 0 → (∀ x ∈ rwuDoms, s.dev.domOn x = true) → e.f Fld.SYSCTL_BOOT_STAT_STAGE = 2 ∧ e.boot.appDue = true
          ∧ e.boot.rom = false ∧ bit (e.slots .app) 0 = true ∧ bit (e.slots .per) 0 = true
          ∧ (∀ x ∈ rwuDoms, bit (e.slots x) 8 = false)
          ∧ ∀ a ∈ rwuRegs, e.rd a &&& rwuMask a = (regReset a).toNat &&& rwuMask a)
      ∧ (code ≠ 0 → (∃ x ∈ rwuDoms, s.dev.domOn x = false) → e.f Fld.SYSCTL_BOOT_STAT_STAGE = 0 ∧ e.boot.rom = true
          ∧ e.boot.phase = .writing (.failed code) ∧ e.lc.on = false ∧ ∀ x ∈ rwuDoms, bit (e.slots x) 8 = true))
  ∧ (∀ s : State, s.dev.boot.rom = true → s.dev.boot.phase = .writing .image → s.dev.pwr.up = some .ufa →
    s.dev.buckReady = true → (∀ x ∈ rwuDoms, x ≠ .ufa → s.dev.domOn x = true) → s.dev.slots .ufa = 0x100 →
    s.dev.pwr.entry = none → s.dev.pwr.drop = none → s.dev.pwr.waking = none → s.dev.watch.checking = false →
    Effects (.powerUpItemDone (.dom .ufa)) s fun e =>
      (∀ i < rwuRegs.length, e.rd (rwuRegs.getD i 0) &&& rwuMask (rwuRegs.getD i 0)
        = leNat (s.dev.lflRd (0x3F010 + 8 * i + 4) 4) &&& rwuMask (rwuRegs.getD i 0))
      ∧ e.f Fld.SYSCTL_BOOT_STAT_SEAL_OK = 1 ∧ e.rd Reg.SYSCTL_SEAL_CRC = leNat (s.dev.lflRd 0x3F00C 4)
      ∧ (∀ x ∈ rwuDoms, bit (e.slots x) 8 = false) ∧ e.boot.rom = true ∧ e.boot.phase = .leaving ∧ e.lc = s.dev.lc)
  ∧ (∀ s : State, s.dev.serviceOpen = true → s.dev.lc.pc = 0x100 →
    (bit (s.dev.slots .app) 0 = true → s.dev.domOn .app = true) →
    let returns (e : Dev) (code : Nat) : Prop :=
      e.f Fld.SYSCTL_AFL_RES_RESULT = code ∧ e.lc.get 10 = BitVec.ofNat 32 code ∧ e.lc.pc = s.dev.lc.get 1
      ∧ e.boot.loader = none ∧ (code ≠ 0 → e.ac.on = false ∧ e.f Fld.SYSCTL_AC_CTRL_RUN = 0)
    let h := s.dev.aflRd 0 256
    let key := natsOf ((h.drop 0x40).take 64)
    let sig := natsOf ((h.drop 0x80).take 64)
    let num (b : List Nat) (o : Nat) := bytesNat ((b.drop o).take 32)
    let bare := s.dev.otp.custHash = 0 ∧ s.dev.otp.lifecycle ∈ [Lifecycle.blank, .provisioned]
    let code := if appHeaderOk h = false then 1
      else if ¬bare ∧ (s.dev.otp.custHash = 0 ∨ strNat (sha256 key) ≠ s.dev.otp.custHash) then 2
      else if ¬bare ∧ ecdsaVerify (sha256 (natsOf (h.take 0x80 ++ s.dev.aflRd 0xC0 (fieldLe h 8 4 - 0xC0))))
          (num key 0) (num key 32) (num sig 0) (num sig 32) = false then 3
      else if silOk (fieldLe h 0x10 1) (fieldLe h 0x11 1) = false then 4 else 0
    Effects .appBoot s fun e =>
      (bit (s.dev.slots .app) 0 = false → returns e 5 ∧ e.edges = s.dev.edges)
      ∧ (bit (s.dev.slots .app) 0 = true → s.dev.lifecycle = .retired → returns e 6 ∧ e.edges = s.dev.edges)
      ∧ (bit (s.dev.slots .app) 0 = true → s.dev.lifecycle ≠ .retired →
        ((s.dev.boot.firstCall = true ∧ s.dev.on Fld.SYSCTL_STRAP_BOOT_HOST = true) →
          e.boot.loader = some { endless := false, thenBoot := true } ∧ e.ac.on = false ∧ e.boot.firstCall = false
          ∧ bit (e.slots .per) 8 = true ∧ bit (e.slots .app) 8 = true)
        ∧ (¬(s.dev.boot.firstCall = true ∧ s.dev.on Fld.SYSCTL_STRAP_BOOT_HOST = true) → s.dev.crypto.run ≠ none →
          e.lc = s.dev.lc ∧ e.ac.on = false ∧ e.edges = s.dev.edges)
        ∧ (¬(s.dev.boot.firstCall = true ∧ s.dev.on Fld.SYSCTL_STRAP_BOOT_HOST = true) → s.dev.crypto.run = none →
          returns e code
          ∧ (code ≠ 0 → e.edges = s.dev.edges ++ [Ev.SYSCTL_AFL_FAIL])
          ∧ (code = 0 → s.dev.on Fld.SYSCTL_AC_CTRL_HOLD = false → e.ac.on = true ∧ e.f Fld.SYSCTL_AC_CTRL_RUN = 1
            ∧ e.ac.pc = BitVec.ofNat 32 (0x0C000000 + fieldLe h 0x18 4) ∧ e.ac.priv = .machine
            ∧ e.edges = s.dev.edges ++ [Ev.SYSCTL_AC_STARTED]))))
  ∧ (∀ (s : State) (v : Bool), s.dev.serviceOpen = true →
    let ok := s.dev.lifecycle = .unsealed ∧ s.dev.rd Reg.FWALL_IMG_LEN ≤ 0x3F000
    Effects (.sealStore v) s fun e =>
      e.lc.get 10 = (if ok then (if v then 0 else 2) else 1) ∧ e.regs = s.dev.regs ∧ e.edges = s.dev.edges
      ∧ (ok → v = true → e.sealGood = true
          ∧ (∀ i < rwuRegs.length, leNat (e.lflRd (0x3F010 + 8 * i + 4) 4)
              = s.dev.rd (rwuRegs.getD i 0) &&& rwuMask (rwuRegs.getD i 0))
          ∧ fieldLe (e.lflRd 0x3F000 16) 8 4
              = (if s.dev.sealGood then (fieldLe (s.dev.lflRd 0x3F000 16) 8 4 + 1) % 2 ^ 32 else 1))
      ∧ (ok → ∀ a, (a < 0x3F000 ∨ 0x40000 ≤ a) → e.lflRd a 1 = s.dev.lflRd a 1)
      ∧ (¬ok → e.mem = s.dev.mem))
  ∧ (∀ (s : State) (r : Requester), s.dev.writable r .sysctl = true → s.dev.locked .sysctl 0x40 = false →
    (Effects (.acHold r) s fun e => e.edges = s.dev.edges ∧ e.bus = .done
      ∧ (r.legal = true → e.f Fld.SYSCTL_AC_CTRL_HOLD = 1 ∧ e.f Fld.SYSCTL_AC_CTRL_RUN = 0 ∧ e.ac.on = false)
      ∧ (r.legal = false → e.regs = s.dev.regs ∧ e.ac = s.dev.ac))
    ∧ (r = .ac → Effects (.acRestart r) s fun e => e.edges = s.dev.edges ++ [Ev.SYSCTL_RESTART_REQ]
        ∧ e.regs = s.dev.regs ∧ e.units = s.dev.units)
    ∧ (r.legal = true → s.dev.f Fld.SYSCTL_AC_CTRL_HOLD = 0 → Effects (.acRestart r) s fun e =>
        e.edges = s.dev.edges ∧ (∀ a, e.rd a = s.dev.rd a) ∧ e.units = s.dev.units))
  ∧ (∀ (s : State) (r : Requester), s.dev.writable r .fuse = true → s.dev.boot.prog = none →
    let o := s.dev.otp
    let data (n : Nat) := sumN ((List.range n).map fun w => s.dev.rd (Reg.FUSE_PROG_DATA w) * 2 ^ (32 * w))
    let early := s.dev.lifecycle = .blank ∨ s.dev.lifecycle = .provisioned
    let reopened := s.dev.lifecycle = .unsealed ∧ o.lifecycle = .provisioned
    ∀ p : Instr × Prop × ProgOp, p ∈ [(Instr.progDevId r, (early ∧ o.devId = 0 ∧ o.devIdFailed = false), ProgOp.devId (data 2)),
      (.progCustKeyHash r, ((early ∨ reopened) ∧ o.custHash = 0 ∧ o.custHashFailed = false), .custHash (data 8)),
      (.provision r, (s.dev.lifecycle = .blank ∧ o.lifecycle = .blank ∧ o.devId ≠ 0 ∧ .provisioned ∉ o.lifeFailed),
        .lifecycle .provisioned),
      (.sealDevice r, ((s.dev.lifecycle = .provisioned ∨ s.dev.lifecycle = .unsealed) ∧ o.lifecycle = .provisioned
          ∧ o.custHash ≠ 0 ∧ o.digests ≠ [] ∧ s.dev.f Fld.SYSCTL_BOOT_STAT_SEAL_OK = 1 ∧ .sealed ∉ o.lifeFailed),
        .lifecycle .sealed),
      (.retire r, (s.dev.lifecycle ≠ .retired ∧ o.lifecycle ≠ .retired ∧ .retired ∉ o.lifeFailed), .lifecycle .retired)] →
    Effects p.1 s fun e =>
      e.otp = o ∧ (p.2.1 → e.boot.prog = some p.2.2 ∧ e.f Fld.FUSE_PROG_STAT_BUSY = 1 ∧ Ev.SYSCTL_LIFECYCLE ∈ e.edges
        ∧ (p.2.2 = .lifecycle .retired → e.kwk = 0 ∧ e.crypto.keys = Vector.replicate 8 0 ∧ e.crypto.run = none
            ∧ (s.dev.domOn .lgl = true → e.rd Reg.FWALL_ENA_CTRL = 0))
        ∧ (p.2.2 ≠ .lifecycle .retired → e.crypto = s.dev.crypto ∧ e.kwk = s.dev.kwk))
      ∧ (¬p.2.1 → e.f Fld.FUSE_PROG_STAT_RESULT = 1 ∧ e.edges = s.dev.edges ∧ e.units = s.dev.units
        ∧ ∀ a, a ≠ Reg.FUSE_PROG_STAT → e.rd a = s.dev.rd a))
  ∧ ∀ (s : State) (p : ProgOp) (ok : Bool), s.dev.boot.prog = some p → Effects (.otpProgDone ok) s fun e =>
      e.boot = { s.dev.boot with prog := none } ∧ e.f Fld.FUSE_PROG_STAT_BUSY = 0
      ∧ e.f Fld.FUSE_PROG_STAT_RESULT = (if ok then 0 else 2) ∧ e.edges = s.dev.edges ∧ e.lifecycle = s.dev.lifecycle
      ∧ (∀ l, p = .lifecycle l → ok = true →
          e.otp = { s.dev.otp with lifecycle := l } ∧ e.f Fld.FUSE_PROG_STAT_PENDING = 1)
      ∧ (∀ v, p = .devId v → ok = true → e.otp = { s.dev.otp with devId := v }
          ∧ e.rd Reg.FUSE_DEV_ID_LO = v % 2 ^ 32 ∧ e.rd Reg.FUSE_DEV_ID_HI = v / 2 ^ 32 % 2 ^ 32)
      ∧ (∀ v, p = .custHash v → ok = true → e.otp = { s.dev.otp with custHash := v }
          ∧ ∀ w < 8, e.rd (Reg.FUSE_CUST_KEY_HASH w) = v / 2 ^ (32 * w) % 2 ^ 32)
      ∧ (ok = false → e.otp = { s.dev.otp with
          devIdFailed := s.dev.otp.devIdFailed || (match p with | .devId _ => true | _ => false)
          custHashFailed := s.dev.otp.custHashFailed || (match p with | .custHash _ => true | _ => false)
          lifeFailed := s.dev.otp.lifeFailed ++ (match p with | .lifecycle l => [l] | _ => []) })

/-- The loader and the application flash. LOADER called by the legal image starts it, the AC in reset and slot 8 on
PER and APP set. A command with a new SEQ writes the status word (SEQ, READY, RESULT) into DPM word 1 and raises
LDR_CMD, with LDR_AT_LIMIT where it came in the last tick: PROG erases its sector and takes the block of DPM words
0x400 to 0x7FF, in LFL while UNSEALED only, in AFL but in RETIRED; CHECK (while UNSEALED) shows the hash of the legal
image and puts CHK into DPM word 2; BURN (while UNSEALED, with a slot free) adds the digest; an unlisted OP reads
BADOP; what is not allowed reads REFUSED. DONE and the time limit end the loader: the caller gets 0, or LGL restarts
where LFL was programmed. A command with a SEQ already served does nothing. AFL PROG takes 64 DPM words from AFL_SRC
and ERASE_SECTOR its sector; both are REFUSED in RETIRED, neither is performed while one runs; AFL_DONE leaves the
bytes in AFL, every other byte as before, and raises AFL_DONE. (rests on R420, R421, R422) -/
def Obligations.LoaderAndApplicationFlash : Prop :=
  (∀ s : State, s.dev.serviceOpen = true → Effects (.loader none) s fun e =>
    e.boot.loader = some { endless := false } ∧ e.ac.on = false ∧ e.f Fld.SYSCTL_AC_CTRL_RUN = 0
    ∧ bit (e.slots .per) 8 = true ∧ bit (e.slots .app) 8 = true ∧ e.lc = s.dev.lc ∧ e.mem = s.dev.mem
    ∧ (s.dev.pwr.entry = none → s.dev.pwr.drop = none → e.edges = s.dev.edges))
  ∧ (∀ (s : State) (l : Loader) (seq : Byte), s.dev.boot.loader = some l → s.dev.domOn .per = true →
    let status (e : Dev) (n : Nat) : Prop :=
      e.codeword 20 1 = encodeWord 20 1 (seq.toNat * 2 ^ 24 + 256 + n)
    let dpm (e : Dev) (ws : List Nat) : Prop :=
      ∀ b w, w < 8192 → (b ≠ 20 ∨ w ∉ ws) → e.codeword b w = s.dev.codeword b w
    (l.seq = some seq.toNat → ∀ c ∈ [Instr.loader (some seq), .loaderProg 0 true seq true true none, .loaderCheck seq true,
        .loaderBurn seq true true, .loaderDone seq true], Effects c s fun e => e = s.dev.answer .none)
    ∧ (l.seq ≠ some seq.toNat →
      (Effects (.loader (some seq)) s fun e =>
        status e 3 ∧ dpm e [1] ∧ e.boot = { s.dev.boot with loader := some { l with seq := some seq.toNat } }
        ∧ e.edges = s.dev.edges ++ [Ev.SYSCTL_LDR_CMD] ∧ e.regs = s.dev.regs)
      ∧ ∀ atLimit : Bool,
        let limit (e : Dev) : Prop := (atLimit = true → e.f Fld.SYSCTL_BOOT_STAT_LDR_AT_LIMIT = 1)
          ∧ e.edges = s.dev.edges ++ [Ev.SYSCTL_LDR_CMD]
        (∀ (n : BitVec 9) (lfl : Bool) (x : Nat → Word), s.dev.domOn .app = true →
          (∀ i < 1024, s.dev.codeword 20 (0x400 + i) = encodeWord 20 (0x400 + i) (x i).toNat) →
          let may := if lfl then s.dev.lifecycle = .unsealed ∧ n.toNat < 64 else s.dev.lifecycle ≠ .retired
          Effects (.loaderProg n lfl seq true atLimit none) s fun e =>
            limit e ∧ dpm e [1] ∧ status e (if may then 0 else 1)
            ∧ e.boot.loader = some { l with seq := some seq.toNat, lflProg := l.lflProg || (lfl && decide may) }
            ∧ (may → lfl = true → e.mem.afl = s.dev.mem.afl
                ∧ e.lflRd (n.toNat * 4096) 4096 = bytesOf ((List.range 1024).map x)
                ∧ ∀ a, a / 4096 ≠ n.toNat → e.lflRd a 1 = s.dev.lflRd a 1)
            ∧ (may → lfl = false → e.mem.lfl = s.dev.mem.lfl
                ∧ e.aflRd (n.toNat * 4096) 4096 = bytesOf ((List.range 1024).map x)
                ∧ ∀ a, a / 4096 ≠ n.toNat → e.aflRd a 1 = s.dev.aflRd a 1)
            ∧ (¬may → e.mem.lfl = s.dev.mem.lfl ∧ e.mem.afl = s.dev.mem.afl))
        ∧ (Effects (.loaderCheck seq atLimit) s fun e =>
          let len := min 262144 (fieldLe (s.dev.lflRd 0 64) 8 4)
          limit e ∧ (s.dev.lifecycle = .unsealed → status e 0 ∧ dpm e [1, 2]
              ∧ e.codeword 20 2 = encodeWord 20 2 (crc32 (s.dev.lflRd 0 len))
              ∧ e.boot.lflSha = strNat (sha256 (natsOf (s.dev.lflRd 0 len)))
              ∧ ∀ w < 8, e.rd (Reg.FWALL_LFL_SHA w) = e.boot.lflSha / 2 ^ (32 * w) % 2 ^ 32)
            ∧ (s.dev.lifecycle ≠ .unsealed → status e 1 ∧ dpm e [1] ∧ e.boot.lflSha = s.dev.boot.lflSha))
        ∧ (∀ ok : Bool, Effects (.loaderBurn seq ok atLimit) s fun e =>
          limit e ∧ dpm e [1]
          ∧ ((s.dev.lifecycle ≠ .unsealed ∨ s.dev.otp.freeSlot = none) → status e 1 ∧ e.otp = s.dev.otp)
          ∧ ∀ n, s.dev.lifecycle = .unsealed → s.dev.otp.freeSlot = some n →
            (ok = false → status e 2 ∧ e.otp = s.dev.otp)
            ∧ (ok = true → status e 0
              ∧ e.otp = { s.dev.otp with digests := s.dev.otp.digests ++ [(s.dev.boot.lflSha, n)] }))
        ∧ (l.lflProg = false → l.thenBoot = false → l.endless = false → s.dev.f Fld.SYSCTL_BOOT_STAT_STAGE = 1 →
          s.dev.lc.pc = 0x108 → Effects (.loaderDone seq atLimit) s fun e =>
            limit e ∧ status e 0 ∧ dpm e [1] ∧ e.boot.loader = none ∧ e.lc.get 10 = 0 ∧ e.lc.pc = s.dev.lc.get 1
            ∧ bit (e.slots .per) 8 = false ∧ bit (e.slots .app) 8 = false)))
  ∧ (∀ (s : State) (l : Loader), s.dev.boot.loader = some l → l.endless = false →
    (l.lflProg = false → l.thenBoot = false → s.dev.f Fld.SYSCTL_BOOT_STAT_STAGE = 1 → s.dev.lc.pc = 0x108 →
      Effects .loaderTimeout s fun e =>
        e.boot = { s.dev.boot with loader := none } ∧ e.lc.get 10 = 0 ∧ e.lc.pc = s.dev.lc.get 1
        ∧ bit (e.slots .per) 8 = false ∧ bit (e.slots .app) 8 = false ∧ e.mem = s.dev.mem ∧ e.edges = s.dev.edges)
    ∧ (l.lflProg = true → s.dev.domOn .lgl = true → Effects .loaderTimeout s fun e =>
        e.boot.loader = none ∧ bit (e.rd Reg.SYSCTL_RST_CAUSE) 7 = true ∧ e.f Fld.SYSCTL_BOOT_STAT_COLD = 0
        ∧ (e.boot.rom = true → ∃ f, e.boot.phase = .writing f)))
  ∧ (∀ (s : State) (r : Requester) (page : BitVec 13), s.dev.writable r .sysctl = true →
    (r.legal = true ∨ r = .ac) → s.dev.boot.afl = none → s.dev.domOn .app = true →
    (s.dev.lifecycle ≠ .retired →
      (∀ x : Nat → Word, s.dev.domOn .per = true → (∀ i < 64, s.dev.f Fld.SYSCTL_AFL_SRC_WORD + i < 2048
          ∧ s.dev.codeword 20 (s.dev.f Fld.SYSCTL_AFL_SRC_WORD + i)
            = encodeWord 20 (s.dev.f Fld.SYSCTL_AFL_SRC_WORD + i) (x i).toNat) →
        Effects (.aflProg r page none) s fun e =>
          e.boot.afl = some (.prog page.toNat (bytesOf ((List.range 64).map x))) ∧ e.f Fld.SYSCTL_AFL_STAT_BUSY = 1
          ∧ e.mem = s.dev.mem ∧ e.edges = s.dev.edges)
      ∧ Effects (.aflEraseSector r page) s fun e =>
          e.boot.afl = some (.eraseSector page.toNat) ∧ e.f Fld.SYSCTL_AFL_STAT_BUSY = 1
          ∧ e.mem = s.dev.mem ∧ e.edges = s.dev.edges)
    ∧ (s.dev.lifecycle = .retired → ∀ c ∈ [Instr.aflProg r page none, .aflEraseSector r page], Effects c s fun e =>
        e.f Fld.SYSCTL_AFL_STAT_RESULT = 1 ∧ e.units = s.dev.units ∧ e.edges = s.dev.edges
        ∧ ∀ a, a ≠ Reg.SYSCTL_AFL_STAT → e.rd a = s.dev.rd a))
  ∧ (∀ (s : State) (r : Requester) (page : BitVec 13), s.dev.writable r .sysctl = true → s.dev.boot.afl ≠ none →
    ∀ c ∈ [Instr.aflProg r page none, .aflEraseSector r page], Effects c s fun e =>
      e.regs = s.dev.regs ∧ e.units = s.dev.units ∧ e.edges = s.dev.edges)
  ∧ ∀ (s : State) (ok : Bool) (p : Nat) (bs : List Byte), bs.length = 256 →
    (s.dev.boot.afl = some (.prog p bs) → Effects (.aflDone ok) s fun e =>
      e.boot.afl = none ∧ e.f Fld.SYSCTL_AFL_STAT_BUSY = 0 ∧ e.f Fld.SYSCTL_AFL_STAT_RESULT = (if ok then 0 else 2)
      ∧ (ok = true → e.aflRd (p * 256) 256 = bs) ∧ e.edges = s.dev.edges ++ [Ev.SYSCTL_AFL_DONE]
      ∧ ∀ a, (a < p * 256 ∨ p * 256 + 256 ≤ a) → e.aflRd a 1 = s.dev.aflRd a 1)
    ∧ (s.dev.boot.afl = some (.eraseSector p) → Effects (.aflDone ok) s fun e =>
      e.boot.afl = none ∧ e.f Fld.SYSCTL_AFL_STAT_BUSY = 0 ∧ e.f Fld.SYSCTL_AFL_STAT_RESULT = 0
      ∧ e.edges = s.dev.edges ++ [Ev.SYSCTL_AFL_DONE]
      ∧ ∀ a, e.aflRd a 1 = if a / 4096 = p / 16 then [0xFF] else s.dev.aflRd a 1)
end

