-- ==== Sys2Proof/Laws/SMap.lean ====
section
/-! SUPPORT. Sparse maps: a read after a write, and every operation keeps the canonical form. -/

namespace Sys2Proof

variable {α : Type}

theorem SMap.get_erase_ne (d : Nat → α) {k j : Nat} (h : j ≠ k) : ∀ m : SMap α, (m.erase k).get d j = m.get d j
  | [] => rfl
  | (a, v) :: t => by
    have ih := SMap.get_erase_ne d h t
    by_cases hk : a = k
    · subst hk
      simp_all [SMap.erase, SMap.get, Ne.symm h]
    · simp only [SMap.erase, bne_iff_ne, ne_eq, hk, not_false_iff, List.filter_cons_of_pos] at ih ⊢
      simp only [SMap.get]
      split <;> simp_all

theorem SMap.get_erase_self (d : Nat → α) (k : Nat) : ∀ m : SMap α, (m.erase k).get d k = d k
  | [] => rfl
  | (a, v) :: t => by
    have ih := SMap.get_erase_self d k t
    by_cases hk : a = k
    · subst hk; simpa [SMap.erase] using ih
    · simp only [SMap.erase, bne_iff_ne, ne_eq, hk, not_false_iff, List.filter_cons_of_pos, SMap.get, if_false] at ih ⊢
      exact ih

theorem SMap.get_insert_ne (d : Nat → α) {k j : Nat} (v : α) (h : j ≠ k) : ∀ m : SMap α, (m.insert k v).get d j = m.get d j
  | [] => by simp [SMap.insert, SMap.get, Ne.symm h]
  | (a, w) :: t => by
    have ih := SMap.get_insert_ne d v h t
    unfold SMap.insert
    split <;> simp [SMap.get, Ne.symm h, ih]

theorem SMap.get_insert_self (d : Nat → α) (k : Nat) (v : α) : ∀ m : SMap α, (∀ p ∈ m, p.1 ≠ k) → (m.insert k v).get d k = v
  | [], _ => by simp [SMap.insert, SMap.get]
  | (a, w) :: t, hm => by
    have ih := SMap.get_insert_self d k v t fun p hp => hm p (List.mem_cons_of_mem _ hp)
    have ha : a ≠ k := hm (a, w) (by simp)
    unfold SMap.insert
    split <;> simp [SMap.get, ha, ih]

variable [DecidableEq α]

/-- A read after a write. -/
theorem SMap.get_set (d : Nat → α) (m : SMap α) (k j : Nat) (v : α) :
    (m.set d k v).get d j = if j = k then v else m.get d j := by
  unfold SMap.set
  by_cases h : j = k
  · subst h
    by_cases hv : v = d j
    · simp [hv, SMap.get_erase_self]
    · rw [if_neg hv, if_pos rfl]
      exact SMap.get_insert_self d j v _ fun p hp => by
        simp only [SMap.erase, List.mem_filter] at hp; simpa using hp.2
  · rw [if_neg h]
    split
    · exact SMap.get_erase_ne d h m
    · rw [SMap.get_insert_ne d v h, SMap.get_erase_ne d h]

theorem SMap.wfFrom_mono (d : Nat → α) {lo hi : Nat} (h : lo ≤ hi) : ∀ m : SMap α, SMap.wfFrom d hi m → SMap.wfFrom d lo m
  | [], _ => rfl
  | (a, v) :: t, hw => by
    simp only [SMap.wfFrom, Bool.and_eq_true, decide_eq_true_eq] at hw ⊢
    exact ⟨⟨by omega, hw.1.2⟩, hw.2⟩

theorem SMap.wfFrom_filter (d : Nat → α) (q : Nat × α → Bool) (lo : Nat) : ∀ m : SMap α, SMap.wfFrom d lo m → SMap.wfFrom d lo (m.filter q)
  | [], _ => rfl
  | (a, v) :: t, hw => by
    simp only [SMap.wfFrom, Bool.and_eq_true, decide_eq_true_eq] at hw
    have ih := SMap.wfFrom_filter d q (a + 1) t hw.2
    by_cases hq : q (a, v)
    · rw [List.filter_cons_of_pos hq]
      simp only [SMap.wfFrom, Bool.and_eq_true, decide_eq_true_eq]
      exact ⟨hw.1, ih⟩
    · rw [List.filter_cons_of_neg hq]
      exact SMap.wfFrom_mono d (by omega) _ ih

theorem SMap.wfFrom_insert (d : Nat → α) {k : Nat} {v : α} (hv : v ≠ d k) (lo : Nat) (hlo : lo ≤ k) :
    ∀ m : SMap α, SMap.wfFrom d lo m → (∀ p ∈ m, p.1 ≠ k) → SMap.wfFrom d lo (m.insert k v)
  | [], _, _ => by simp [SMap.insert, SMap.wfFrom, hlo, hv]
  | (a, w) :: t, hw, hm => by
    simp only [SMap.wfFrom, Bool.and_eq_true, decide_eq_true_eq] at hw
    have ha : a ≠ k := hm (a, w) (by simp)
    unfold SMap.insert
    split
    · rename_i hka
      simp only [SMap.wfFrom, Bool.and_eq_true, decide_eq_true_eq, bne_iff_ne]
      exact ⟨⟨hlo, hv⟩, ⟨by omega, by simpa using hw.1.2⟩, hw.2⟩
    · have ih := SMap.wfFrom_insert d hv (a + 1) (by omega) t hw.2 fun p hp => hm p (List.mem_cons_of_mem _ hp)
      simp only [SMap.wfFrom, Bool.and_eq_true, decide_eq_true_eq]
      exact ⟨hw.1, ih⟩

theorem SMap.wf_filter (d : Nat → α) (q : Nat × α → Bool) {m : SMap α} (h : SMap.wf d m) : SMap.wf d (m.filter q) :=
  SMap.wfFrom_filter d q 0 m h

theorem SMap.wf_erase (d : Nat → α) (k : Nat) {m : SMap α} (h : SMap.wf d m) : SMap.wf d (m.erase k) :=
  SMap.wf_filter d _ h

/-- A write keeps the canonical form. -/
theorem SMap.wf_set (d : Nat → α) (k : Nat) (v : α) {m : SMap α} (h : SMap.wf d m) : SMap.wf d (m.set d k v) := by
  unfold SMap.set
  split
  · exact SMap.wf_erase d k h
  · rename_i hv
    refine SMap.wfFrom_insert d hv 0 (Nat.zero_le _) _ (SMap.wf_erase d k h) fun p hp => ?_
    simp only [SMap.erase, List.mem_filter] at hp
    simpa using hp.2

theorem SMap.wf_clear (d : Nat → α) (lo hi : Nat) {m : SMap α} (h : SMap.wf d m) : SMap.wf d (m.clear lo hi) :=
  SMap.wf_filter d _ h

theorem SMap.wf_setMany (d : Nat → α) (vs : List α) : ∀ (k : Nat) {m : SMap α}, SMap.wf d m → SMap.wf d (SMap.setMany d m k vs) := by
  induction vs with
  | nil => intro k m h; exact h
  | cons v vs ih => intro k m h; exact ih (k + 1) (SMap.wf_set d k v h)

theorem SMap.wfFrom_update (d : Nat → α) (f : Nat → α → α) (lo : Nat) :
    ∀ m : SMap α, SMap.wfFrom d lo m → SMap.wfFrom d lo (SMap.update d f m)
  | [], _ => rfl
  | (a, v) :: t, hw => by
    simp only [SMap.wfFrom, Bool.and_eq_true, decide_eq_true_eq] at hw
    have ih := SMap.wfFrom_update d f (a + 1) t hw.2
    unfold SMap.update at ih ⊢
    by_cases hf : f a v = d a
    · simp only [List.filterMap_cons, hf, if_true]
      exact SMap.wfFrom_mono d (by omega) _ ih
    · simp only [List.filterMap_cons, hf, if_false, SMap.wfFrom, Bool.and_eq_true, decide_eq_true_eq, bne_iff_ne]
      exact ⟨⟨hw.1.1, hf⟩, ih⟩

theorem SMap.wf_update (d : Nat → α) (f : Nat → α → α) {m : SMap α} (h : SMap.wf d m) : SMap.wf d (SMap.update d f m) :=
  SMap.wfFrom_update d f 0 m h

omit [DecidableEq α] in
/-- Keys outside a cleared range read as before. -/
theorem SMap.get_clear_out (d : Nat → α) {lo hi j : Nat} (h : j < lo ∨ hi ≤ j) :
    ∀ m : SMap α, (m.clear lo hi).get d j = m.get d j
  | [] => rfl
  | (a, v) :: t => by
    have ih := SMap.get_clear_out d h t
    unfold SMap.clear at ih ⊢
    rw [List.filter_cons]
    split
    · simp only [SMap.get, ih]
    · rename_i hq
      simp only [Bool.or_eq_true, decide_eq_true_eq, not_or, not_lt, not_le] at hq
      rw [ih, SMap.get, if_neg (by omega)]

omit [DecidableEq α] in
/-- A cleared range reads as unlisted. -/
theorem SMap.get_clear_in (d : Nat → α) {lo hi j : Nat} (h : lo ≤ j ∧ j < hi) : ∀ m : SMap α, (m.clear lo hi).get d j = d j
  | [] => rfl
  | (a, v) :: t => by
    have ih := SMap.get_clear_in d h t
    unfold SMap.clear at ih ⊢
    rw [List.filter_cons]
    split
    · rename_i hq
      simp only [Bool.or_eq_true, decide_eq_true_eq] at hq
      rw [SMap.get, if_neg (by omega), ih]
    · exact ih

end Sys2Proof
end

