-- ==== Sys2Proof/Laws/State.lean ====
section
/-! SUPPORT. The fields of the device under the updates that every meaning uses: what an update leaves. -/

namespace Sys2Proof.Machine

variable (d : Dev)

/-! ### wr -/

@[simp] theorem Dev.wr_bus (a v : Nat) : (d.wr a v).bus = d.bus := rfl
@[simp] theorem Dev.wr_caps (a v : Nat) : (d.wr a v).caps = d.caps := rfl
@[simp] theorem Dev.wr_free (a v : Nat) : (d.wr a v).free = d.free := rfl
@[simp] theorem Dev.wr_edges (a v : Nat) : (d.wr a v).edges = d.edges := rfl
@[simp] theorem Dev.wr_mae (a v : Nat) : (d.wr a v).mae = d.mae := rfl
@[simp] theorem Dev.wr_mem (a v : Nat) : (d.wr a v).mem = d.mem := rfl
@[simp] theorem Dev.wr_pwr (a v : Nat) : (d.wr a v).pwr = d.pwr := rfl
@[simp] theorem Dev.wr_watch (a v : Nat) : (d.wr a v).watch = d.watch := rfl
@[simp] theorem Dev.wr_boot (a v : Nat) : (d.wr a v).boot = d.boot := rfl
@[simp] theorem Dev.wr_otp (a v : Nat) : (d.wr a v).otp = d.otp := rfl
@[simp] theorem Dev.wr_herd (a v : Nat) : (d.wr a v).herd = d.herd := rfl
@[simp] theorem Dev.wr_ufe (a v : Nat) : (d.wr a v).ufe = d.ufe := rfl
@[simp] theorem Dev.wr_flow (a v : Nat) : (d.wr a v).flow = d.flow := rfl
@[simp] theorem Dev.wr_therm (a v : Nat) : (d.wr a v).therm = d.therm := rfl
@[simp] theorem Dev.wr_rtd (a v : Nat) : (d.wr a v).rtd = d.rtd := rfl
@[simp] theorem Dev.wr_fe (a v : Nat) : (d.wr a v).fe = d.fe := rfl
@[simp] theorem Dev.wr_qty (a v : Nat) : (d.wr a v).qty = d.qty := rfl
@[simp] theorem Dev.wr_rem (a v : Nat) : (d.wr a v).rem = d.rem := rfl
@[simp] theorem Dev.wr_pulses (a v : Nat) : (d.wr a v).pulses = d.pulses := rfl
@[simp] theorem Dev.wr_mule (a v : Nat) : (d.wr a v).mule = d.mule := rfl
@[simp] theorem Dev.wr_lamp (a v : Nat) : (d.wr a v).lamp = d.lamp := rfl
@[simp] theorem Dev.wr_crypto (a v : Nat) : (d.wr a v).crypto = d.crypto := rfl
@[simp] theorem Dev.wr_kwk (a v : Nat) : (d.wr a v).kwk = d.kwk := rfl
@[simp] theorem Dev.wr_mbx (a v : Nat) : (d.wr a v).mbx = d.mbx := rfl
@[simp] theorem Dev.wr_rtc (a v : Nat) : (d.wr a v).rtc = d.rtc := rfl
@[simp] theorem Dev.wr_tariff (a v : Nat) : (d.wr a v).tariff = d.tariff := rfl
@[simp] theorem Dev.wr_bill (a v : Nat) : (d.wr a v).bill = d.bill := rfl
@[simp] theorem Dev.wr_prepay (a v : Nat) : (d.wr a v).prepay = d.prepay := rfl
@[simp] theorem Dev.wr_lockout (a v : Nat) : (d.wr a v).lockout = d.lockout := rfl
@[simp] theorem Dev.wr_panel (a v : Nat) : (d.wr a v).panel = d.panel := rfl
@[simp] theorem Dev.wr_gander (a v : Nat) : (d.wr a v).gander = d.gander := rfl
@[simp] theorem Dev.wr_lc (a v : Nat) : (d.wr a v).lc = d.lc := rfl
@[simp] theorem Dev.wr_ac (a v : Nat) : (d.wr a v).ac = d.ac := rfl
@[simp] theorem Dev.wr_ports (a v : Nat) : (d.wr a v).ports = d.ports := rfl

/-! ### setF -/

@[simp] theorem Dev.setF_bus (f : Field) (v : Nat) : (d.setF f v).bus = d.bus := rfl
@[simp] theorem Dev.setF_caps (f : Field) (v : Nat) : (d.setF f v).caps = d.caps := rfl
@[simp] theorem Dev.setF_free (f : Field) (v : Nat) : (d.setF f v).free = d.free := rfl
@[simp] theorem Dev.setF_edges (f : Field) (v : Nat) : (d.setF f v).edges = d.edges := rfl
@[simp] theorem Dev.setF_mae (f : Field) (v : Nat) : (d.setF f v).mae = d.mae := rfl
@[simp] theorem Dev.setF_mem (f : Field) (v : Nat) : (d.setF f v).mem = d.mem := rfl
@[simp] theorem Dev.setF_pwr (f : Field) (v : Nat) : (d.setF f v).pwr = d.pwr := rfl
@[simp] theorem Dev.setF_watch (f : Field) (v : Nat) : (d.setF f v).watch = d.watch := rfl
@[simp] theorem Dev.setF_boot (f : Field) (v : Nat) : (d.setF f v).boot = d.boot := rfl
@[simp] theorem Dev.setF_otp (f : Field) (v : Nat) : (d.setF f v).otp = d.otp := rfl
@[simp] theorem Dev.setF_herd (f : Field) (v : Nat) : (d.setF f v).herd = d.herd := rfl
@[simp] theorem Dev.setF_ufe (f : Field) (v : Nat) : (d.setF f v).ufe = d.ufe := rfl
@[simp] theorem Dev.setF_flow (f : Field) (v : Nat) : (d.setF f v).flow = d.flow := rfl
@[simp] theorem Dev.setF_therm (f : Field) (v : Nat) : (d.setF f v).therm = d.therm := rfl
@[simp] theorem Dev.setF_rtd (f : Field) (v : Nat) : (d.setF f v).rtd = d.rtd := rfl
@[simp] theorem Dev.setF_fe (f : Field) (v : Nat) : (d.setF f v).fe = d.fe := rfl
@[simp] theorem Dev.setF_qty (f : Field) (v : Nat) : (d.setF f v).qty = d.qty := rfl
@[simp] theorem Dev.setF_rem (f : Field) (v : Nat) : (d.setF f v).rem = d.rem := rfl
@[simp] theorem Dev.setF_pulses (f : Field) (v : Nat) : (d.setF f v).pulses = d.pulses := rfl
@[simp] theorem Dev.setF_mule (f : Field) (v : Nat) : (d.setF f v).mule = d.mule := rfl
@[simp] theorem Dev.setF_lamp (f : Field) (v : Nat) : (d.setF f v).lamp = d.lamp := rfl
@[simp] theorem Dev.setF_crypto (f : Field) (v : Nat) : (d.setF f v).crypto = d.crypto := rfl
@[simp] theorem Dev.setF_kwk (f : Field) (v : Nat) : (d.setF f v).kwk = d.kwk := rfl
@[simp] theorem Dev.setF_mbx (f : Field) (v : Nat) : (d.setF f v).mbx = d.mbx := rfl
@[simp] theorem Dev.setF_rtc (f : Field) (v : Nat) : (d.setF f v).rtc = d.rtc := rfl
@[simp] theorem Dev.setF_tariff (f : Field) (v : Nat) : (d.setF f v).tariff = d.tariff := rfl
@[simp] theorem Dev.setF_bill (f : Field) (v : Nat) : (d.setF f v).bill = d.bill := rfl
@[simp] theorem Dev.setF_prepay (f : Field) (v : Nat) : (d.setF f v).prepay = d.prepay := rfl
@[simp] theorem Dev.setF_lockout (f : Field) (v : Nat) : (d.setF f v).lockout = d.lockout := rfl
@[simp] theorem Dev.setF_panel (f : Field) (v : Nat) : (d.setF f v).panel = d.panel := rfl
@[simp] theorem Dev.setF_gander (f : Field) (v : Nat) : (d.setF f v).gander = d.gander := rfl
@[simp] theorem Dev.setF_lc (f : Field) (v : Nat) : (d.setF f v).lc = d.lc := rfl
@[simp] theorem Dev.setF_ac (f : Field) (v : Nat) : (d.setF f v).ac = d.ac := rfl
@[simp] theorem Dev.setF_ports (f : Field) (v : Nat) : (d.setF f v).ports = d.ports := rfl

/-! ### setB -/

@[simp] theorem Dev.setB_bus (f : Field) (b : Bool) : (d.setB f b).bus = d.bus := rfl
@[simp] theorem Dev.setB_caps (f : Field) (b : Bool) : (d.setB f b).caps = d.caps := rfl
@[simp] theorem Dev.setB_free (f : Field) (b : Bool) : (d.setB f b).free = d.free := rfl
@[simp] theorem Dev.setB_edges (f : Field) (b : Bool) : (d.setB f b).edges = d.edges := rfl
@[simp] theorem Dev.setB_mae (f : Field) (b : Bool) : (d.setB f b).mae = d.mae := rfl
@[simp] theorem Dev.setB_mem (f : Field) (b : Bool) : (d.setB f b).mem = d.mem := rfl
@[simp] theorem Dev.setB_pwr (f : Field) (b : Bool) : (d.setB f b).pwr = d.pwr := rfl
@[simp] theorem Dev.setB_watch (f : Field) (b : Bool) : (d.setB f b).watch = d.watch := rfl
@[simp] theorem Dev.setB_boot (f : Field) (b : Bool) : (d.setB f b).boot = d.boot := rfl
@[simp] theorem Dev.setB_otp (f : Field) (b : Bool) : (d.setB f b).otp = d.otp := rfl
@[simp] theorem Dev.setB_herd (f : Field) (b : Bool) : (d.setB f b).herd = d.herd := rfl
@[simp] theorem Dev.setB_ufe (f : Field) (b : Bool) : (d.setB f b).ufe = d.ufe := rfl
@[simp] theorem Dev.setB_flow (f : Field) (b : Bool) : (d.setB f b).flow = d.flow := rfl
@[simp] theorem Dev.setB_therm (f : Field) (b : Bool) : (d.setB f b).therm = d.therm := rfl
@[simp] theorem Dev.setB_rtd (f : Field) (b : Bool) : (d.setB f b).rtd = d.rtd := rfl
@[simp] theorem Dev.setB_fe (f : Field) (b : Bool) : (d.setB f b).fe = d.fe := rfl
@[simp] theorem Dev.setB_qty (f : Field) (b : Bool) : (d.setB f b).qty = d.qty := rfl
@[simp] theorem Dev.setB_rem (f : Field) (b : Bool) : (d.setB f b).rem = d.rem := rfl
@[simp] theorem Dev.setB_pulses (f : Field) (b : Bool) : (d.setB f b).pulses = d.pulses := rfl
@[simp] theorem Dev.setB_mule (f : Field) (b : Bool) : (d.setB f b).mule = d.mule := rfl
@[simp] theorem Dev.setB_lamp (f : Field) (b : Bool) : (d.setB f b).lamp = d.lamp := rfl
@[simp] theorem Dev.setB_crypto (f : Field) (b : Bool) : (d.setB f b).crypto = d.crypto := rfl
@[simp] theorem Dev.setB_kwk (f : Field) (b : Bool) : (d.setB f b).kwk = d.kwk := rfl
@[simp] theorem Dev.setB_mbx (f : Field) (b : Bool) : (d.setB f b).mbx = d.mbx := rfl
@[simp] theorem Dev.setB_rtc (f : Field) (b : Bool) : (d.setB f b).rtc = d.rtc := rfl
@[simp] theorem Dev.setB_tariff (f : Field) (b : Bool) : (d.setB f b).tariff = d.tariff := rfl
@[simp] theorem Dev.setB_bill (f : Field) (b : Bool) : (d.setB f b).bill = d.bill := rfl
@[simp] theorem Dev.setB_prepay (f : Field) (b : Bool) : (d.setB f b).prepay = d.prepay := rfl
@[simp] theorem Dev.setB_lockout (f : Field) (b : Bool) : (d.setB f b).lockout = d.lockout := rfl
@[simp] theorem Dev.setB_panel (f : Field) (b : Bool) : (d.setB f b).panel = d.panel := rfl
@[simp] theorem Dev.setB_gander (f : Field) (b : Bool) : (d.setB f b).gander = d.gander := rfl
@[simp] theorem Dev.setB_lc (f : Field) (b : Bool) : (d.setB f b).lc = d.lc := rfl
@[simp] theorem Dev.setB_ac (f : Field) (b : Bool) : (d.setB f b).ac = d.ac := rfl
@[simp] theorem Dev.setB_ports (f : Field) (b : Bool) : (d.setB f b).ports = d.ports := rfl

/-! ### incF -/

@[simp] theorem Dev.incF_bus (f : Field) : (d.incF f).bus = d.bus := rfl
@[simp] theorem Dev.incF_caps (f : Field) : (d.incF f).caps = d.caps := rfl
@[simp] theorem Dev.incF_free (f : Field) : (d.incF f).free = d.free := rfl
@[simp] theorem Dev.incF_edges (f : Field) : (d.incF f).edges = d.edges := rfl
@[simp] theorem Dev.incF_mae (f : Field) : (d.incF f).mae = d.mae := rfl
@[simp] theorem Dev.incF_mem (f : Field) : (d.incF f).mem = d.mem := rfl
@[simp] theorem Dev.incF_pwr (f : Field) : (d.incF f).pwr = d.pwr := rfl
@[simp] theorem Dev.incF_watch (f : Field) : (d.incF f).watch = d.watch := rfl
@[simp] theorem Dev.incF_boot (f : Field) : (d.incF f).boot = d.boot := rfl
@[simp] theorem Dev.incF_otp (f : Field) : (d.incF f).otp = d.otp := rfl
@[simp] theorem Dev.incF_herd (f : Field) : (d.incF f).herd = d.herd := rfl
@[simp] theorem Dev.incF_ufe (f : Field) : (d.incF f).ufe = d.ufe := rfl
@[simp] theorem Dev.incF_flow (f : Field) : (d.incF f).flow = d.flow := rfl
@[simp] theorem Dev.incF_therm (f : Field) : (d.incF f).therm = d.therm := rfl
@[simp] theorem Dev.incF_rtd (f : Field) : (d.incF f).rtd = d.rtd := rfl
@[simp] theorem Dev.incF_fe (f : Field) : (d.incF f).fe = d.fe := rfl
@[simp] theorem Dev.incF_qty (f : Field) : (d.incF f).qty = d.qty := rfl
@[simp] theorem Dev.incF_rem (f : Field) : (d.incF f).rem = d.rem := rfl
@[simp] theorem Dev.incF_pulses (f : Field) : (d.incF f).pulses = d.pulses := rfl
@[simp] theorem Dev.incF_mule (f : Field) : (d.incF f).mule = d.mule := rfl
@[simp] theorem Dev.incF_lamp (f : Field) : (d.incF f).lamp = d.lamp := rfl
@[simp] theorem Dev.incF_crypto (f : Field) : (d.incF f).crypto = d.crypto := rfl
@[simp] theorem Dev.incF_kwk (f : Field) : (d.incF f).kwk = d.kwk := rfl
@[simp] theorem Dev.incF_mbx (f : Field) : (d.incF f).mbx = d.mbx := rfl
@[simp] theorem Dev.incF_rtc (f : Field) : (d.incF f).rtc = d.rtc := rfl
@[simp] theorem Dev.incF_tariff (f : Field) : (d.incF f).tariff = d.tariff := rfl
@[simp] theorem Dev.incF_bill (f : Field) : (d.incF f).bill = d.bill := rfl
@[simp] theorem Dev.incF_prepay (f : Field) : (d.incF f).prepay = d.prepay := rfl
@[simp] theorem Dev.incF_lockout (f : Field) : (d.incF f).lockout = d.lockout := rfl
@[simp] theorem Dev.incF_panel (f : Field) : (d.incF f).panel = d.panel := rfl
@[simp] theorem Dev.incF_gander (f : Field) : (d.incF f).gander = d.gander := rfl
@[simp] theorem Dev.incF_lc (f : Field) : (d.incF f).lc = d.lc := rfl
@[simp] theorem Dev.incF_ac (f : Field) : (d.incF f).ac = d.ac := rfl
@[simp] theorem Dev.incF_ports (f : Field) : (d.incF f).ports = d.ports := rfl

/-! ### inc -/

@[simp] theorem Dev.inc_bus (a : Nat) : (d.inc a).bus = d.bus := rfl
@[simp] theorem Dev.inc_caps (a : Nat) : (d.inc a).caps = d.caps := rfl
@[simp] theorem Dev.inc_free (a : Nat) : (d.inc a).free = d.free := rfl
@[simp] theorem Dev.inc_edges (a : Nat) : (d.inc a).edges = d.edges := rfl
@[simp] theorem Dev.inc_mae (a : Nat) : (d.inc a).mae = d.mae := rfl
@[simp] theorem Dev.inc_mem (a : Nat) : (d.inc a).mem = d.mem := rfl
@[simp] theorem Dev.inc_pwr (a : Nat) : (d.inc a).pwr = d.pwr := rfl
@[simp] theorem Dev.inc_watch (a : Nat) : (d.inc a).watch = d.watch := rfl
@[simp] theorem Dev.inc_boot (a : Nat) : (d.inc a).boot = d.boot := rfl
@[simp] theorem Dev.inc_otp (a : Nat) : (d.inc a).otp = d.otp := rfl
@[simp] theorem Dev.inc_herd (a : Nat) : (d.inc a).herd = d.herd := rfl
@[simp] theorem Dev.inc_ufe (a : Nat) : (d.inc a).ufe = d.ufe := rfl
@[simp] theorem Dev.inc_flow (a : Nat) : (d.inc a).flow = d.flow := rfl
@[simp] theorem Dev.inc_therm (a : Nat) : (d.inc a).therm = d.therm := rfl
@[simp] theorem Dev.inc_rtd (a : Nat) : (d.inc a).rtd = d.rtd := rfl
@[simp] theorem Dev.inc_fe (a : Nat) : (d.inc a).fe = d.fe := rfl
@[simp] theorem Dev.inc_qty (a : Nat) : (d.inc a).qty = d.qty := rfl
@[simp] theorem Dev.inc_rem (a : Nat) : (d.inc a).rem = d.rem := rfl
@[simp] theorem Dev.inc_pulses (a : Nat) : (d.inc a).pulses = d.pulses := rfl
@[simp] theorem Dev.inc_mule (a : Nat) : (d.inc a).mule = d.mule := rfl
@[simp] theorem Dev.inc_lamp (a : Nat) : (d.inc a).lamp = d.lamp := rfl
@[simp] theorem Dev.inc_crypto (a : Nat) : (d.inc a).crypto = d.crypto := rfl
@[simp] theorem Dev.inc_kwk (a : Nat) : (d.inc a).kwk = d.kwk := rfl
@[simp] theorem Dev.inc_mbx (a : Nat) : (d.inc a).mbx = d.mbx := rfl
@[simp] theorem Dev.inc_rtc (a : Nat) : (d.inc a).rtc = d.rtc := rfl
@[simp] theorem Dev.inc_tariff (a : Nat) : (d.inc a).tariff = d.tariff := rfl
@[simp] theorem Dev.inc_bill (a : Nat) : (d.inc a).bill = d.bill := rfl
@[simp] theorem Dev.inc_prepay (a : Nat) : (d.inc a).prepay = d.prepay := rfl
@[simp] theorem Dev.inc_lockout (a : Nat) : (d.inc a).lockout = d.lockout := rfl
@[simp] theorem Dev.inc_panel (a : Nat) : (d.inc a).panel = d.panel := rfl
@[simp] theorem Dev.inc_gander (a : Nat) : (d.inc a).gander = d.gander := rfl
@[simp] theorem Dev.inc_lc (a : Nat) : (d.inc a).lc = d.lc := rfl
@[simp] theorem Dev.inc_ac (a : Nat) : (d.inc a).ac = d.ac := rfl
@[simp] theorem Dev.inc_ports (a : Nat) : (d.inc a).ports = d.ports := rfl

/-! ### raise -/

@[simp] theorem Dev.raise_regs (e : Nat) : (d.raise e).regs = d.regs := rfl
@[simp] theorem Dev.raise_bus (e : Nat) : (d.raise e).bus = d.bus := rfl
@[simp] theorem Dev.raise_caps (e : Nat) : (d.raise e).caps = d.caps := rfl
@[simp] theorem Dev.raise_free (e : Nat) : (d.raise e).free = d.free := rfl
@[simp] theorem Dev.raise_mae (e : Nat) : (d.raise e).mae = d.mae := rfl
@[simp] theorem Dev.raise_mem (e : Nat) : (d.raise e).mem = d.mem := rfl
@[simp] theorem Dev.raise_pwr (e : Nat) : (d.raise e).pwr = d.pwr := rfl
@[simp] theorem Dev.raise_watch (e : Nat) : (d.raise e).watch = d.watch := rfl
@[simp] theorem Dev.raise_boot (e : Nat) : (d.raise e).boot = d.boot := rfl
@[simp] theorem Dev.raise_otp (e : Nat) : (d.raise e).otp = d.otp := rfl
@[simp] theorem Dev.raise_herd (e : Nat) : (d.raise e).herd = d.herd := rfl
@[simp] theorem Dev.raise_ufe (e : Nat) : (d.raise e).ufe = d.ufe := rfl
@[simp] theorem Dev.raise_flow (e : Nat) : (d.raise e).flow = d.flow := rfl
@[simp] theorem Dev.raise_therm (e : Nat) : (d.raise e).therm = d.therm := rfl
@[simp] theorem Dev.raise_rtd (e : Nat) : (d.raise e).rtd = d.rtd := rfl
@[simp] theorem Dev.raise_fe (e : Nat) : (d.raise e).fe = d.fe := rfl
@[simp] theorem Dev.raise_qty (e : Nat) : (d.raise e).qty = d.qty := rfl
@[simp] theorem Dev.raise_rem (e : Nat) : (d.raise e).rem = d.rem := rfl
@[simp] theorem Dev.raise_pulses (e : Nat) : (d.raise e).pulses = d.pulses := rfl
@[simp] theorem Dev.raise_mule (e : Nat) : (d.raise e).mule = d.mule := rfl
@[simp] theorem Dev.raise_lamp (e : Nat) : (d.raise e).lamp = d.lamp := rfl
@[simp] theorem Dev.raise_crypto (e : Nat) : (d.raise e).crypto = d.crypto := rfl
@[simp] theorem Dev.raise_kwk (e : Nat) : (d.raise e).kwk = d.kwk := rfl
@[simp] theorem Dev.raise_mbx (e : Nat) : (d.raise e).mbx = d.mbx := rfl
@[simp] theorem Dev.raise_rtc (e : Nat) : (d.raise e).rtc = d.rtc := rfl
@[simp] theorem Dev.raise_tariff (e : Nat) : (d.raise e).tariff = d.tariff := rfl
@[simp] theorem Dev.raise_bill (e : Nat) : (d.raise e).bill = d.bill := rfl
@[simp] theorem Dev.raise_prepay (e : Nat) : (d.raise e).prepay = d.prepay := rfl
@[simp] theorem Dev.raise_lockout (e : Nat) : (d.raise e).lockout = d.lockout := rfl
@[simp] theorem Dev.raise_panel (e : Nat) : (d.raise e).panel = d.panel := rfl
@[simp] theorem Dev.raise_gander (e : Nat) : (d.raise e).gander = d.gander := rfl
@[simp] theorem Dev.raise_lc (e : Nat) : (d.raise e).lc = d.lc := rfl
@[simp] theorem Dev.raise_ac (e : Nat) : (d.raise e).ac = d.ac := rfl
@[simp] theorem Dev.raise_ports (e : Nat) : (d.raise e).ports = d.ports := rfl

/-! ### answer -/

@[simp] theorem Dev.answer_regs (b : BusResp) : (d.answer b).regs = d.regs := rfl
@[simp] theorem Dev.answer_caps (b : BusResp) : (d.answer b).caps = d.caps := rfl
@[simp] theorem Dev.answer_free (b : BusResp) : (d.answer b).free = d.free := rfl
@[simp] theorem Dev.answer_edges (b : BusResp) : (d.answer b).edges = d.edges := rfl
@[simp] theorem Dev.answer_mae (b : BusResp) : (d.answer b).mae = d.mae := rfl
@[simp] theorem Dev.answer_mem (b : BusResp) : (d.answer b).mem = d.mem := rfl
@[simp] theorem Dev.answer_pwr (b : BusResp) : (d.answer b).pwr = d.pwr := rfl
@[simp] theorem Dev.answer_watch (b : BusResp) : (d.answer b).watch = d.watch := rfl
@[simp] theorem Dev.answer_boot (b : BusResp) : (d.answer b).boot = d.boot := rfl
@[simp] theorem Dev.answer_otp (b : BusResp) : (d.answer b).otp = d.otp := rfl
@[simp] theorem Dev.answer_herd (b : BusResp) : (d.answer b).herd = d.herd := rfl
@[simp] theorem Dev.answer_ufe (b : BusResp) : (d.answer b).ufe = d.ufe := rfl
@[simp] theorem Dev.answer_flow (b : BusResp) : (d.answer b).flow = d.flow := rfl
@[simp] theorem Dev.answer_therm (b : BusResp) : (d.answer b).therm = d.therm := rfl
@[simp] theorem Dev.answer_rtd (b : BusResp) : (d.answer b).rtd = d.rtd := rfl
@[simp] theorem Dev.answer_fe (b : BusResp) : (d.answer b).fe = d.fe := rfl
@[simp] theorem Dev.answer_qty (b : BusResp) : (d.answer b).qty = d.qty := rfl
@[simp] theorem Dev.answer_rem (b : BusResp) : (d.answer b).rem = d.rem := rfl
@[simp] theorem Dev.answer_pulses (b : BusResp) : (d.answer b).pulses = d.pulses := rfl
@[simp] theorem Dev.answer_mule (b : BusResp) : (d.answer b).mule = d.mule := rfl
@[simp] theorem Dev.answer_lamp (b : BusResp) : (d.answer b).lamp = d.lamp := rfl
@[simp] theorem Dev.answer_crypto (b : BusResp) : (d.answer b).crypto = d.crypto := rfl
@[simp] theorem Dev.answer_kwk (b : BusResp) : (d.answer b).kwk = d.kwk := rfl
@[simp] theorem Dev.answer_mbx (b : BusResp) : (d.answer b).mbx = d.mbx := rfl
@[simp] theorem Dev.answer_rtc (b : BusResp) : (d.answer b).rtc = d.rtc := rfl
@[simp] theorem Dev.answer_tariff (b : BusResp) : (d.answer b).tariff = d.tariff := rfl
@[simp] theorem Dev.answer_bill (b : BusResp) : (d.answer b).bill = d.bill := rfl
@[simp] theorem Dev.answer_prepay (b : BusResp) : (d.answer b).prepay = d.prepay := rfl
@[simp] theorem Dev.answer_lockout (b : BusResp) : (d.answer b).lockout = d.lockout := rfl
@[simp] theorem Dev.answer_panel (b : BusResp) : (d.answer b).panel = d.panel := rfl
@[simp] theorem Dev.answer_gander (b : BusResp) : (d.answer b).gander = d.gander := rfl
@[simp] theorem Dev.answer_lc (b : BusResp) : (d.answer b).lc = d.lc := rfl
@[simp] theorem Dev.answer_ac (b : BusResp) : (d.answer b).ac = d.ac := rfl
@[simp] theorem Dev.answer_ports (b : BusResp) : (d.answer b).ports = d.ports := rfl

/-! ### raiseIf -/

@[simp] theorem Dev.raiseIf_regs (c : Bool) (e : Nat) : (d.raiseIf c e).regs = d.regs := by cases c <;> rfl
@[simp] theorem Dev.raiseIf_bus (c : Bool) (e : Nat) : (d.raiseIf c e).bus = d.bus := by cases c <;> rfl
@[simp] theorem Dev.raiseIf_caps (c : Bool) (e : Nat) : (d.raiseIf c e).caps = d.caps := by cases c <;> rfl
@[simp] theorem Dev.raiseIf_free (c : Bool) (e : Nat) : (d.raiseIf c e).free = d.free := by cases c <;> rfl
@[simp] theorem Dev.raiseIf_mae (c : Bool) (e : Nat) : (d.raiseIf c e).mae = d.mae := by cases c <;> rfl
@[simp] theorem Dev.raiseIf_mem (c : Bool) (e : Nat) : (d.raiseIf c e).mem = d.mem := by cases c <;> rfl
@[simp] theorem Dev.raiseIf_pwr (c : Bool) (e : Nat) : (d.raiseIf c e).pwr = d.pwr := by cases c <;> rfl
@[simp] theorem Dev.raiseIf_watch (c : Bool) (e : Nat) : (d.raiseIf c e).watch = d.watch := by cases c <;> rfl
@[simp] theorem Dev.raiseIf_boot (c : Bool) (e : Nat) : (d.raiseIf c e).boot = d.boot := by cases c <;> rfl
@[simp] theorem Dev.raiseIf_otp (c : Bool) (e : Nat) : (d.raiseIf c e).otp = d.otp := by cases c <;> rfl
@[simp] theorem Dev.raiseIf_herd (c : Bool) (e : Nat) : (d.raiseIf c e).herd = d.herd := by cases c <;> rfl
@[simp] theorem Dev.raiseIf_ufe (c : Bool) (e : Nat) : (d.raiseIf c e).ufe = d.ufe := by cases c <;> rfl
@[simp] theorem Dev.raiseIf_flow (c : Bool) (e : Nat) : (d.raiseIf c e).flow = d.flow := by cases c <;> rfl
@[simp] theorem Dev.raiseIf_therm (c : Bool) (e : Nat) : (d.raiseIf c e).therm = d.therm := by cases c <;> rfl
@[simp] theorem Dev.raiseIf_rtd (c : Bool) (e : Nat) : (d.raiseIf c e).rtd = d.rtd := by cases c <;> rfl
@[simp] theorem Dev.raiseIf_fe (c : Bool) (e : Nat) : (d.raiseIf c e).fe = d.fe := by cases c <;> rfl
@[simp] theorem Dev.raiseIf_qty (c : Bool) (e : Nat) : (d.raiseIf c e).qty = d.qty := by cases c <;> rfl
@[simp] theorem Dev.raiseIf_rem (c : Bool) (e : Nat) : (d.raiseIf c e).rem = d.rem := by cases c <;> rfl
@[simp] theorem Dev.raiseIf_pulses (c : Bool) (e : Nat) : (d.raiseIf c e).pulses = d.pulses := by cases c <;> rfl
@[simp] theorem Dev.raiseIf_mule (c : Bool) (e : Nat) : (d.raiseIf c e).mule = d.mule := by cases c <;> rfl
@[simp] theorem Dev.raiseIf_lamp (c : Bool) (e : Nat) : (d.raiseIf c e).lamp = d.lamp := by cases c <;> rfl
@[simp] theorem Dev.raiseIf_crypto (c : Bool) (e : Nat) : (d.raiseIf c e).crypto = d.crypto := by cases c <;> rfl
@[simp] theorem Dev.raiseIf_kwk (c : Bool) (e : Nat) : (d.raiseIf c e).kwk = d.kwk := by cases c <;> rfl
@[simp] theorem Dev.raiseIf_mbx (c : Bool) (e : Nat) : (d.raiseIf c e).mbx = d.mbx := by cases c <;> rfl
@[simp] theorem Dev.raiseIf_rtc (c : Bool) (e : Nat) : (d.raiseIf c e).rtc = d.rtc := by cases c <;> rfl
@[simp] theorem Dev.raiseIf_tariff (c : Bool) (e : Nat) : (d.raiseIf c e).tariff = d.tariff := by cases c <;> rfl
@[simp] theorem Dev.raiseIf_bill (c : Bool) (e : Nat) : (d.raiseIf c e).bill = d.bill := by cases c <;> rfl
@[simp] theorem Dev.raiseIf_prepay (c : Bool) (e : Nat) : (d.raiseIf c e).prepay = d.prepay := by cases c <;> rfl
@[simp] theorem Dev.raiseIf_lockout (c : Bool) (e : Nat) : (d.raiseIf c e).lockout = d.lockout := by cases c <;> rfl
@[simp] theorem Dev.raiseIf_panel (c : Bool) (e : Nat) : (d.raiseIf c e).panel = d.panel := by cases c <;> rfl
@[simp] theorem Dev.raiseIf_gander (c : Bool) (e : Nat) : (d.raiseIf c e).gander = d.gander := by cases c <;> rfl
@[simp] theorem Dev.raiseIf_lc (c : Bool) (e : Nat) : (d.raiseIf c e).lc = d.lc := by cases c <;> rfl
@[simp] theorem Dev.raiseIf_ac (c : Bool) (e : Nat) : (d.raiseIf c e).ac = d.ac := by cases c <;> rfl
@[simp] theorem Dev.raiseIf_ports (c : Bool) (e : Nat) : (d.raiseIf c e).ports = d.ports := by cases c <;> rfl

@[simp] theorem Dev.answer_bus (b : BusResp) : (d.answer b).bus = b := rfl
@[simp] theorem Dev.raise_edges (e : Nat) : (d.raise e).edges = d.edges ++ [e] := rfl

end Sys2Proof.Machine
end

