-- ==== Sys2Proof/Laws/Regs.lean ====
section
/-! SUPPORT. Registers and fields: what is read after a write. -/

namespace Sys2Proof.Machine

/-! ### Bits -/

theorem bits_lt (x lo w : Nat) : bits x lo w < 2 ^ w := Nat.mod_lt _ (by positivity)

theorem setBits_split (x lo w v : Nat) :
    setBits x lo w v = x / 2 ^ (lo + w) * 2 ^ (lo + w) + v % 2 ^ w * 2 ^ lo + x % 2 ^ lo := by
  unfold setBits bits
  have h1 := Nat.div_add_mod x (2 ^ lo)
  have h2 := Nat.div_add_mod (x / 2 ^ lo) (2 ^ w)
  rw [Nat.div_div_eq_div_mul, ← pow_add] at h2
  have h3 : x = x / 2 ^ (lo + w) * 2 ^ (lo + w) + x / 2 ^ lo % 2 ^ w * 2 ^ lo + x % 2 ^ lo := by
    calc x = 2 ^ lo * (x / 2 ^ lo) + x % 2 ^ lo := h1.symm
      _ = 2 ^ lo * (2 ^ w * (x / 2 ^ (lo + w)) + x / 2 ^ lo % 2 ^ w) + x % 2 ^ lo := by rw [h2]
      _ = _ := by rw [pow_add]; ring
  omega

theorem bits_split_same (h m l lo w : Nat) (hm : m < 2 ^ w) (hl : l < 2 ^ lo) :
    bits (h * 2 ^ (lo + w) + m * 2 ^ lo + l) lo w = m := by
  unfold bits
  have : h * 2 ^ (lo + w) + m * 2 ^ lo + l = l + 2 ^ lo * (m + 2 ^ w * h) := by rw [pow_add]; ring
  rw [this, Nat.add_mul_div_left _ _ (by positivity), Nat.div_eq_of_lt hl, Nat.zero_add, Nat.add_mul_mod_self_left,
    Nat.mod_eq_of_lt hm]

theorem mid_lt (x v lo w : Nat) : v % 2 ^ w * 2 ^ lo + x % 2 ^ lo < 2 ^ (lo + w) := by
  have hv : v % 2 ^ w + 1 ≤ 2 ^ w := Nat.mod_lt _ (by positivity)
  have hl : x % 2 ^ lo < 2 ^ lo := Nat.mod_lt _ (by positivity)
  have := Nat.mul_le_mul_right (2 ^ lo) hv
  rw [Nat.add_mul, ← pow_add, Nat.add_comm w lo] at this
  omega

theorem bits_setBits_same (x lo w v : Nat) : bits (setBits x lo w v) lo w = v % 2 ^ w := by
  rw [setBits_split]
  exact bits_split_same _ _ _ _ _ (Nat.mod_lt _ (by positivity)) (Nat.mod_lt _ (by positivity))

theorem bits_low (a b lo w : Nat) (n : Nat) (h : lo + w ≤ n) : bits (a * 2 ^ n + b) lo w = bits b lo w := by
  unfold bits
  obtain ⟨k, rfl⟩ := Nat.exists_eq_add_of_le h
  have : a * 2 ^ (lo + w + k) + b = b + 2 ^ lo * (2 ^ w * (2 ^ k * a)) := by rw [pow_add, pow_add]; ring
  rw [this, Nat.add_mul_div_left _ _ (by positivity), Nat.add_mul_mod_self_left]

theorem bits_setBits_below (x lo w v lo' w' : Nat) (h : lo' + w' ≤ lo) : bits (setBits x lo w v) lo' w' = bits x lo' w' := by
  rw [setBits_split, pow_add]
  have e1 : x / (2 ^ lo * 2 ^ w) * (2 ^ lo * 2 ^ w) + v % 2 ^ w * 2 ^ lo + x % 2 ^ lo
      = (x / (2 ^ lo * 2 ^ w) * 2 ^ w + v % 2 ^ w) * 2 ^ lo + x % 2 ^ lo := by ring
  rw [e1, bits_low _ _ _ _ _ h]
  conv_rhs => rw [← Nat.div_add_mod x (2 ^ lo), Nat.mul_comm (2 ^ lo) (x / 2 ^ lo), bits_low _ _ _ _ _ h]

theorem bits_setBits_above (x lo w v lo' w' : Nat) (h : lo + w ≤ lo') : bits (setBits x lo w v) lo' w' = bits x lo' w' := by
  have key : setBits x lo w v / 2 ^ (lo + w) = x / 2 ^ (lo + w) := by
    rw [setBits_split]
    have hb := mid_lt x v lo w
    have : x / 2 ^ (lo + w) * 2 ^ (lo + w) + v % 2 ^ w * 2 ^ lo + x % 2 ^ lo
        = (v % 2 ^ w * 2 ^ lo + x % 2 ^ lo) + 2 ^ (lo + w) * (x / 2 ^ (lo + w)) := by ring
    rw [this, Nat.add_mul_div_left _ _ (by positivity), Nat.div_eq_of_lt hb, Nat.zero_add]
  obtain ⟨k, rfl⟩ := Nat.exists_eq_add_of_le h
  unfold bits
  rw [pow_add 2 (lo + w) k, ← Nat.div_div_eq_div_mul, key, Nat.div_div_eq_div_mul]

theorem setBits_lt (x lo w v n : Nat) (hx : x < 2 ^ n) (h : lo + w ≤ n) : setBits x lo w v < 2 ^ n := by
  rw [setBits_split]
  obtain ⟨k, rfl⟩ := Nat.exists_eq_add_of_le h
  have hh : x / 2 ^ (lo + w) < 2 ^ k := by
    rw [Nat.div_lt_iff_lt_mul (by positivity), ← pow_add, Nat.add_comm k]; exact hx
  have h1 := mid_lt x v lo w
  have h2 : (x / 2 ^ (lo + w) + 1) * 2 ^ (lo + w) ≤ 2 ^ k * 2 ^ (lo + w) := Nat.mul_le_mul_right _ hh
  rw [pow_add 2 (lo + w) k, Nat.mul_comm (2 ^ (lo + w))]
  nlinarith

theorem bit_eq (x k : Nat) : bit x k = x.testBit k := by
  simp [bit, Nat.testBit_eq_decide_div_mod_eq, Bool.beq_eq_decide_eq]

theorem bits_one (x k : Nat) : bits x k 1 = b2n (bit x k) := by
  unfold bits bit b2n
  rcases Nat.mod_two_eq_zero_or_one (x / 2 ^ k) with h | h <;> simp [h]

/-! ### Registers -/

variable (d : Dev)

theorem Dev.rd_lt (a : Nat) : d.rd a < 2 ^ 32 := BitVec.isLt _

/-- A read after a write. -/
theorem Dev.rd_wr (a v b : Nat) : (d.wr a v).rd b = if b = a then v % 2 ^ 32 else d.rd b := by
  unfold Dev.rd Dev.wr
  simp only [SMap.get_set]
  split <;> simp

@[simp] theorem Dev.rd_wr_same (a v : Nat) : (d.wr a v).rd a = v % 2 ^ 32 := by simp [Dev.rd_wr]

theorem Dev.rd_wr_ne {a b : Nat} (v : Nat) (h : b ≠ a) : (d.wr a v).rd b = d.rd b := by simp [Dev.rd_wr, h]

theorem Dev.rd_setF_ne (f : Field) (v : Nat) {b : Nat} (h : b ≠ f.reg) : (d.setF f v).rd b = d.rd b := Dev.rd_wr_ne d _ h

theorem Dev.rd_of_regs {d e : Dev} (h : e.regs = d.regs) (a : Nat) : e.rd a = d.rd a := by simp [Dev.rd, h]

theorem Dev.f_of_rd {d e : Dev} {g : Field} (h : e.rd g.reg = d.rd g.reg) : e.f g = d.f g := by simp [Dev.f, h]

theorem Dev.f_wr_ne {a : Nat} (v : Nat) (g : Field) (h : g.reg ≠ a) : (d.wr a v).f g = d.f g :=
  Dev.f_of_rd (Dev.rd_wr_ne d v h)

/-- A field after a write of its register. -/
theorem Dev.f_wr_same (v : Nat) (g : Field) : (d.wr g.reg v).f g = bits (v % 2 ^ 32) g.lo g.width := by simp [Dev.f]

theorem Dev.f_setF_ne (f g : Field) (v : Nat) (h : g.reg ≠ f.reg) : (d.setF f v).f g = d.f g := Dev.f_wr_ne d _ g h

/-- A field after a write of it. -/
theorem Dev.f_setF_same (f : Field) (v : Nat) (h : f.lo + f.width ≤ 32) : (d.setF f v).f f = v % 2 ^ f.width := by
  rw [Dev.setF, Dev.f_wr_same, Nat.mod_eq_of_lt (setBits_lt _ _ _ _ _ (Dev.rd_lt d _) h), bits_setBits_same]

/-- A field after a write of another field of its register. -/
theorem Dev.f_setF_disj (f g : Field) (v : Nat) (hr : g.reg = f.reg) (h : f.lo + f.width ≤ 32)
    (hd : g.lo + g.width ≤ f.lo ∨ f.lo + f.width ≤ g.lo) : (d.setF f v).f g = d.f g := by
  unfold Dev.f Dev.setF
  rw [hr, Dev.rd_wr_same, Nat.mod_eq_of_lt (setBits_lt _ _ _ _ _ (Dev.rd_lt d _) h)]
  rcases hd with hd | hd
  · exact bits_setBits_below _ _ _ _ _ _ hd
  · exact bits_setBits_above _ _ _ _ _ _ hd

@[simp] theorem Dev.rd_raise (e a : Nat) : (d.raise e).rd a = d.rd a := rfl
@[simp] theorem Dev.f_raise (e : Nat) (g : Field) : (d.raise e).f g = d.f g := rfl
@[simp] theorem Dev.rd_answer (b : BusResp) (a : Nat) : (d.answer b).rd a = d.rd a := rfl
@[simp] theorem Dev.f_answer (b : BusResp) (g : Field) : (d.answer b).f g = d.f g := rfl
@[simp] theorem Dev.rd_raiseIf (c : Bool) (e a : Nat) : (d.raiseIf c e).rd a = d.rd a := by cases c <;> rfl
@[simp] theorem Dev.f_raiseIf (c : Bool) (e : Nat) (g : Field) : (d.raiseIf c e).f g = d.f g := by cases c <;> rfl

/-- The register file keeps its canonical form. -/
theorem Dev.wr_regs_wf (a v : Nat) (h : SMap.wf regReset d.regs) : SMap.wf regReset (d.wr a v).regs :=
  SMap.wf_set regReset a _ h

theorem Dev.resetRegs_regs_wf (k : ResetKind) (xs : List Dom) (h : SMap.wf regReset d.regs) :
    SMap.wf regReset (d.resetRegs k xs).regs := by
  unfold Dev.resetRegs
  dsimp only
  exact SMap.wf_update _ _ h

end Sys2Proof.Machine
end

