-- ==== Sys2Proof/Laws/Follow.lean ====
section
/-! SUPPORT. What the follow-up work of a command leaves: the registers outside `followRegs`, every unit, and no pending
bit cleared. -/

namespace Sys2Proof.Machine

/-- `e` is what follow-up work has made of `d`. -/
structure Dev.After (d e : Dev) : Prop where
  units : e.units = d.units
  keeps : d.keeps e []
  pend : ∀ p k, bit (d.rd (Reg.EVT_PEND p)) k = true → bit (e.rd (Reg.EVT_PEND p)) k = true
  bus : e.bus = d.bus
  request : e.pwr.pend = d.pwr.pend
  mode : e.watch.checkMode = d.watch.checkMode

namespace Dev.After

variable {d e g : Dev}

theorem refl (d : Dev) : d.After d := ⟨rfl, fun _ _ _ => rfl, fun _ _ h => h, rfl, rfl, rfl⟩

theorem trans (h : d.After e) (k : e.After g) : d.After g :=
  ⟨k.units.trans h.units, fun a ha hf => (k.keeps a ha hf).trans (h.keeps a ha hf), fun p b hb => k.pend p b (h.pend p b hb),
    k.bus.trans h.bus, k.request.trans h.request, k.mode.trans h.mode⟩

theorem rd (h : d.After e) {a : Nat} (hf : follows a = false) : e.rd a = d.rd a := h.keeps a (by simp) hf

theorem f (h : d.After e) {g : Field} (hf : follows g.reg = false) : e.f g = d.f g := Dev.f_of_rd (h.rd hf)

theorem of_regs (hu : e.units = d.units) (hr : e.regs = d.regs) (hb : e.bus = d.bus) (hp : e.pwr.pend = d.pwr.pend)
    (hm : e.watch.checkMode = d.watch.checkMode) : d.After e :=
  ⟨hu, fun a _ _ => Dev.rd_of_regs hr a, fun _ _ h => by rwa [Dev.rd_of_regs hr], hb, hp, hm⟩

/-- A write of a register of the follow-up work that holds no pending bits. -/
theorem wr (a v : Nat) (hf : follows a = true) (hp : ∀ p, Reg.EVT_PEND p ≠ a) : d.After (d.wr a v) := by
  refine ⟨rfl, fun b _ hb => ?_, fun p k h => ?_, rfl, rfl, rfl⟩
  · exact Dev.rd_wr_ne d v (by rintro rfl; simp [hf] at hb)
  · rwa [Dev.rd_wr_ne d v (hp p)]

theorem setF (g : Field) (v : Nat) (hf : follows g.reg = true) (hp : ∀ p, Reg.EVT_PEND p ≠ g.reg) : d.After (d.setF g v) :=
  wr _ _ hf hp

theorem raise (n : Nat) : d.After (d.raise n) := of_regs rfl rfl rfl rfl rfl

theorem raiseIf (c : Bool) (n : Nat) : d.After (d.raiseIf c n) := by cases c; exacts [refl d, raise n]

theorem foldl {α : Type} (l : List α) (op : Dev → α → Dev) (h : ∀ x (d : Dev), x ∈ l → d.After (op d x)) :
    ∀ d : Dev, d.After (l.foldl op d) := by
  induction l with
  | nil => exact refl
  | cons x t ih =>
    intro d
    exact (h x d (by simp)).trans (ih (fun y d hy => h y d (by simp [hy])) _)

theorem upto (n : Nat) (op : Nat → Dev → Dev) (h : ∀ i < n, ∀ d : Dev, d.After (op i d)) (d : Dev) : d.After (Machine.forUpto n op d) :=
  foldl _ _ (fun i d hi => h i (by simpa using hi) d) d

end Dev.After

/-! ### Which registers belong to the follow-up work -/

theorem pend_ne (p : Page) {a : Nat} (h : (Page.all.map Reg.EVT_PEND).contains a = false) : Reg.EVT_PEND p ≠ a := by
  rintro rfl
  cases p <;> revert h <;> decide

theorem pend_follows (p : Page) : follows (Reg.EVT_PEND p) = true := by cases p <;> decide

/-- A register of the follow-up work other than the pending bits. -/
def plainFollow (a : Nat) : Bool := follows a && !(Page.all.map Reg.EVT_PEND).contains a

namespace Dev.After

variable {d : Dev}

theorem wr' (a v : Nat) (h : plainFollow a = true) : d.After (d.wr a v) := by
  simp only [plainFollow, Bool.and_eq_true, Bool.not_eq_true'] at h
  exact wr a v h.1 fun p => pend_ne p h.2

theorem setF' (g : Field) (v : Nat) (h : plainFollow g.reg = true) : d.After (d.setF g v) := wr' _ _ h

theorem watch (w : Watch) (h : w.checkMode = d.watch.checkMode := by rfl) : d.After { d with watch := w } :=
  of_regs rfl rfl rfl rfl h

theorem edges (l : List Nat) : d.After { d with edges := l } := of_regs rfl rfl rfl rfl rfl

theorem pwr (p : Pwr) (h : p.pend = d.pwr.pend := by rfl) : d.After { d with pwr := p } := of_regs rfl rfl rfl h rfl

theorem setMissed (n : Nat) (b : Bool) : d.After (d.setMissed n b) := of_regs rfl rfl rfl rfl rfl

theorem uptimeNow : d.After d.uptimeNow.2 := of_regs rfl rfl rfl rfl rfl

end Dev.After

variable (d : Dev)

theorem Dev.setSlots_after (x : Dom) (v : Nat) : d.After (d.setSlots x v) := by
  unfold Dev.setSlots
  split
  · exact .refl d
  · exact .setF' _ _ (by cases x <;> decide)

theorem Dev.hwSlot_after (x : Dom) (s : Nat) (b : Bool) : d.After (d.hwSlot x s b) := d.setSlots_after x _

theorem Dev.clearRequest_after : d.After d.clearRequest :=
  .trans (.setF' Fld.PWR_STATE_TARGET 0 (by decide)) (.setF' Fld.PWR_STATE_BUSY 0 (by decide))

theorem Dev.enter_after (t : PState) : d.After (d.enter t) :=
  .trans (.setF' Fld.PWR_STATE_CUR t.code (by decide)) (.raise _)

theorem Dev.leaveIdle_after : d.After d.leaveIdle := d.enter_after _

theorem Dev.abortDrop_after : d.After d.abortDrop := by
  unfold Dev.abortDrop
  split
  · rename_i q _
    refine .trans (.pwr _) (.trans (.trans (.trans (.setF' Fld.PWR_SEQ_DOM 0 (by decide)) (.setF' Fld.PWR_SEQ_STEP 0 (by decide)))
      (.setF' (Fld.PWR_DOM_CNT_ABORTS q.dom.num) _ (by cases q.dom <;> decide))) (.raise _))
  · exact .refl d

theorem Dev.abortEntry_after : d.After d.abortEntry := by
  unfold Dev.abortEntry
  dsimp only
  split
  · split
    · exact .trans (.trans (.pwr _) (Dev.clearRequest_after _)) (Dev.abortDrop_after _)
    · exact .trans (.trans (.pwr _) (Dev.clearRequest_after _)) (.raise _)
  · exact .trans (.trans (.pwr _) (Dev.clearRequest_after _)) (.raise _)

theorem Dev.dropCheck_after : d.After d.dropCheck := by
  unfold Dev.dropCheck
  split
  · split
    · exact .refl d
    · split
      · exact .pwr _
      · exact d.abortDrop_after
  · exact .refl d

theorem Dev.recordWake_after (cs : List Nat) (c : Nat) : d.After (d.recordWake cs c) := by
  unfold Dev.recordWake
  exact .trans (.trans (.trans (.trans (.trans (.trans (.wr' _ _ (by decide)) (.wr' _ _ (by decide))) (.wr' _ _ (by decide)))
    (.wr' _ _ (by decide))) .uptimeNow) (.wr' _ _ (by decide))) (.pwr _)

theorem Dev.joinWake_after (cs : List Nat) : d.After (d.joinWake cs) :=
  .trans (.wr' _ _ (by decide)) (.setF' _ _ (by decide))

theorem Dev.startWake_after : d.After d.startWake := by
  unfold Dev.startWake
  refine .trans (.pwr _) (.trans (.foldl _ _ (fun x e _ => ?_) _) (Dev.dropCheck_after _))
  split
  · exact e.hwSlot_after x 5 true
  · exact .refl e

theorem Dev.startColdWake_after : d.After d.startColdWake := .pwr _

theorem Dev.wakeShut_after : d.After d.wakeShut := .pwr _

theorem Dev.idleOver_after : d.After d.idleOver := by
  unfold Dev.idleOver
  split
  · exact d.leaveIdle_after
  · exact .refl d

theorem Dev.wakeAct_after (cs : List Nat) : d.After (d.wakeAct cs) := by
  unfold Dev.wakeAct
  have wakes : ∀ n, d.After (d.recordWake cs n).startWake := fun n => .trans (d.recordWake_after _ _) (Dev.startWake_after _)
  split
  · split
    · exact .trans (d.recordWake_after _ _) (.pwr _)
    · exact .trans (.trans (.trans (.trans (d.recordWake_after _ _) (Dev.wakeShut_after _)) (Dev.abortEntry_after _))
        (Dev.idleOver_after _)) (.raise _)
  · dsimp only
    split
    · exact .refl d
    · exact .refl d
    · exact .trans (.trans (.trans (d.recordWake_after _ _) (Dev.wakeShut_after _)) (Dev.leaveIdle_after _)) (.raise _)
    · exact wakes _
    · exact wakes _
    · exact .trans (d.recordWake_after _ _) (Dev.startColdWake_after _)
    · split
      · exact .trans (d.recordWake_after _ _) (.watch _)
      · exact wakes _

theorem Dev.wakePeriod_after : d.After d.wakePeriod.2 := by
  unfold Dev.wakePeriod
  split
  · exact .refl d
  · exact .uptimeNow

theorem Dev.wakeRequest_after (cs : List Nat) : d.After (d.wakeRequest cs) := by
  unfold Dev.wakeRequest
  dsimp only
  split
  · exact .refl d
  · split
    · exact d.wakeAct_after _
    · have h := d.wakePeriod_after
      split <;> rename_i hp <;> rw [hp] at h
      · exact h.trans (Dev.joinWake_after _ _)
      · exact h

theorem Dev.needArose_after (x : Dom) : d.After (d.needArose x) := by
  unfold Dev.needArose
  split
  · split
    · exact d.dropCheck_after
    · split
      · exact .pwr _
      · dsimp only
        split
        · exact d.abortEntry_after.trans (Dev.startWake_after _)
        · exact d.abortEntry_after
  · split
    · exact d.startWake_after
    · exact d.dropCheck_after

theorem Dev.followSlot_after (x : Dom) (s : Nat) (b : Bool) : d.After (d.followSlot x s b) := by
  unfold Dev.followSlot
  dsimp only
  split
  · exact .trans (d.hwSlot_after x s b) (Dev.needArose_after _ x)
  · exact d.hwSlot_after x s b

theorem Dev.voteSync_after : d.After d.voteSync := by
  unfold Dev.voteSync
  dsimp only
  refine .trans (.foldl _ _ (fun x e _ => ?_) _) (Dev.followSlot_after _ _ _ _)
  split
  · exact .refl e
  · exact e.followSlot_after x _ _

theorem Dev.faultLog_after (n : Nat) : d.After (d.faultLog n) := by
  unfold Dev.faultLog
  split
  · have hn : d.f Fld.EVTMX_FLOG_WR_IDX < 16 := bits_lt _ _ _
    have h1 : ∀ n < 16, plainFollow (Reg.EVTMX_FLOG_EVT n) = true := by decide
    have h2 : ∀ n < 16, plainFollow (Reg.EVTMX_FLOG_CYC n) = true := by decide
    exact .trans (.trans (.trans (.wr' _ _ (h1 _ hn)) (.wr' _ _ (h2 _ hn))) (.setF' _ _ (by decide))) (.wr' _ _ (by decide))
  · exact .refl d

theorem capAng_follows : ∀ n < 4, plainFollow (Reg.MAE_CAP_ANG n) = true := by decide

theorem Dev.captureNow_after (n : Nat) (h : n < 4) : d.After (d.captureNow n) := by
  have h2 : ∀ n < 4, plainFollow (Reg.MAE_CAP_CYC n) = true := by decide
  have ha := capAng_follows n h
  exact .trans (.trans (.trans (.trans (.trans (.wr' _ _ (h2 n h)) (.setF' (Fld.MAE_CAP_ANG_ANG n) _ ha))
    (.setF' (Fld.MAE_CAP_ANG_STATE n) _ ha)) (.setF' (Fld.MAE_CAP_ANG_FULL n) _ ha)) (.setMissed _ _)) (.raise _)

theorem Dev.capture_after (n c : Nat) (h : c < 4) : d.After (d.capture n c) := by
  unfold Dev.capture
  split
  · split
    · split
      · exact .refl d
      · exact .trans (.trans (.setF' (Fld.MAE_CAP_ANG_OVR c) _ (capAng_follows c h)) (.setMissed _ _)) (.raise _)
    · exact d.captureNow_after c h
  · exact .refl d

theorem Dev.forward_after (n : Nat) : d.After (d.forward n) := by
  unfold Dev.forward
  split
  · exact d.wakeRequest_after _
  · exact .refl d

/-- The rise of an event clears no pending bit. -/
theorem Dev.setPend_after (p : Page) (k : Nat) : d.After (d.wr (Reg.EVT_PEND p) (d.rd (Reg.EVT_PEND p) ||| 2 ^ k)) := by
  refine ⟨rfl, fun b _ hb => Dev.rd_wr_ne d _ ?_, fun q j h => ?_, rfl, rfl, rfl⟩
  · rintro rfl; simp [pend_follows] at hb
  · rw [Dev.rd_wr]
    split
    · rename_i hq
      rw [hq] at h
      rw [bit_eq] at h ⊢
      rw [Nat.testBit_mod_two_pow, Nat.testBit_or, h]
      simp only [Bool.true_or, Bool.and_true, decide_eq_true_eq]
      by_contra hj
      have := Nat.testBit_lt_two_pow (x := d.rd (Reg.EVT_PEND p)) (i := j)
        (lt_of_lt_of_le (d.rd_lt _) (Nat.pow_le_pow_right (by decide) (by omega)))
      simp [this] at h
    · exact h

theorem Dev.settleOne_after (n : Nat) : d.After (d.settleOne n) := by
  unfold Dev.settleOne
  split
  · exact .refl d
  · rename_i p k _
    split
    · have h := (d.setPend_after p k).trans (Dev.faultLog_after _ n)
      dsimp only
      split
      · exact (h.trans (.upto 4 _ (fun c hc e => e.capture_after n c hc) _)).trans (Dev.forward_after _ n)
      · exact h.trans (Dev.forward_after _ n)
    · exact .refl d

theorem Dev.settleRounds_after : ∀ (n : Nat) (d : Dev), d.After (d.settleRounds n)
  | 0, _ => .of_regs rfl rfl rfl rfl rfl
  | n + 1, d => by
    unfold Dev.settleRounds
    split
    · exact .refl d
    · exact (Dev.After.edges []).trans (.foldl _ _ (fun x e _ => e.settleOne_after x) _) |>.trans
        (Dev.settleRounds_after n _)

theorem Dev.idleExit_after : d.After d.idleExit := by
  unfold Dev.idleExit
  split
  · exact d.leaveIdle_after
  · exact .refl d

theorem Dev.settle_after : d.After d.settle :=
  .trans (.trans (Dev.settleRounds_after _ _) (Dev.idleExit_after _)) (Dev.settleRounds_after _ _)

theorem Dev.mspiRefresh_after : d.After d.mspiRefresh := by
  unfold Dev.mspiRefresh
  split
  · split
    · exact .trans (.trans (.wr' _ _ (by decide)) (.setF' _ _ (by decide))) (.raiseIf _ _)
    · exact .refl d
  · exact .refl d

theorem Dev.errRefresh_after : d.After d.errRefresh := by
  unfold Dev.errRefresh
  split
  · exact .trans (.wr' _ _ (by decide)) (.raise _)
  · exact .refl d

/-! ### The whole follow-up work -/

theorem Dev.muleReports_nil (h : d.mule.reports = []) : d.muleReports = d := by
  unfold Dev.muleReports
  have e : ({ d.mule with reports := [] } : Mule) = d.mule := by
    rcases hm : d.mule with ⟨⟩
    simp_all
  simp only [h, List.foldl_nil, e]

theorem Dev.unitsDone_nil (h : d.herd.running = []) : d.unitsDone = d := by simp [Dev.unitsDone, h]

theorem Dev.After.ports {d e : Dev} (h : d.After e) : e.ports = d.ports :=
  show e.units.ports = d.units.ports by rw [h.units]

theorem Dev.txAbort_nil (h : d.ports.host.tx = none) : d.txAbort = d := by
  simp [Dev.txAbort, Dev.txFail, Dev.setTx, Dev.txEnd, h]

theorem Dev.askWaiting_nil (n : Nat) (h : d.herd.asks = []) : Dev.askWaiting n d = d := by
  cases n <;> simp [Dev.askWaiting, h]

theorem Dev.uartGo_nil (h : d.ports.uart.stop = false) : d.uartGo = d := by simp [Dev.uartGo, h]

theorem Dev.wakeCheck_nil (h : d.watch.checkMode = false) : d.wakeCheck = d := by simp [Dev.wakeCheck, Dev.leaveCheck, h]

theorem Dev.pendStart_nil (h : d.pwr.pend = none) : d.pendStart = d := by simp [Dev.pendStart, h]

theorem Dev.upBegin_after : d.After d.upBegin := by
  unfold Dev.upBegin
  split
  · exact .refl d
  · exact .pwr _

/-- The follow-up work before the settling, where no other work waits. -/
theorem Dev.beforeSettle_after : d.After d.voteSync.mspiRefresh.errRefresh.dropCheck :=
  ((d.voteSync_after.trans (Dev.mspiRefresh_after _)).trans (Dev.errRefresh_after _)).trans (Dev.dropCheck_after _)

/-- Where no other work waits, the follow-up work is the votes, the status words, the drop check, the next power-up and the
settling. -/
theorem Dev.finish_calm (h : d.calm = true) :
    d.finish = d.voteSync.mspiRefresh.errRefresh.dropCheck.upBegin.settle := by
  simp only [Dev.calm, Bool.and_eq_true, Bool.or_eq_true, Bool.not_eq_true', bne_iff_ne, List.isEmpty_iff,
    Option.isNone_iff_eq_none] at h
  obtain ⟨⟨⟨⟨⟨⟨⟨⟨⟨h0, h1⟩, h2⟩, h3⟩, ha⟩, h4⟩, h5⟩, h6⟩, h7⟩, h8⟩ := h
  have e0 : d.bootTry = d := by simp [Dev.bootTry, Dev.bootReady, h0]
  have e1 : d.appBootDue = d := by simp [Dev.appBootDue, h1]
  have e2 : d.muleTryRestore = d := by rcases h4 with h4 | h4 <;> simp [Dev.muleTryRestore, h4]
  have e3 : d.txHeld = d := by simp [Dev.txHeld, h5]
  have hb := d.beforeSettle_after
  unfold Dev.finish
  dsimp only
  rw [e0, e1, d.muleReports_nil h2, d.unitsDone_nil h3, d.askWaiting_nil 8 ha, e2, e3, Dev.txAbort_nil _ (by rw [hb.ports, h5]),
    Dev.uartGo_nil _ (by rw [hb.ports, h6]), Dev.wakeCheck_nil _ (by rw [hb.mode, h8]),
    Dev.pendStart_nil _ (by rw [hb.request, h7])]

/-- Where no other work waits, what follows a command writes follow-up registers only. -/
theorem Dev.finish_after (h : d.calm = true) : d.After d.finish := by
  rw [d.finish_calm h]
  exact (d.beforeSettle_after.trans (Dev.upBegin_after _)).trans (Dev.settle_after _)

end Sys2Proof.Machine
end

