-- ==== Sys2Proof/Laws/Settle.lean ====
section
/-! SUPPORT. An event that a command raises is pending after it (R30), and a command leaves no event unsettled. -/

namespace Sys2Proof.Machine

/-! ### The follow-up work before the settling drops no event -/

/-- Every event raised in `d` is still raised in `e`. -/
def Dev.Grows (d e : Dev) : Prop := ∀ n ∈ d.edges, n ∈ e.edges

namespace Dev.Grows

variable {d e g : Dev}

theorem of_eq (h : e.edges = d.edges) : d.Grows e := fun _ hn => h ▸ hn

theorem trans (h : d.Grows e) (k : e.Grows g) : d.Grows g := fun n hn => k n (h n hn)

theorem pwr (p : Pwr) : d.Grows { d with pwr := p } := of_eq rfl

theorem setF (f : Field) (v : Nat) : d.Grows (d.setF f v) := of_eq rfl

theorem clearRequest : d.Grows d.clearRequest := of_eq rfl

theorem raise (n : Nat) : d.Grows (d.raise n) := fun m hm => by simp [hm]

theorem foldl {α : Type} (l : List α) (op : Dev → α → Dev) (h : ∀ x (d : Dev), d.Grows (op d x)) : ∀ d : Dev, d.Grows (l.foldl op d) := by
  induction l with
  | nil => exact fun d => .of_eq rfl
  | cons x t ih => exact fun d => (h x d).trans (ih _)

end Dev.Grows

variable (d : Dev)

theorem Dev.hwSlot_grows (x : Dom) (s : Nat) (b : Bool) : d.Grows (d.hwSlot x s b) := by
  unfold Dev.hwSlot Dev.setSlots
  split <;> exact .of_eq rfl

theorem Dev.abortDrop_grows : d.Grows d.abortDrop := by
  unfold Dev.abortDrop
  split
  · exact .trans (.trans (.trans (.trans (.pwr _) (.setF _ _)) (.setF _ _)) (.setF _ _)) (.raise _)
  · exact .of_eq rfl

theorem Dev.abortEntry_grows : d.Grows d.abortEntry := by
  unfold Dev.abortEntry
  dsimp only
  split
  · split
    · exact .trans (.trans (.pwr _) .clearRequest) (Dev.abortDrop_grows _)
    · exact .trans (.trans (.pwr _) .clearRequest) (.raise _)
  · exact .trans (.trans (.pwr _) .clearRequest) (.raise _)

theorem Dev.dropCheck_grows : d.Grows d.dropCheck := by
  unfold Dev.dropCheck
  split
  · split
    · exact .of_eq rfl
    · split
      · exact .pwr _
      · exact d.abortDrop_grows
  · exact .of_eq rfl

theorem Dev.startWake_grows : d.Grows d.startWake := by
  unfold Dev.startWake
  dsimp only
  refine .trans (.trans (.pwr _) (.foldl _ _ (fun x e => ?_) _)) (Dev.dropCheck_grows _)
  split
  · exact e.hwSlot_grows x 5 true
  · exact .of_eq rfl

theorem Dev.needArose_grows (x : Dom) : d.Grows (d.needArose x) := by
  unfold Dev.needArose
  split
  · split
    · exact d.dropCheck_grows
    · split
      · exact .pwr _
      · dsimp only
        split
        · exact d.abortEntry_grows.trans (Dev.startWake_grows _)
        · exact d.abortEntry_grows
  · split
    · exact d.startWake_grows
    · exact d.dropCheck_grows

theorem Dev.followSlot_grows (x : Dom) (s : Nat) (b : Bool) : d.Grows (d.followSlot x s b) := by
  unfold Dev.followSlot
  dsimp only
  split
  · exact (d.hwSlot_grows x s b).trans (Dev.needArose_grows _ x)
  · exact d.hwSlot_grows x s b

theorem Dev.voteSync_grows : d.Grows d.voteSync := by
  unfold Dev.voteSync
  dsimp only
  refine .trans (.foldl _ _ (fun x e => ?_) _) (Dev.followSlot_grows _ _ _ _)
  split
  · exact .of_eq rfl
  · exact e.followSlot_grows x _ _

theorem Dev.upBegin_grows : d.Grows d.upBegin := by
  unfold Dev.upBegin
  split
  · exact .of_eq rfl
  · exact .pwr _

theorem Dev.mspiRefresh_grows : d.Grows d.mspiRefresh := by
  unfold Dev.mspiRefresh Dev.raiseIf
  split
  · split
    · dsimp only
      split
      · exact .trans (.of_eq rfl) (.raise _)
      · exact .of_eq rfl
    · exact .of_eq rfl
  · exact .of_eq rfl

theorem Dev.errRefresh_grows : d.Grows d.errRefresh := by
  unfold Dev.errRefresh
  split
  · exact .trans (.of_eq rfl) (.raise _)
  · exact .of_eq rfl

/-! ### Settling -/

theorem mem_insertNat (e n : Nat) : ∀ l : List Nat, n ∈ insertNat e l ↔ n = e ∨ n ∈ l
  | [] => by simp [insertNat]
  | x :: t => by
    unfold insertNat
    split
    · simp
    · split
      · subst_vars; simp
      · simp only [List.mem_cons, mem_insertNat e n t]; tauto

theorem mem_sortNat (n : Nat) : ∀ l : List Nat, n ∈ sortNat l ↔ n ∈ l
  | [] => by simp [sortNat]
  | x :: t => by
    have ih := mem_sortNat n t
    simp only [sortNat, List.foldr_cons] at ih ⊢
    rw [mem_insertNat, ih, List.mem_cons]

theorem Dev.After.domOn {d e : Dev} (h : d.After e) (x : Dom) : e.domOn x = d.domOn x := by
  unfold Dev.domOn Dev.domStat
  rw [h.f (g := Dev.domField x) (by cases x <;> decide)]

theorem Dev.After.pends {d e : Dev} (h : d.After e) {n : Nat} (hn : d.pends n = true) : e.pends n = true := by
  unfold Dev.pends at hn ⊢
  split at hn
  · exact h.pend _ _ hn
  · simp at hn

/-- The domain of an event's page is on, and the event is one of the map's. -/
def Dev.hears (d : Dev) (n : Nat) : Bool :=
  match eventPlace n with
  | some (p, k) => d.domOn p.dom && k < 32
  | none => false

theorem Dev.After.hears {d e : Dev} (h : d.After e) (n : Nat) : e.hears n = d.hears n := by
  unfold Dev.hears
  split
  · rw [h.domOn]
  · rfl

theorem Dev.settleOne_pends {n : Nat} (h : d.hears n = true) : (d.settleOne n).pends n = true := by
  unfold Dev.hears at h
  cases hp : eventPlace n with
  | none => simp [hp] at h
  | some pk =>
    obtain ⟨p, k⟩ := pk
    simp only [hp, Bool.and_eq_true, decide_eq_true_eq] at h
    have h0 : (d.wr (Reg.EVT_PEND p) (d.rd (Reg.EVT_PEND p) ||| 2 ^ k)).pends n = true := by
      simp only [Dev.pends, hp, Dev.rd_wr_same, bit_eq, Nat.testBit_mod_two_pow, Nat.testBit_or, Nat.testBit_two_pow_self,
        Bool.or_true, Bool.and_true, decide_eq_true_eq]
      exact h.2
    unfold Dev.settleOne
    simp only [hp, h.1, if_true]
    have h1 := Dev.faultLog_after (d.wr (Reg.EVT_PEND p) (d.rd (Reg.EVT_PEND p) ||| 2 ^ k)) n
    split
    · exact ((h1.trans (.upto 4 _ (fun c hc e => e.capture_after n c hc) _)).trans (Dev.forward_after _ n)).pends h0
    · exact (h1.trans (Dev.forward_after _ n)).pends h0

theorem Dev.settleAll_pends {n : Nat} : ∀ (l : List Nat) (d : Dev), d.hears n = true → n ∈ l → (l.foldl Dev.settleOne d).pends n = true
  | [], _, _, hm => by simp at hm
  | x :: t, d, h, hm => by
    have hx := d.settleOne_after x
    rw [List.foldl_cons]
    by_cases e : n = x
    · subst e
      exact (Dev.After.foldl _ _ (fun y g _ => g.settleOne_after y) _).pends (d.settleOne_pends h)
    · exact Dev.settleAll_pends t _ (by rw [hx.hears]; exact h) (by simpa [e] using hm)

theorem Dev.settleRounds_pends {n k : Nat} (h : d.hears n = true) (hm : n ∈ d.edges) :
    (d.settleRounds (k + 1)).pends n = true := by
  unfold Dev.settleRounds
  split
  · rename_i he; simp [he] at hm
  · refine (Dev.settleRounds_after _ _).pends (Dev.settleAll_pends _ _ ?_ ((mem_sortNat n _).2 hm))
    rw [(Dev.After.edges (d := d) []).hears]
    exact h

/-- An event that is raised when the settling begins is pending after it. -/
theorem Dev.settle_pends {n : Nat} (h : d.hears n = true) (hm : n ∈ d.edges) : d.settle.pends n = true :=
  ((Dev.idleExit_after _).trans (Dev.settleRounds_after _ _)).pends (d.settleRounds_pends h hm)

theorem Dev.settleRounds_edges : ∀ (n : Nat) (d : Dev), (d.settleRounds n).edges = []
  | 0, _ => rfl
  | n + 1, d => by
    unfold Dev.settleRounds
    split
    · assumption
    · exact Dev.settleRounds_edges n _

/-- The settling leaves no event raised. -/
theorem Dev.settle_edges : d.settle.edges = [] := Dev.settleRounds_edges _ _

theorem Dev.finish_edges : d.finish.edges = [] := by
  unfold Dev.finish
  exact Dev.settle_edges _

/-- An event that a command raises is pending after it, where its page is on. -/
theorem Dev.finish_pends (hc : d.calm = true) {n : Nat} (h : d.hears n = true) (hm : n ∈ d.edges) : d.finish.pends n = true := by
  rw [d.finish_calm hc]
  have ha := d.beforeSettle_after.trans (Dev.upBegin_after _)
  have hg : d.Grows d.voteSync.mspiRefresh.errRefresh.dropCheck.upBegin :=
    (((d.voteSync_grows.trans (Dev.mspiRefresh_grows _)).trans (Dev.errRefresh_grows _)).trans (Dev.dropCheck_grows _)).trans
      (Dev.upBegin_grows _)
  exact Dev.settle_pends _ (by rw [ha.hears]; exact h) (hg n hm)

end Sys2Proof.Machine
end

