-- ==== Sys2Proof/Laws/Access.lean ====
section
/-! SUPPORT. What a command's read and write of a register come to: granted, refused or recorded. -/

namespace Sys2Proof.Machine

theorem regPlace_of (a off : Nat) (p : Page) (h : (decide (0x40000000 ≤ a) && decide (a < 0x40027000)) = true)
    (hp : Page.ofNum ((a - 0x40000000) / 0x1000) = some p) (ho : a % 0x1000 = off) : regPlace a = some (p, off) := by
  unfold regPlace
  rw [if_pos h, hp]
  simp [ho]

theorem page_of_num (p : Page) : Page.ofNum p.num = some p := by cases p <;> rfl

theorem page_num_lt (p : Page) : p.num < 39 := by cases p <;> decide

theorem page_range (n off : Nat) (hn : n < 39) (h : off < 0x1000) :
    (decide (0x40000000 ≤ 0x40000000 + n * 0x1000 + off) && decide (0x40000000 + n * 0x1000 + off < 0x40027000)) = true := by
  rw [Bool.and_eq_true, decide_eq_true_eq, decide_eq_true_eq]; omega

theorem page_index (n off : Nat) (h : off < 0x1000) : (0x40000000 + n * 0x1000 + off - 0x40000000) / 0x1000 = n := by omega

theorem page_offset (n off : Nat) (h : off < 0x1000) : (0x40000000 + n * 0x1000 + off) % 0x1000 = off := by omega

/-- The place of an address of a page. -/
theorem regPlace_page (p : Page) (off : Nat) (h : off < 0x1000) : regPlace (pageBase p + off) = some (p, off) := by
  unfold pageBase
  refine regPlace_of _ _ _ (page_range _ _ (page_num_lt p) h) ?_ (page_offset _ _ h)
  rw [page_index _ _ h]
  exact page_of_num p

theorem decodeAddr_reg (a : Nat) (h : 0x40000000 ≤ a) (p : Page) (off : Nat) (e : regPlace a = some (p, off)) :
    decodeAddr a = some (.reg p off) := by
  have hf : ∀ lo hi : Nat, hi ≤ 0x40000000 → (decide (lo ≤ a) && decide (a < hi)) = false := by
    intro lo hi hh
    simp only [Bool.and_eq_false_iff, decide_eq_false_iff_not]
    right; omega
  unfold decodeAddr
  rw [if_neg (by omega), hf _ _ (by omega), hf _ _ (by omega), hf _ _ (by omega), hf _ _ (by omega), hf _ _ (by omega),
    hf _ _ (by omega), hf _ _ (by omega), hf _ _ (by omega)]
  simp only [e, Bool.false_eq_true, if_false]

theorem decodeAddr_page (p : Page) (off : Nat) (h : off < 0x1000) : decodeAddr (pageBase p + off) = some (.reg p off) :=
  decodeAddr_reg _ (by unfold pageBase; omega) p off (regPlace_page p off h)

variable (d : Dev)

/-- An open page lets a requester through. -/
theorem Dev.reachGate_open {r : Requester} {p : Page} (h : d.opens r p = true) (off a : Nat) (w : Bool) :
    d.reachGate r (.reg p off) a w = (.go, d) := by
  simp only [Dev.opens, Bool.and_eq_true, Bool.not_eq_true', bne_iff_ne] at h
  obtain ⟨⟨⟨⟨h0, h1⟩, h2⟩, h3⟩, h4⟩ := h
  have hr : reach r (.reg p off) w = .ok () := by simp [reach, h1, h2]
  simp [Dev.reachGate, h0, hr, Dev.domGate, Target.dom, h3, h4]

theorem aligned_page (p : Page) (off : Nat) (h : off % 4 = 0) : aligned (pageBase p + off) .word = true := by
  simp only [aligned, Size.bytes, pageBase, beq_iff_eq]; omega

/-- R12, R26: a write to a page that is open for it reaches the register. -/
theorem Dev.cmdWrite_open {r : Requester} {p : Page} {a : Nat} (off v : Nat) (h : d.writable r p = true)
    (ha : a = pageBase p + off) (ho : off < 0x1000) (h4 : off % 4 = 0)
    (hw : r.legal = true ∨ (fieldsAt p off).any (·.ty == .rwo) = false) :
    d.cmdWrite r a v .word = (d.regWrite r p off v).answer .done := by
  subst ha
  simp only [Dev.writable, Bool.and_eq_true, Bool.or_eq_true, bne_iff_ne] at h
  have hl : (!r.legal && p.owner == .legal) = false := by
    rcases h.2 with h | h <;> simp [h]
  have hr : (!r.legal && (fieldsAt p off).any (·.ty == .rwo)) = false := by
    rcases hw with h | h <;> simp [h]
  unfold Dev.cmdWrite
  rw [if_pos (aligned_page p off h4)]
  simp [Dev.busWrite, decodeAddr_page p off ho, d.reachGate_open h.1, Dev.pageAccessWrite, h4, hl, hr, Resp.written]

/-- R26, R231: a write of the application side to a page of the legal side changes nothing but the record. -/
theorem Dev.cmdWrite_app {r : Requester} {p : Page} {a : Nat} (off v : Nat) (h : d.opens r p = true)
    (hr : r.legal = false) (hp : p.owner = .legal) (ha : a = pageBase p + off) (ho : off < 0x1000) (h4 : off % 4 = 0) :
    d.cmdWrite r a v .word = (d.violation r 1 a true).answer .done := by
  subst ha
  unfold Dev.cmdWrite
  rw [if_pos (aligned_page p off h4)]
  simp [Dev.busWrite, decodeAddr_page p off ho, d.reachGate_open h, Dev.pageAccessWrite, h4, hr, hp, Resp.written]

/-- A read of a page that is open reaches the register. -/
theorem Dev.cmdRead_open {r : Requester} {p : Page} {a : Nat} (off : Nat) (h : d.opens r p = true)
    (ha : a = pageBase p + off) (ho : off < 0x1000) (h4 : off % 4 = 0) (hc : r.legal = true ∨ p ≠ .crypto) :
    d.cmdRead r a = (d.regRead r p off).2.answer (.data (BitVec.ofNat 32 (d.regRead r p off).1)) := by
  subst ha
  have hcr : (p == .crypto && !r.legal) = false := by
    rcases hc with h | h <;> simp [h]
  unfold Dev.cmdRead
  rw [if_pos (aligned_page p off h4)]
  have hk : (pageBase p + off) % 4 = 0 := by simp only [pageBase]; omega
  have hb : ∀ x : Nat, BitVec.ofNat 32 (pick .word (pageBase p + off) x) = BitVec.ofNat 32 x := by
    intro x
    simp [pick, hk, bits, Size.bytes, BitVec.ofNat, Fin.ofNat]
  simp [Dev.busRead, decodeAddr_page p off ho, d.reachGate_open h, Dev.pageAccessRead, h4, hcr, Resp.bus, hb]

/-- A write with an effect of its own, to a page that is open for it. -/
theorem Dev.regGate_open {r : Requester} {p : Page} {a : Nat} (off : Nat) (k : Dev → Dev) (h : d.writable r p = true)
    (ha : a = pageBase p + off) (ho : off < 0x1000)
    (hw : r.legal = true ∨ (fieldsAt p off).any (·.ty == .rwo) = false) :
    d.regGate r a k = (k d).answer .done := by
  subst ha
  simp only [Dev.writable, Bool.and_eq_true, Bool.or_eq_true, bne_iff_ne] at h
  have hl : (!r.legal && p.owner == .legal) = false := by
    rcases h.2 with h | h <;> simp [h]
  have hr : (!r.legal && (fieldsAt p off).any (·.ty == .rwo)) = false := by
    rcases hw with h | h <;> simp [h]
  simp [Dev.regGate, decodeAddr_page p off ho, d.reachGate_open h.1, hl, hr]

/-- A domain that is off ends an access in a bus error (R21). -/
theorem Dev.cmdWrite_off {r : Requester} {p : Page} {a : Nat} (off v : Nat) (hu : r ≠ .uart) (hd : r ≠ .hostDma)
    (h : d.reaches p.dom = false) (ha : a = pageBase p + off) (ho : off < 0x1000) (h4 : off % 4 = 0) :
    d.cmdWrite r a v .word = d.answer .error := by
  subst ha
  have hr : reach r (.reg p off) true = .ok () := by simp [reach, hu, hd]
  unfold Dev.cmdWrite
  rw [if_pos (aligned_page p off h4)]
  simp [Dev.busWrite, decodeAddr_page p off ho, Dev.reachGate, hr, Dev.domGate, Target.dom, h, Resp.written]

end Sys2Proof.Machine
end

