-- ==== Sys2Proof/Laws/Bytes.lean ====
section
/-! SUPPORT. Byte lists: little-endian numbers, runs of stored values, the CRC. -/

namespace Sys2Proof

variable {α : Type}

/-! ### Runs of values in a sparse map -/

@[simp] theorem SMap.getMany_length (d : Nat → α) (m : SMap α) : ∀ k n : Nat, (SMap.getMany d m k n).length = n
  | _, 0 => rfl
  | k, n + 1 => by simp [SMap.getMany, SMap.getMany_length d m (k + 1) n]

theorem SMap.getMany_getElem? (d : Nat → α) (m : SMap α) : ∀ (n k i : Nat), i < n → (SMap.getMany d m k n)[i]? = some (m.get d (k + i))
  | n + 1, k, 0, _ => by simp [SMap.getMany]
  | n + 1, k, i + 1, h => by
    simp only [SMap.getMany, List.getElem?_cons_succ]
    rw [SMap.getMany_getElem? d m n (k + 1) i (by omega)]
    congr 2; omega

/-- A run is told by its single values. -/
theorem SMap.getMany_ext (d : Nat → α) (m : SMap α) (k : Nat) (vs : List α)
    (h : ∀ i (hi : i < vs.length), m.get d (k + i) = vs[i]) : SMap.getMany d m k vs.length = vs := by
  apply List.ext_getElem? fun i => ?_
  by_cases hi : i < vs.length
  · rw [SMap.getMany_getElem? d m _ _ _ hi, List.getElem?_eq_getElem hi, h i hi]
  · rw [List.getElem?_eq_none (by simp; omega), List.getElem?_eq_none (by omega)]

/-- Two maps that agree over a run have the same run. -/
theorem SMap.getMany_congr (d e : Nat → α) (m m' : SMap α) : ∀ (n k : Nat),
    (∀ i < n, m.get d (k + i) = m'.get e (k + i)) → SMap.getMany d m k n = SMap.getMany e m' k n
  | 0, _, _ => rfl
  | n + 1, k, h => by
    rw [SMap.getMany, SMap.getMany, show m.get d k = m'.get e k from h 0 (by omega), SMap.getMany_congr d e m m' n (k + 1) fun i hi => ?_]
    have := h (i + 1) (by omega)
    rwa [show k + 1 + i = k + (i + 1) by omega]

/-- A run of one value. -/
theorem SMap.getMany_eq_replicate (d : Nat → α) (m : SMap α) (v : α) : ∀ (n k : Nat),
    (∀ i < n, m.get d (k + i) = v) → SMap.getMany d m k n = List.replicate n v
  | 0, _, _ => rfl
  | n + 1, k, h => by
    rw [SMap.getMany, show m.get d k = v from h 0 (by omega), List.replicate_succ, SMap.getMany_eq_replicate d m v n (k + 1) fun i hi => ?_]
    have := h (i + 1) (by omega)
    rwa [show k + 1 + i = k + (i + 1) by omega]

theorem SMap.getMany_take (d : Nat → α) (m : SMap α) (k n j : Nat) (h : j ≤ n) :
    (SMap.getMany d m k n).take j = SMap.getMany d m k j := by
  apply List.ext_getElem? fun i => ?_
  by_cases hi : i < j
  · rw [List.getElem?_take_of_lt hi, SMap.getMany_getElem? d m _ _ _ (by omega), SMap.getMany_getElem? d m _ _ _ hi]
  · rw [List.getElem?_eq_none (by simp; omega), List.getElem?_eq_none (by simp; omega)]

theorem SMap.getMany_drop (d : Nat → α) (m : SMap α) (k n j : Nat) (h : j ≤ n) :
    (SMap.getMany d m k n).drop j = SMap.getMany d m (k + j) (n - j) := by
  apply List.ext_getElem? fun i => ?_
  rw [List.getElem?_drop]
  by_cases hi : j + i < n
  · rw [SMap.getMany_getElem? d m _ _ _ hi, SMap.getMany_getElem? d m _ _ _ (by omega)]
    congr 2; omega
  · rw [List.getElem?_eq_none (by simp; omega), List.getElem?_eq_none (by simp; omega)]

variable [DecidableEq α]

/-- A read after the write of a run. -/
theorem SMap.get_setMany (d : Nat → α) : ∀ (vs : List α) (m : SMap α) (k j : Nat),
    (SMap.setMany d m k vs).get d j = if k ≤ j then (vs[j - k]?).getD (m.get d j) else m.get d j
  | [], m, k, j => by simp [SMap.setMany]
  | v :: vs, m, k, j => by
    rw [SMap.setMany, SMap.get_setMany d vs, SMap.get_set]
    by_cases h : k ≤ j
    · rw [if_pos h]
      by_cases hj : j = k
      · subst hj
        simp
      · rw [if_pos (by omega), if_neg hj, show j - k = (j - (k + 1)) + 1 by omega, List.getElem?_cons_succ]
    · rw [if_neg h, if_neg (by omega), if_neg (by omega)]

theorem SMap.getMany_setMany_same (d : Nat → α) (m : SMap α) (k : Nat) (vs : List α) :
    SMap.getMany d (SMap.setMany d m k vs) k vs.length = vs :=
  SMap.getMany_ext d _ k vs fun i hi => by simp [SMap.get_setMany, hi]

theorem SMap.getMany_setMany_disjoint (d : Nat → α) (m : SMap α) (k j n : Nat) (vs : List α)
    (h : j + n ≤ k ∨ k + vs.length ≤ j) : SMap.getMany d (SMap.setMany d m k vs) j n = SMap.getMany d m j n :=
  SMap.getMany_congr d d _ _ n j fun i hi => by
    rw [SMap.get_setMany]
    split
    · rw [List.getElem?_eq_none (by omega)]; rfl
    · rfl

theorem SMap.getMany_setMany_inside (d : Nat → α) (m : SMap α) (k i n : Nat) (vs : List α) (h : i + n ≤ vs.length) :
    SMap.getMany d (SMap.setMany d m k vs) (k + i) n = (vs.drop i).take n := by
  have e := SMap.getMany_drop d (SMap.setMany d m k vs) k vs.length i (by omega)
  rw [SMap.getMany_setMany_same] at e
  rw [e, SMap.getMany_take _ _ _ _ _ (by omega)]

/-! ### The canonical form of maps put together -/

theorem SMap.wfFrom_append (d : Nat → α) (mid : Nat) {m' : SMap α} (h' : SMap.wfFrom d mid m') :
    ∀ (m : SMap α) (lo : Nat), SMap.wfFrom d lo m → (∀ p ∈ m, p.1 < mid) → lo ≤ mid → SMap.wfFrom d lo (m ++ m')
  | [], lo, _, _, hl => SMap.wfFrom_mono d hl m' h'
  | (a, v) :: t, lo, hw, hm, _ => by
    simp only [SMap.wfFrom, Bool.and_eq_true, List.cons_append] at hw ⊢
    exact ⟨hw.1, SMap.wfFrom_append d mid h' t (a + 1) hw.2 (fun p hp => hm p (List.mem_cons_of_mem _ hp))
      (hm (a, v) (by simp))⟩

/-- From a lower bound that every key meets. -/
theorem SMap.wfFrom_of_le (d : Nat → α) {mid : Nat} : ∀ {m : SMap α} {lo : Nat}, SMap.wfFrom d lo m → (∀ p ∈ m, mid ≤ p.1) →
    SMap.wfFrom d mid m
  | [], _, _, _ => rfl
  | (a, v) :: t, lo, hw, hm => by
    simp only [SMap.wfFrom, Bool.and_eq_true, decide_eq_true_eq] at hw ⊢
    exact ⟨⟨hm (a, v) (by simp), hw.1.2⟩, hw.2⟩

/-- A map listed from a function over rising keys. -/
theorem SMap.wfFrom_filterMap (d : Nat → α) (g : Nat → Option (Nat × α)) (base : Nat)
    (hg : ∀ i p, g i = some p → p.1 = base + i ∧ p.2 ≠ d p.1) : ∀ n lo : Nat,
    SMap.wfFrom d (base + lo) ((List.range' lo n).filterMap g)
  | 0, _ => rfl
  | n + 1, lo => by
    rw [List.range'_succ]
    have ih := SMap.wfFrom_filterMap d g base hg n (lo + 1)
    cases e : g lo with
    | none => rw [List.filterMap_cons_none e]; exact SMap.wfFrom_mono d (by omega) _ ih
    | some p =>
      rw [List.filterMap_cons_some e]
      obtain ⟨h1, h2⟩ := hg lo p e
      obtain ⟨a, v⟩ := p
      subst h1
      simp only [SMap.wfFrom, Bool.and_eq_true, decide_eq_true_eq, bne_iff_ne]
      exact ⟨⟨le_refl _, h2⟩, ih⟩

namespace Machine

/-! ### Numbers as bytes (R17) -/

@[simp] theorem leBytes_length : ∀ n x : Nat, (leBytes n x).length = n
  | 0, _ => rfl
  | n + 1, x => by simp [leBytes, leBytes_length n]

theorem leNat_leBytes : ∀ n x : Nat, leNat (leBytes n x) = x % 256 ^ n
  | 0, x => by simp [leBytes, leNat, Nat.mod_one]
  | n + 1, x => by
    rw [leBytes, leNat, leNat_leBytes n, BitVec.toNat_ofNat, pow_succ 256 n, mul_comm (256 ^ n) 256, Nat.mod_mul]

theorem leNat_lt : ∀ bs : List Byte, leNat bs < 256 ^ bs.length
  | [] => by simp [leNat]
  | b :: bs => by
    have h := leNat_lt bs
    have hb := b.isLt
    rw [leNat, List.length_cons, pow_succ]
    omega

theorem leNat_append (xs ys : List Byte) : leNat (xs ++ ys) = leNat xs + 256 ^ xs.length * leNat ys := by
  induction xs with
  | nil => simp [leNat]
  | cons b xs ih => rw [List.cons_append, leNat, leNat, ih, List.length_cons, pow_succ]; ring

/-! ### CRC-32 (R202) -/

theorem crcRun_append (c : Nat) (xs ys : List Byte) : crcRun c (xs ++ ys) = crcRun (crcRun c xs) ys := List.foldl_append ..

theorem crcBits_lt : ∀ (n c : Nat), c < 2 ^ 32 → crcBits n c < 2 ^ 32
  | 0, _, h => h
  | n + 1, c, h => by
    rw [crcBits]
    refine crcBits_lt n _ ?_
    split
    · exact Nat.xor_lt_two_pow (by omega) (by norm_num)
    · omega

theorem crcRun_lt : ∀ (bs : List Byte) (c : Nat), c < 2 ^ 32 → crcRun c bs < 2 ^ 32
  | [], _, h => h
  | b :: bs, c, h => by
    have hb : b.toNat < 2 ^ 32 := lt_of_lt_of_le b.isLt (by norm_num)
    exact crcRun_lt bs _ (crcBits_lt 8 _ (Nat.xor_lt_two_pow h hb))

theorem crc32_lt (bs : List Byte) : crc32 bs < 2 ^ 32 :=
  Nat.xor_lt_two_pow (crcRun_lt bs _ (by norm_num)) (by norm_num)

/-- A CRC read back from its four bytes. -/
theorem leNat_crc (bs : List Byte) : leNat (leBytes 4 (crc32 bs)) = crc32 bs := by
  rw [leNat_leBytes, Nat.mod_eq_of_lt]
  exact lt_of_lt_of_le (crc32_lt bs) (by norm_num)

end Machine

end Sys2Proof
end

