-- ==== Sys2Proof/Laws/Mem.lean ====
section
/-! SUPPORT. The memories: every operation that writes one keeps its canonical form, and what is read after a write. -/

namespace Sys2Proof.Machine

variable (d : Dev)

/-! ### The canonical form -/

theorem Mem.wf_iff (m : Mem) : m.wf = true ↔ SMap.wf (sramDflt m.undef) m.sram = true ∧ SMap.wf flashDflt m.lfl = true
    ∧ SMap.wf flashDflt m.afl = true ∧ SMap.wf framDflt m.fram = true := by
  simp [Mem.wf, and_assoc]

/-- Reset leaves every memory in canonical form. -/
theorem Mem.wf_reset : State.reset.dev.mem.wf = true := by decide

theorem Dev.putCode_wf (b w : Nat) (c : Codeword) (h : d.mem.wf = true) : (d.putCode b w c).mem.wf = true := by
  rw [Mem.wf_iff] at h ⊢
  exact ⟨SMap.wf_set _ _ _ h.1, h.2⟩

theorem sramDflt_ext {u u' : List (Nat × Nat)} {k : Nat} (h : u.lookup (k / 8192) = u'.lookup (k / 8192)) :
    sramDflt u k = sramDflt u' k := by
  simp [sramDflt, h]

/-- A canonical map is canonical for any other default that agrees at its keys. -/
theorem wfFrom_dflt {α : Type} [DecidableEq α] (f g : Nat → α) : ∀ (m : SMap α) (lo : Nat), (∀ p ∈ m, f p.1 = g p.1) →
    SMap.wfFrom f lo m → SMap.wfFrom g lo m
  | [], _, _, _ => rfl
  | (a, v) :: t, lo, h, hw => by
    simp only [SMap.wfFrom, Bool.and_eq_true] at hw ⊢
    refine ⟨⟨hw.1.1, ?_⟩, wfFrom_dflt f g t _ (fun p hp => h p (List.mem_cons_of_mem _ hp)) hw.2⟩
    rw [← h (a, v) (by simp)]
    exact hw.1.2

theorem lookup_filter {l : List (Nat × Nat)} {q : Nat × Nat → Bool} {k : Nat} (h : ∀ p ∈ l, p.1 = k → q p = true) :
    (l.filter q).lookup k = l.lookup k := by
  induction l with
  | nil => rfl
  | cons p l ih =>
    obtain ⟨x, g⟩ := p
    have ih := ih fun p hp => h p (List.mem_cons_of_mem _ hp)
    by_cases hx : x = k
    · rw [List.filter_cons_of_pos (h _ (by simp) hx)]
      simp [List.lookup, hx]
    · rw [List.filter_cons]
      have hk : (k == x) = false := by simpa using Ne.symm hx
      split <;> simp [List.lookup, hk, ih]

theorem lookup_append_map {l : List (Nat × Nat)} {bs : List Nat} {g k : Nat} (h : k ∉ bs) :
    (l ++ bs.map fun b => (b, g)).lookup k = l.lookup k := by
  rw [List.lookup_append]
  have : (bs.map fun b => (b, g)).lookup k = none := by
    induction bs with
    | nil => rfl
    | cons b bs ih =>
      simp only [List.mem_cons, not_or] at h
      have hk : (k == b) = false := by simpa using h.1
      simp [List.lookup, hk, ih h.2]
  simp [this]

theorem mem_clearBanks : ∀ (bs : List Nat) (m : SMap Stored) (p : Nat × Stored),
    p ∈ bs.foldl (fun m b => SMap.clear m (b * 8192) (b * 8192 + 8192)) m ↔ p ∈ m ∧ p.1 / 8192 ∉ bs
  | [], m, p => by simp
  | b :: bs, m, p => by
    rw [List.foldl_cons, mem_clearBanks bs]
    simp only [SMap.clear, List.mem_filter, Bool.or_eq_true, decide_eq_true_eq, List.mem_cons, not_or]
    constructor
    · rintro ⟨⟨h, h1⟩, h2⟩
      exact ⟨h, ⟨by omega, h2⟩⟩
    · rintro ⟨h, h1, h2⟩
      exact ⟨⟨h, by omega⟩, h2⟩

theorem wf_clearBanks (f : Nat → Stored) : ∀ (bs : List Nat) (m : SMap Stored), SMap.wf f m →
    SMap.wf f (bs.foldl (fun m b => SMap.clear m (b * 8192) (b * 8192 + 8192)) m)
  | [], _, h => h
  | _ :: bs, _, h => wf_clearBanks f bs _ (SMap.wf_clear f _ _ h)

theorem Dev.loseBanks_wf (bs : List Nat) (h : d.mem.wf = true) : (d.loseBanks bs).mem.wf = true := by
  rw [Mem.wf_iff] at h ⊢
  refine ⟨?_, h.2⟩
  refine wfFrom_dflt (sramDflt d.mem.undef) _ _ 0 (fun p hp => ?_) (wf_clearBanks _ bs _ h.1)
  have hb := ((mem_clearBanks bs _ p).1 hp).2
  refine sramDflt_ext ?_
  show _ = (d.mem.undef.filter (fun p => !bs.contains p.1) ++ bs.map fun b => (b, d.free)).lookup _
  rw [lookup_append_map hb, lookup_filter fun q _ hq => by simpa [hq] using hb]

theorem Dev.clearBanks_wf (h : d.mem.wf = true) : d.clearBanks.mem.wf = true := by
  rw [Mem.wf_iff] at h ⊢
  refine ⟨?_, h.2⟩
  refine wfFrom_dflt (sramDflt d.mem.undef) _ _ 0 (fun p hp => ?_) (SMap.wf_clear _ _ _ h.1)
  have hk : 22 * 8192 ≤ p.1 := by
    simp only [Dev.clearBanks, SMap.clear, List.mem_filter, Bool.or_eq_true, decide_eq_true_eq] at hp
    omega
  refine sramDflt_ext (lookup_filter fun q _ hq => ?_).symm
  simp only [hq, decide_eq_true_eq]
  omega

theorem Dev.framWr_wf (a : Nat) (bs : List Byte) (h : d.mem.wf = true) : (d.framWr a bs).mem.wf = true := by
  rw [Mem.wf_iff] at h ⊢
  exact ⟨h.1, h.2.1, h.2.2.1, SMap.wf_setMany _ bs a h.2.2.2⟩

theorem Dev.flashApply_wf (m : SMap Byte) (o : FlashOp) (size : Nat) (ok : Bool) (h : SMap.wf flashDflt m = true) :
    SMap.wf flashDflt (d.flashApply m o size ok).1 = true := by
  cases o with
  | prog p bs =>
    cases ok
    · simp only [Dev.flashApply, Bool.false_eq_true, if_false]
      generalize d.freshBytes 256 = q
      exact SMap.wf_setMany _ _ _ h
    · exact SMap.wf_setMany _ _ _ h
  | eraseSector p => exact SMap.wf_clear _ _ _ h
  | eraseAll => exact SMap.wf_clear _ _ _ h

theorem sectorWrite_wf (m : SMap Byte) (n : Nat) (bs : List Byte) (h : SMap.wf flashDflt m = true) :
    SMap.wf flashDflt (sectorWrite m n bs) = true := SMap.wf_setMany _ _ _ (SMap.wf_clear _ _ _ h)

theorem blankCopies_wf : SMap.wfFrom framDflt 0x10000 blankCopies = true := by
  rw [blankCopies, List.range_eq_range']
  refine SMap.wfFrom_filterMap framDflt _ 0x10000 (fun i p h => ?_) 0x80000 0
  simp only at h
  split at h
  · cases h
  · rename_i hb
    cases h
    exact ⟨rfl, hb⟩

theorem mem_blankCopies {p : Nat × Byte} (h : p ∈ blankCopies) : p.1 < 0x90000 := by
  simp only [blankCopies, List.mem_filterMap, List.mem_range] at h
  obtain ⟨i, hi, h⟩ := h
  split at h
  · cases h
  · cases h
    show 0x10000 + i < 0x90000
    omega

/-- R227: the FRAM with the blank copies put in the place of all copies. -/
theorem formatted_wf (m : SMap Byte) (h : SMap.wf framDflt m = true) :
    SMap.wf framDflt (m.filter (fun p => p.1 < 0x10000) ++ blankCopies ++ m.filter (fun p => 0x90000 ≤ p.1)) = true := by
  have high : SMap.wfFrom framDflt 0x90000 (m.filter fun p => 0x90000 ≤ p.1) = true :=
    SMap.wfFrom_of_le framDflt (SMap.wf_filter framDflt _ h) fun p hp => by
      simpa using (List.mem_filter.1 hp).2
  rw [List.append_assoc]
  refine SMap.wfFrom_append framDflt 0x10000 ?_ _ 0 (SMap.wf_filter framDflt _ h) (fun p hp => ?_) (by omega)
  · exact SMap.wfFrom_append framDflt 0x90000 high _ _ blankCopies_wf (fun p hp => mem_blankCopies hp) (by omega)
  · simpa using (List.mem_filter.1 hp).2

/-! ### Reads after writes -/

/-- R186: the codeword a word holds after a store. -/
theorem Dev.codeword_putCode (b w : Nat) (c : Codeword) (b' w' : Nat) (h : w < 8192) (h' : w' < 8192) :
    (d.putCode b w c).codeword b' w' = if b' = b ∧ w' = w then c else d.codeword b' w' := by
  simp only [Dev.codeword, Dev.putCode, SMap.get_set, sramKey]
  by_cases e : b' = b ∧ w' = w
  · rw [if_pos (by omega), if_pos e]
  · rw [if_neg (by omega), if_neg e]

@[simp] theorem Dev.rd_putCode (b w : Nat) (c : Codeword) (a : Nat) : (d.putCode b w c).rd a = d.rd a := rfl
@[simp] theorem Dev.rd_framWr (a : Nat) (bs : List Byte) (b : Nat) : (d.framWr a bs).rd b = d.rd b := rfl
@[simp] theorem Dev.f_framWr (a : Nat) (bs : List Byte) (g : Field) : (d.framWr a bs).f g = d.f g := rfl
@[simp] theorem Dev.framRd_wr (a v b n : Nat) : (d.wr a v).framRd b n = d.framRd b n := rfl
@[simp] theorem Dev.framRd_setF (g : Field) (v b n : Nat) : (d.setF g v).framRd b n = d.framRd b n := rfl
@[simp] theorem Dev.framRd_raise (e b n : Nat) : (d.raise e).framRd b n = d.framRd b n := rfl
@[simp] theorem Dev.framRd_putCode (b w : Nat) (c : Codeword) (a n : Nat) : (d.putCode b w c).framRd a n = d.framRd a n := rfl

theorem Dev.framRd_framWr_same (a : Nat) (bs : List Byte) : (d.framWr a bs).framRd a bs.length = bs :=
  SMap.getMany_setMany_same _ _ _ _

theorem Dev.framRd_framWr_disjoint (a b n : Nat) (bs : List Byte) (h : b + n ≤ a ∨ a + bs.length ≤ b) :
    (d.framWr a bs).framRd b n = d.framRd b n := SMap.getMany_setMany_disjoint _ _ _ _ _ _ h

theorem Dev.framRd_framWr_inside (a i n : Nat) (bs : List Byte) (h : i + n ≤ bs.length) :
    (d.framWr a bs).framRd (a + i) n = (bs.drop i).take n := SMap.getMany_setMany_inside _ _ _ _ _ _ h

/-! ### Contexts and slots -/

theorem stamped_length (bs : List Byte) (tag cnt : Nat) (h : 248 ≤ bs.length) : (stamped bs tag cnt).length = 256 := by
  simp [stamped]
  omega

/-- R203, R206: a context that MULE has stamped passes its checks. -/
theorem contextGood_stamped (bs : List Byte) (tag cnt n : Nat) (h : 248 ≤ bs.length) (hn : leNat (bs.take 2) = n)
    (hf : leNat ((bs.drop 2).take 1) = 1) : contextGood (stamped bs tag cnt) n = true := by
  have hl : (bs.take 4 ++ leBytes 4 tag ++ (bs.drop 8).take 240 ++ leBytes 4 cnt).length = 252 := by
    simp
    omega
  have e2 : (bs.take 4 ++ leBytes 4 tag ++ (bs.drop 8).take 240 ++ leBytes 4 cnt).take 2 = bs.take 2 := by
    rw [List.append_assoc, List.append_assoc, List.take_append_of_le_length (by simp; omega), List.take_take]
    rfl
  have e3 : ((bs.take 4 ++ leBytes 4 tag ++ (bs.drop 8).take 240 ++ leBytes 4 cnt).drop 2).take 1 = (bs.drop 2).take 1 := by
    rw [List.append_assoc, List.append_assoc, List.drop_append_of_le_length (by simp; omega),
      List.take_append_of_le_length (by simp; omega), List.drop_take, List.take_take]
    rfl
  unfold contextGood stamped
  generalize hb : bs.take 4 ++ leBytes 4 tag ++ (bs.drop 8).take 240 ++ leBytes 4 cnt = body at hl e2 e3 ⊢
  rw [List.drop_left' hl, List.take_left' hl, leNat_crc, List.take_append_of_le_length (by omega),
    List.drop_append_of_le_length (by omega), List.take_append_of_le_length (by simp; omega), e2, e3, hn, hf]
  simp

theorem padTo_length (n : Nat) (bs : List Byte) : (padTo n bs).length = n := by
  simp [padTo]
  omega

theorem slotHeader_length (e state cause cyc cycHi nctx : Nat) (time : List Byte) (c : Nat) :
    (slotHeader e state cause cyc cycHi nctx time c).length = 64 := by
  simp [slotHeader, padTo_length]

/-- R216: what the 60 bytes of a slot header before its check hold. -/
theorem padTo_append (n : Nat) (bs : List Byte) (h : bs.length ≤ n) : padTo n bs = bs ++ List.replicate (n - bs.length) 0 := by
  rw [padTo, List.take_of_length_le]
  simp
  omega

/-- R225: a slot whose header is the one of state COMMITTED over its image is committed with its epoch. -/
theorem Dev.committed_header {a e cause cyc cycHi nctx : Nat} {time : List Byte} (he : e < 2 ^ 32)
    (hh : d.framRd a 64 = slotHeader e 2 cause cyc cycHi nctx time (crc32 (d.framRd (a + 0x200) 0xE00))) :
    d.committed a = some e := by
  have hc := crc32_lt (d.framRd (a + 0x200) 0xE00)
  generalize hx : crc32 (d.framRd (a + 0x200) 0xE00) = x at hh hc
  unfold Dev.committed
  rw [hh, hx]
  unfold slotHeader
  simp only
  rw [padTo_append 60 _ (by simp [slotMagic, padTo_length])]
  generalize hp : padTo 8 time = t
  have ht : t.length = 8 := hp ▸ padTo_length 8 time
  generalize hu : leBytes 2 cause ++ leBytes 4 cyc ++ leBytes 2 cycHi ++ leBytes 2 nctx ++ t = u
  have hul : u.length = 18 := by simp [← hu, ht]
  have e0 : slotMagic ++ leBytes 4 e ++ leBytes 1 2 ++ leBytes 1 1 ++ leBytes 2 cause ++ leBytes 4 cyc
      ++ leBytes 2 cycHi ++ leBytes 2 nctx ++ t ++ leBytes 4 x
      = slotMagic ++ (leBytes 4 e ++ ([2, 1] ++ (u ++ leBytes 4 x))) := by
    simp [← hu, List.append_assoc, leBytes]
  rw [e0]
  generalize hz : List.replicate (60 - (slotMagic ++ (leBytes 4 e ++ ([2, 1] ++ (u ++ leBytes 4 x)))).length) (0 : Byte) = z
  have hzl : z.length = 28 := by simp [← hz, slotMagic, hul]
  generalize hb : slotMagic ++ (leBytes 4 e ++ ([2, 1] ++ (u ++ leBytes 4 x))) ++ z = b
  have hbl : b.length = 60 := by simp [← hb, slotMagic, hul, hzl]
  have h1 : b.take 4 = slotMagic := by
    rw [← hb, List.append_assoc]
    exact List.take_left' (show slotMagic.length = 4 from rfl)
  have h2 : b.drop 4 = leBytes 4 e ++ ([2, 1] ++ ((u ++ leBytes 4 x) ++ z)) := by
    rw [← hb, List.append_assoc, List.drop_left' (show slotMagic.length = 4 from rfl), List.append_assoc, List.append_assoc]
  have h3 : b.drop 8 = [2, 1] ++ ((u ++ leBytes 4 x) ++ z) := by
    have e4 := List.drop_drop (i := 4) (j := 4) (l := b)
    rw [h2, List.drop_left' (leBytes_length 4 e)] at e4
    exact e4.symm
  have h4 : b.drop 28 = leBytes 4 x ++ z := by
    have e20 := List.drop_drop (i := 20) (j := 8) (l := b)
    rw [h3, List.append_assoc, ← List.append_assoc, List.drop_left' (show ([2, 1] ++ u).length = 20 by simp [hul])] at e20
    exact e20.symm
  rw [List.drop_left' hbl, List.take_left' hbl, leNat_crc, List.take_append_of_le_length (by omega), h1,
    List.drop_append_of_le_length (by omega), List.drop_append_of_le_length (by omega),
    List.drop_append_of_le_length (by omega), h2, h3, h4]
  rw [List.append_assoc _ _ (leBytes 4 (crc32 b)), List.append_assoc (leBytes 4 x), List.append_assoc (leBytes 4 e),
    List.take_left' (leBytes_length 4 x), List.take_left' (leBytes_length 4 e), leNat_leBytes, leNat_leBytes,
    Nat.mod_eq_of_lt (by simpa using hc), Nat.mod_eq_of_lt (by simpa using he)]
  simp [leNat]

/-- R220: the image and the header that a commit writes make a committed slot. -/
theorem Dev.committed_written {a e cause cyc cycHi nctx : Nat} {time img : List Byte} (he : e < 2 ^ 32) (hi : img.length = 0xE00) :
    ((d.framWr (a + 0x200) img).framWr a (slotHeader e 2 cause cyc cycHi nctx time (crc32 img))).committed a = some e := by
  refine Dev.committed_header _ he (?_ : _ = slotHeader e 2 cause cyc cycHi nctx time _)
  have h1 := Dev.framRd_framWr_same (d.framWr (a + 0x200) img) a (slotHeader e 2 cause cyc cycHi nctx time (crc32 img))
  rw [slotHeader_length] at h1
  have h2 := Dev.framRd_framWr_same d (a + 0x200) img
  rw [hi] at h2
  rw [h1, Dev.framRd_framWr_disjoint _ _ _ _ _ (by rw [slotHeader_length]; omega), h2]

/-- A slot is judged by its header and its image alone. -/
theorem Dev.committed_congr {d e : Dev} {a : Nat} (h : e.framRd a 64 = d.framRd a 64)
    (hi : e.framRd (a + 0x200) 0xE00 = d.framRd (a + 0x200) 0xE00) : e.committed a = d.committed a := by
  unfold Dev.committed
  rw [h, hi]

/-- R215: the device header that a format writes is good. -/
theorem Dev.headerGood_written {h : List Byte} (hl : h.length = 252) (hm : h.take 4 = headMagic)
    (hf : leNat ((h.drop 4).take 1) = 1) : (d.framWr 0 (h ++ leBytes 4 (crc32 h))).headerGood = true := by
  have e := Dev.framRd_framWr_same d 0 (h ++ leBytes 4 (crc32 h))
  rw [show (h ++ leBytes 4 (crc32 h)).length = 256 by simp [hl]] at e
  unfold Dev.headerGood
  simp only
  rw [e, List.drop_left' hl, List.take_left' hl, leNat_crc, List.take_append_of_le_length (by omega),
    List.drop_append_of_le_length (by omega), List.take_append_of_le_length (by simp; omega), hm, hf]
  simp

/-- R216: a map of zeros names no account. -/
theorem mapAccts_zero (n : Nat) : mapAccts (List.replicate n 0) = [] := by
  rw [mapAccts, List.filter_eq_nil_iff]
  intro a _
  by_cases h : a / 8 < n <;> simp [h, bit]

end Sys2Proof.Machine
end

