-- ==== Sys2Proof/Laws/Run.lean ====
section
/-! SUPPORT. From a command's own effect to its next state. -/

namespace Sys2Proof.Machine

variable {s : State} {f : Dev → Dev} {P : Dev → Prop}

/-- The form of every command. -/
theorem State.run_eq (s : State) (f : Dev → Dev) :
    s.run f = .next { s with dev := (f (s.dev.answer .none)).finish } := rfl

/-- A command whose effect leaves no other work waiting: its next state is what the follow-up work makes of the effect. -/
theorem yields_run {c : Instr} (hx : exec c s = s.run f) (hc : (f (s.dev.answer .none)).calm = true)
    (hP : ∀ e : Dev, (f (s.dev.answer .none)).After e → e = (f (s.dev.answer .none)).finish → P e) :
    Yields c s P :=
  ⟨_, hx.trans (s.run_eq f), rfl, hP _ (Dev.finish_after _ hc) rfl⟩

theorem effects_run {c : Instr} (hx : exec c s = s.run f) (hP : P (f (s.dev.answer .none))) : Effects c s P :=
  ⟨_, hx.trans (s.run_eq f), hP⟩

/-- A command that writes a register of a page that is open for it. -/
theorem yields_write {c : Instr} {r : Requester} {p : Page} {a : Nat} (off v : Nat)
    (hx : exec c s = s.run fun d => d.cmdWrite r a v .word) (hw : s.dev.writable r p = true)
    (ha : a = pageBase p + off) (ho : off < 0x1000) (h4 : off % 4 = 0)
    (hr : r.legal = true ∨ (fieldsAt p off).any (·.ty == .rwo) = false)
    (hc : ((s.dev.answer .none).regWrite r p off v).calm = true)
    (hP : ∀ e : Dev, ((s.dev.answer .none).regWrite r p off v |>.answer .done).After e →
      e = ((s.dev.answer .none).regWrite r p off v |>.answer .done).finish → P e) : Yields c s P := by
  have hy := (s.dev.answer .none).cmdWrite_open (p := p) off v (by exact hw) ha ho h4 hr
  exact yields_run hx (by rw [hy]; exact hc) (by rw [hy]; exact hP)

theorem effects_write {c : Instr} {r : Requester} {p : Page} {a : Nat} (off v : Nat)
    (hx : exec c s = s.run fun d => d.cmdWrite r a v .word) (hw : s.dev.writable r p = true)
    (ha : a = pageBase p + off) (ho : off < 0x1000) (h4 : off % 4 = 0)
    (hr : r.legal = true ∨ (fieldsAt p off).any (·.ty == .rwo) = false)
    (hP : P ((s.dev.answer .none).regWrite r p off v |>.answer .done)) : Effects c s P := by
  have hy := (s.dev.answer .none).cmdWrite_open (p := p) off v (by exact hw) ha ho h4 hr
  exact effects_run hx (by rw [hy]; exact hP)

/-- A command that reads a register of a page that is open for it. -/
theorem yields_read {c : Instr} {r : Requester} {p : Page} {a : Nat} (off : Nat)
    (hx : exec c s = s.run fun d => d.cmdRead r a) (hw : s.dev.opens r p = true)
    (ha : a = pageBase p + off) (ho : off < 0x1000) (h4 : off % 4 = 0) (hr : r.legal = true ∨ p ≠ .crypto)
    (hc : ((s.dev.answer .none).regRead r p off).2.calm = true)
    (hP : ∀ e : Dev, (((s.dev.answer .none).regRead r p off).2.answer
        (.data (BitVec.ofNat 32 ((s.dev.answer .none).regRead r p off).1))).After e → P e) : Yields c s P := by
  have hy := (s.dev.answer .none).cmdRead_open (p := p) off (by exact hw) ha ho h4 hr
  exact yields_run hx (by rw [hy]; exact hc) (by rw [hy]; exact fun e h _ => hP e h)

/-! ### The answer of the last access is no part of what a command finds -/

variable (d : Dev) (b : BusResp)

@[simp] theorem Dev.on_answer (g : Field) : (d.answer b).on g = d.on g := rfl
@[simp] theorem Dev.opens_answer (r : Requester) (p : Page) : (d.answer b).opens r p = d.opens r p := rfl
@[simp] theorem Dev.writable_answer (r : Requester) (p : Page) : (d.answer b).writable r p = d.writable r p := rfl
@[simp] theorem Dev.locked_answer (p : Page) (o : Nat) : (d.answer b).locked p o = d.locked p o := rfl
@[simp] theorem Dev.unsealed_answer : (d.answer b).unsealed = d.unsealed := rfl
@[simp] theorem Dev.domOn_answer (x : Dom) : (d.answer b).domOn x = d.domOn x := rfl
@[simp] theorem Dev.units_answer : (d.answer b).units = d.units := rfl
@[simp] theorem Dev.units_wr (a v : Nat) : (d.wr a v).units = d.units := rfl
@[simp] theorem Dev.units_setF (g : Field) (v : Nat) : (d.setF g v).units = d.units := rfl
@[simp] theorem Dev.units_raise (n : Nat) : (d.raise n).units = d.units := rfl

/-! ### Work that waits is not touched by register writes -/

theorem Dev.calm_wr (d : Dev) {a : Nat} (h : a ≠ Reg.MULE_CTRL) (v : Nat) : (d.wr a v).calm = d.calm := by
  have e : (d.wr a v).on Fld.MULE_CTRL_EN = d.on Fld.MULE_CTRL_EN := by
    simp only [Dev.on, Dev.f, show Fld.MULE_CTRL_EN.reg = Reg.MULE_CTRL from rfl, d.rd_wr_ne v (Ne.symm h)]
  simp only [Dev.calm, e]; rfl
theorem Dev.calm_setF (d : Dev) {g : Field} (h : g.reg ≠ Reg.MULE_CTRL) (v : Nat) : (d.setF g v).calm = d.calm :=
  d.calm_wr h _
@[simp] theorem Dev.calm_raise (d : Dev) (n : Nat) : (d.raise n).calm = d.calm := rfl
@[simp] theorem Dev.calm_raiseIf (d : Dev) (c : Bool) (n : Nat) : (d.raiseIf c n).calm = d.calm := by cases c <;> rfl
@[simp] theorem Dev.calm_answer (d : Dev) (b : BusResp) : (d.answer b).calm = d.calm := rfl

end Sys2Proof.Machine
end

