-- ==== Sys2Proof/WellFormed.lean ====
section
/-! DEFINITION. Which commands can be given: operands that name something outside what the manual has are no commands. -/

namespace Sys2Proof

open Machine

/-- R198: a DPM word. -/
def clashOk (c : Option PortClash) : Bool := c.all (·.word < 2048)

/-- R361: a power-up releases the domains but AON; SYS and MET have items of their own. -/
def itemOk : PowerItem → Bool
  | .dom x => x != .aon && x != .sys && x != .met
  | _ => true

/-- Well-formed commands: bus addresses of 32 bits and host addresses of 24 (R9, R382), words and rows of their bank (R178),
aligned halfwords (R10), the task RAM (R61), domains with vote registers (R348), captures (R100), times that end in a
command of their own (R209, R210), command bytes not listed (R386), direct transfers (R401), sectors of LFL (R421). -/
def Instr.wf : Instr → Bool
  | .registerWrite _ addr _ _ _ => addr < 2 ^ 32
  | .read64Low _ addr => addr < 2 ^ 32
  | .lcInstruction clash => clashOk clash
  | .acInstruction clash => clashOk clash
  | .taskDescriptorWrite _ off _ _ => off < 0x4000
  | .shotEnd samples => samples.length ≤ 1024
  | .memoryRead _ bank word row _ => word < bankWords bank.val && row < bankWords bank.val
  | .memoryWrite _ bank word _ => word < bankWords bank.val
  | .memoryPartialWrite _ bank word lane half _ => word < bankWords bank.val && !(half && lane.val % 2 == 1)
  | .pageInDone _ dur stall _ => dur ≤ 4000 && stall ≤ 2000
  | .pageInTimeout stall => stall ≤ 2000
  | .voteSet _ d _ => d != .aon
  | .voteClr _ d _ => d != .aon
  | .dropDecision arrival => match arrival with
    | some (.vote v) => v.dom != .aon
    | some (.wake srcs) => srcs != 0
    | _ => true
  | .powerUpItemDone item => itemOk item
  | .hspiWrite f _ _ => f.addr < 2 ^ 24 && clashOk f.clash
  | .hspiRead f n late _ t => f.addr < 2 ^ 24 && clashOk f.clash && late.all (· < n + b2n (t != 0))
  | .hspiBadcmd cmd _ => cmd != 2 && cmd != 3
  | .i2cSetPointer addr _ => addr < 2 ^ 24
  | .i2cWrite addr _ _ clash _ => addr < 2 ^ 24 && clashOk clash
  | .i2cRead _ _ clash _ _ => clashOk clash
  | .dirDone rx => rx.length ≤ 64
  | .loaderProg sector lfl _ _ _ clash => !(lfl && 64 ≤ sector.toNat) && clashOk clash
  | .hspiDmaDone clash => clashOk (clash.map (·.clash))
  | .aflProg _ _ clash => clashOk clash
  | .snapshotDone stall => stall ≤ 2000
  | .pgLockSet _ _ | .evtEnWrite _ _ _ | .flogClr _ | .sampleTick _ | .cycleStart _ | .zeroCrossing _ _ _
  | .refLost _ _ _ | .coastExpired _ | .capRearm _ _ _ | .nowRead _ _ | .herdEvaluation | .deferMaxExpiry _
  | .spliceEvaluation | .herdDisable _ | .herdEnable _ | .partWrite _ _ | .herdCntClr _ | .usrRaise _ _
  | .shotFire _ _ _ | .firstHit _ _ | .pairResult _ _ | .manFire _ _ _ _ | .resStatRead _ _ | .flowStale _
  | .leakWindowEnd _ | .manConv _ _ _ | .rtdDiscardDone _ | .rtdConvDone _ | .rtdCfgWrite _ _ _ | .thermFaultEval _
  | .sampleWordsEmit _ _ | .rangeUp _ | .chCfgWrite _ _ _ | .cntInChange _ _ | .cntCount _ _ | .cyclePublish
  | .qstatRead _ | .pulseActiveEnd _ | .pulseGapEnd _ | .bankHandover _ _ _ | .handoverDone _ | .memoryClearStart _
  | .clearDone | .memctlCntClr _ | .dpmPortARetry _ _ | .collClr _ | .stallTo | .mulePin _ _ | .muleUnpin _ _
  | .saveFull _ | .format _ | .adopt _ _ | .backstop | .epochDone _ | .muleEnable _ | .restoreDone _ | .formatDone _
  | .muleCntClr _ | .lflProg _ _ | .lflEraseSector _ _ | .lflEraseAll _ | .lflDone _ | .digestBurn _
  | .enaCtrlWrite _ _ | .lwdgKick _ _ | .lwdgCfgWrite _ _ | .lwdg | .aesEnc _ _ | .aesDec _ _ | .cmac _ _
  | .shaInit _ | .shaUpdate _ | .shaFinal _ | .sign _ _ | .verify _ _ | .crc32 _ | .unwrap _ _ | .wrap _ _
  | .kwkLoad _ | .keyClr _ _ | .cryptoInvalidOp _ _ _ | .cryptoDone | .reqGo _ _ _ | .rspRelease _ _ _ _
  | .keyReleaseTick _ | .timeout _ | .ifverWrite _ _ _ | .timeLoRead _ _ | .sec _ _ | .rtcSet _ | .rtcAdj _
  | .rtcCancel _ | .dstAdd _ | .dstSub _ | .shiftAdv _ | .shiftRet _ | .vbatlowClear _ | .lfxoFail _ | .lfxoReturn
  | .tblCmdCommit _ | .tariffCtrlWrite _ _ _ | .sessOpen _ _ _ _ _ | .sessClose _ _ | .sessSettle _ _ | .recCommit _
  | .recDone _ | .recRdGo _ | .recRdDone _ | .verdict _ _ _ | .entryRelease | .entryAbandon | .keypadLockEnd
  | .loginSet _ _ | .loginClr _ | .loginTimeout | .keyAccepted _ _ | .stuck _ | .keyFifoRead _ | .scrollStep
  | .itemRefresh | .resultShownEnd | .lampDiagResult _ _ _ | .lampClr _ _ | .ganderOccurrence _ _ | .sourceRelease _ _
  | .dieTempReading _ | .meshCheck _ | .ganderClr _ | .cmdRunNormal _ | .cmdRunHigh _ | .cmdIdle _ | .cmdSleep _
  | .cmdDeep _ | .cmdOff _ | .cmdWatch _ | .domainDropStart | .domainOff | .biasChangeDone | .pfw | .pfwClr
  | .pfwLatchClear _ | .brownOut | .vbatSwitch _ | .vddReturn | .wakePinAccept _ | .i2cAddressMatch _ | .i2cTo _ _
  | .watchCheckStart | .watchJudge | .watchCapture _ | .i2cReadStretchTimeout | .hspiDmaGo _ _
  | .mspiTransferDone _ _ | .mspiTimeout | .mspiDirectGo _ _ | .mspiCfgWrite _ _ | .uartRxByte _ _ _
  | .uartTxByteDone | .uartDataWrite _ _ | .uartDataRead _ | .uartDmaStart _ _ _ | .jtagInstruction _ | .debugHalt _
  | .debugResume _ | .debugStep _ | .accessRegister _ _ _ | .progbufExec _ _ _ | .ndmreset _ | .acLock _ | .por
  | .rstN | .swrst _ _ | .coldStart | .appBoot | .sealStore _ | .loader _ | .loaderCheck _ _ | .loaderBurn _ _ _
  | .loaderDone _ _ | .loaderTimeout | .acHold _ | .acRestart _ | .aflEraseSector _ _ | .aflDone _
  | .progDevId _ | .progCustKeyHash _ | .provision _ | .sealDevice _ | .retire _ | .wakeHoldEnd | .unlock _
  | .keyReleased _ | .digestBurnDone | .otpProgDone _ | .ufeXstartEdge _ => true

end Sys2Proof
end

