-- ==== Sys2Proof/Tests/Slice0.lean ====
section
/-! SUPPORT. Tests: ill-formed commands that the check refuses, witnesses that the hypotheses of the statements can be met
together, and effects on small states with the values that the manual gives. -/

namespace Sys2Proof.Tests

open Machine

set_option maxRecDepth 8000

/-! ### Ill-formed commands -/

theorem test_ill_registerWrite : (Instr.registerWrite .lc (2 ^ 32) 0 .word 0).wf = false := by decide
theorem test_ill_read64Low : (Instr.read64Low .lc (2 ^ 32)).wf = false := by decide
theorem test_ill_lcInstruction : (Instr.lcInstruction (some ⟨2048, true, true⟩)).wf = false := by decide
theorem test_ill_acInstruction : (Instr.acInstruction (some ⟨2048, true, true⟩)).wf = false := by decide
theorem test_ill_taskDescriptorWrite : (Instr.taskDescriptorWrite .lc 0x4000 0 .word).wf = false := by decide
theorem test_ill_shotEnd : (Instr.shotEnd (List.replicate 1025 0)).wf = false := by decide
theorem test_ill_memoryRead_word : (Instr.memoryRead .lc 20 2048 0 0).wf = false := by decide
theorem test_ill_memoryRead_row : (Instr.memoryRead .lc 20 0 2048 0).wf = false := by decide
theorem test_ill_memoryWrite : (Instr.memoryWrite .lc 0 8192 0).wf = false := by decide
theorem test_ill_memoryPartialWrite_word : (Instr.memoryPartialWrite .lc 0 8192 0 false 0).wf = false := by decide
theorem test_ill_memoryPartialWrite_lane : (Instr.memoryPartialWrite .lc 0 0 1 true 0).wf = false := by decide
theorem test_ill_pageInDone_dur : (Instr.pageInDone true 4001 0 false).wf = false := by decide
theorem test_ill_pageInDone_stall : (Instr.pageInDone true 0 2001 false).wf = false := by decide
theorem test_ill_pageInTimeout : (Instr.pageInTimeout 2001).wf = false := by decide
theorem test_ill_voteSet : (Instr.voteSet .lc .aon 1).wf = false := by decide
theorem test_ill_voteClr : (Instr.voteClr .lc .aon 1).wf = false := by decide
theorem test_ill_dropDecision : (Instr.dropDecision (some (.vote ⟨.lc, .aon, 1⟩))).wf = false := by decide
theorem test_ill_powerUpItemDone_aon : (Instr.powerUpItemDone (.dom .aon)).wf = false := by decide
theorem test_ill_powerUpItemDone_sys : (Instr.powerUpItemDone (.dom .sys)).wf = false := by decide
theorem test_ill_hspiWrite_addr : (Instr.hspiWrite ⟨2 ^ 24, 0, none, ⟨true, true⟩⟩ [] 0).wf = false := by decide
theorem test_ill_hspiWrite_clash : (Instr.hspiWrite ⟨0, 0, some ⟨2048, true, true⟩, ⟨true, true⟩⟩ [] 0).wf = false := by decide
theorem test_ill_hspiRead_addr : (Instr.hspiRead ⟨2 ^ 24, 0, none, ⟨true, true⟩⟩ 1 none false 0).wf = false := by decide
theorem test_ill_hspiRead_late : (Instr.hspiRead ⟨0, 0, none, ⟨true, true⟩⟩ 1 (some 1) false 0).wf = false := by decide
theorem test_ill_hspiRead_clash : (Instr.hspiRead ⟨0, 0, some ⟨2048, true, true⟩, ⟨true, true⟩⟩ 1 none false 0).wf = false := by decide
theorem test_ill_hspiBadcmd : (Instr.hspiBadcmd 2 0).wf = false := by decide
theorem test_ill_i2cSetPointer : (Instr.i2cSetPointer (2 ^ 24) ⟨true, true⟩).wf = false := by decide
theorem test_ill_i2cWrite_addr : (Instr.i2cWrite (2 ^ 24) [] 0 none ⟨true, true⟩).wf = false := by decide
theorem test_ill_i2cWrite_clash : (Instr.i2cWrite 0 [] 0 (some ⟨2048, true, true⟩) ⟨true, true⟩).wf = false := by decide
theorem test_ill_i2cRead : (Instr.i2cRead 1 0 (some ⟨2048, true, true⟩) false ⟨true, true⟩).wf = false := by decide
theorem test_ill_dirDone : (Instr.dirDone (List.replicate 65 0)).wf = false := by decide
theorem test_ill_loaderProg : (Instr.loaderProg 64 true 0 true false none).wf = false := by decide
theorem test_ill_snapshotDone : (Instr.snapshotDone 2001).wf = false := by decide
theorem test_wf_loaderProg : (Instr.loaderProg 511 false 0 true false none).wf = true := by decide

/-! ### Small states -/

/-- A device with fields set. -/
def put (d : Dev) (l : List (Field × Nat)) : Dev := l.foldl (fun d p => d.setF p.1 p.2) d

/-- Every domain on in RUN_NORMAL, no vote cast, no work waiting. -/
def live : Dev :=
  { put Dev.reset [(⟨Reg.PWR_DOM_STAT, 0, 20⟩, 0xFFFFF), (Fld.PWR_STATE_CUR, PState.runNormal.code)] with
    pwr.buck := .full, pwr.hfxo := true, pwr.pllS := true, pwr.pllM := true, pwr.cold := .no, mem.undef := [] }

/-- `live` with fields set. -/
def liveWith (l : List (Field × Nat)) : Dev := put live l

/-- A device as a state with an empty queue. -/
def st (d : Dev) : State := ⟨d, []⟩

/-- The device after a command. -/
def after (c : Instr) (d : Dev) : Dev :=
  match exec c (st d) with
  | .next t => t.dev
  | .fault _ => d
  | .refused _ => d

/-! ### Witnesses: the queue, reset, whole-machine statements -/

theorem witness_StepRunsFrontCommand : State.reset.pending = [] := rfl

theorem witness_EveryStepLeavesRest : State.reset.dev.rest = true ∧ step State.reset = .next State.reset := ⟨by decide, rfl⟩

theorem witness_EveryStepKeepsCanonicalForm : (st live).dev.wf = true ∧ step (st live) = .next (st live) := ⟨by decide, rfl⟩

/-! ### Witnesses: registers and the fabric -/

theorem witness_RegisterWriteFollowsFieldTypes :
    live.calm = true ∧ live.writable .lc .clk = true ∧ (fieldsAt .clk 0x40).length ≠ 0 ∧ live.writable .hspi .i2ct = true
    ∧ (fieldsAt .i2ct 0x40).any (fun g => g.ty == .rw && g.width == 7) = true := by decide

theorem witness_LowWordReadCapturesHighWord :
    live.calm = true ∧ live.opens .i2ct .energy = true ∧ pairPlace .energy 0x548 = some true
    ∧ pageBase .energy + 0x548 ≠ Reg.RTC_UPTIME_LO ∧ live.opens .ac .prepay = true ∧ pairPlace .prepay 0x184 = some true
    ∧ pairPlace .prepay 0x188 = some false := by decide

theorem witness_LocksEnablesAndFaultLog :
    live.calm = true ∧ live.writable .lc .crypto = true ∧ live.writable .hspi .hspi = true
    ∧ live.writable .lc .evtmx = true ∧ Page.crypto.events.isSome = true ∧ Page.hspi.events.isSome = true := by decide

theorem witness_FabricTurnsWritesAway :
    live.calm = true ∧ live.opens .hspi .fwall = true ∧ Requester.hspi.legal = false ∧ Page.fwall.owner = .legal
    ∧ live.domOn .lgl = true ∧ Dev.reset.calm = true ∧ Dev.reset.reaches Page.fwall.dom = false := by decide

/-! ### Witnesses: the cores -/

/-- ADDI x1, x0, 5 at the start of AFL, and LW x1, 2(x0) after it, for the AC. -/
def acAt (pc : Word) : Dev :=
  { live with
    mem.afl := [(0, 0x93), (1, 0x00), (2, 0x50), (3, 0x00), (4, 0x83), (5, 0x20), (6, 0x20), (7, 0x00)]
    ac.on := true
    ac.pc := pc }

theorem witness_CoreExecutesAddi :
    (acAt 0x0C000000).calm = true ∧ (acAt 0x0C000000).coreRuns .ac = true ∧ (acAt 0x0C000000).boot.rom = false
    ∧ (acAt 0x0C000000).boot.loader = none ∧ (acAt 0x0C000000).mem.dpmWait = none ∧ (acAt 0x0C000000).ac.wfi = false
    ∧ (acAt 0x0C000000).ac.stepping = false
    ∧ (acAt 0x0C000000).coreIrq .ac = false ∧ (acAt 0x0C000000).triggered ⟨.ac, coreReq .ac 0x0C000000, false⟩ 0x0C000000 2 = none
    ∧ bits 0x00500093 0 7 = 0x13 ∧ bits 0x00500093 12 3 = 0 := by decide

theorem witness_CoreExecutesAddi_fetch :
    ((acAt 0x0C000000).answer .none).fetch ⟨.ac, coreReq .ac 0x0C000000, false⟩ 0x0C000000
      = (.ok 0x00500093, (acAt 0x0C000000).answer .none) := rfl

/-- The same for the LC, in LFL. -/
def lcAt (pc : Word) : Dev :=
  { live with
    mem.lfl := [(0, 0x93), (1, 0x00), (2, 0x50), (3, 0x00), (4, 0x83), (5, 0x20), (6, 0x20), (7, 0x00)]
    lc.on := true
    lc.pc := pc }

theorem witness_MisalignedLoadTraps :
    (lcAt 0x08000004).calm = true ∧ (lcAt 0x08000004).coreRuns .lc = true ∧ (lcAt 0x08000004).coreIrq .lc = false
    ∧ (lcAt 0x08000004).boot.rom = false ∧ (lcAt 0x08000004).boot.loader = none ∧ (lcAt 0x08000004).mem.dpmWait = none
    ∧ (lcAt 0x08000004).lc.wfi = false ∧ (lcAt 0x08000004).lc.stepping = false
    ∧ ((lcAt 0x08000004).core .lc).pc ∉ [(0x100 : Word), 0x104, 0x108]
    ∧ bits 0x00202083 0 7 = 0x03 ∧ bits 0x00202083 12 3 = 2
    ∧ ((lcAt 0x08000004).lc.get (bits 0x00202083 15 5) + BitVec.ofInt 32 (sgn 12 (bits 0x00202083 20 12))).toNat % 4 ≠ 0 := by
  decide

theorem witness_MisalignedLoadTraps_triggers (a k : Nat) :
    (lcAt 0x08000004).triggered ⟨.lc, coreReq .lc 0x08000004, false⟩ a k = none := by
  have hp : ∀ i < 2, bit (vGet (lcAt 0x08000004).lc.trig i {}).ctl.toNat
      (if (lcAt 0x08000004).lc.priv == .machine then 6 else 3) = false := by decide
  show Option.map _ (List.find? _ (List.range 2)) = none
  rw [Option.map_eq_none_iff, List.find?_eq_none]
  intro i hi h
  rw [Bool.and_eq_true] at h
  exact Bool.noConfusion (h.2.symm.trans (hp i (List.mem_range.1 hi)))

theorem witness_MisalignedLoadTraps_fetch :
    ((lcAt 0x08000004).answer .none).fetch ⟨.lc, coreReq .lc 0x08000004, false⟩ 0x08000004
      = (.ok 0x00202083, (lcAt 0x08000004).answer .none) := rfl

/-- ADDI writes rd and moves on (R232, R418). -/
theorem test_addi : (after (.acInstruction none) (acAt 0x0C000000)).ac.get 1 = 5
    ∧ (after (.acInstruction none) (acAt 0x0C000000)).ac.pc = 0x0C000004 := by decide

/-- A misaligned load traps with cause 4 and the address (R10, R232). -/
theorem test_misaligned_load : (after (.lcInstruction none) (lcAt 0x08000004)).lc.mcause = 4
    ∧ (after (.lcInstruction none) (lcAt 0x08000004)).lc.mtval = 2 := by decide

theorem witness_DebugModules :
    (lcAt 0x08000000).debugOpen .lc = true ∧ (lcAt 0x08000000).lc.halted = false ∧ live.domOn .sys = true
    ∧ (after (.debugHalt .lc) (lcAt 0x08000000)).debugOpen .lc = true
    ∧ (after (.debugHalt .lc) (lcAt 0x08000000)).calm = true
    ∧ (after (.debugHalt .lc) (lcAt 0x08000000)).lc.halted = true ∧ live.writable .ac .debug = true
    ∧ live.acDebug = true ∧ live.lcDebug = true
    ∧ (after (.debugHalt .ac) (acAt 0x0C000000)).debugOpen .ac = true
    ∧ (after (.debugHalt .ac) (acAt 0x0C000000)).ac.halted = true
    ∧ bit (after (.debugHalt .ac) (acAt 0x0C000000)).ac.dcsr.toNat 11 = false := by decide

/-- The AC halted at the start of AFL. -/
def acHalted : Dev := { acAt 0x0C000000 with ac.halted := true, ac.dpc := 0x0C000000 }

theorem witness_DebugModules_step :
    acHalted.calm = true ∧ acHalted.debugOpen .ac = true ∧ acHalted.ac.halted = true ∧ acHalted.cur ≠ .idle
    ∧ acHalted.quiescing .app = false ∧ acHalted.quiescing .sys = false ∧ acHalted.mem.dpmWait = none
    ∧ bit acHalted.ac.dcsr.toNat 11 = false ∧ (bits acHalted.ac.dcsr.toNat 0 2 == 3) = true := by decide

/-- The AC as a single step finds it. -/
def acStepping : Dev :=
  { acHalted.dmi .ac with
    bus := .none, ac := ({ acHalted.ac with dcsr := acHalted.ac.dcsr ||| 4, wfi := false } : Core).leaveDebug }

theorem witness_DebugModules_fetch :
    acStepping.triggered ⟨.ac, .ac, false⟩ acStepping.ac.pc.toNat 2 = none
    ∧ acStepping.fetch ⟨.ac, .ac, false⟩ acStepping.ac.pc.toNat = (.ok 0x00500093, acStepping) := ⟨rfl, rfl⟩

/-- A single step executes one instruction and halts again (R405). -/
theorem test_debugStep : (after (.debugStep .ac) (after (.debugHalt .ac) (acAt 0x0C000000))).ac.get 1 = 5
    ∧ (after (.debugStep .ac) (after (.debugHalt .ac) (acAt 0x0C000000))).ac.dpc = 0x0C000004 := by decide

/-! ### Witnesses: power -/

/-- `live` with a drop of UFA under way; its votes are none. -/
def dropping (decided : Bool) : Dev := { live with pwr.drop := some { dom := .ufa, decided := decided } }

theorem witness_VoteWrites :
    live.writable .lc .pwr = true ∧ live.pwr.entry = none ∧ live.running = true
    ∧ (dropping false).writable .lc .pwr = true ∧ (0xFFFF &&& Requester.lc.slotMask) ≠ 0 := by decide

theorem witness_PowerRequests :
    live.writable .lc .pwr = true ∧ live.running = true ∧ live.pwr.entry = none ∧ live.pwr.waking = none
    ∧ live.pwr.bias = none ∧ live.pwr.cold = .no ∧ live.pwr.pin = false ∧ live.pwr.pend = none ∧ live.seqRuns = false
    ∧ (dropping false).seqRuns = true ∧ (dropping false).pwr.pend = none ∧ (dropping false).pwr.waking = none
    ∧ (dropping false).pwr.bias = none ∧ (dropping false).pwr.cold = .no ∧ PState.idle ≠ (dropping false).cur
    ∧ (∀ x ∈ Dom.all, (dropping false).slots x &&& 0xFF07 = 0) ∧ live.on Fld.PWR_SUPPLY_PFW = false
    ∧ live.cur = .runNormal ∧ (put live [(Fld.PWR_STATE_CUR, PState.runHigh.code)]).cur = .runHigh
    ∧ (∀ x ∈ Dom.all, live.slots x &&& 0xFF07 = 0) ∧ live.domOn .app = true := by decide

/-- Each reason for which a request is rejected: a change under way, a domain voted for, PFW. -/
theorem witness_PowerRequests_rejected :
    ({ live with pwr.bias := some .runHigh } : Dev).pwr.bias.isSome = true
    ∧ ({ live with pwr.pend := some .idle } : Dev).pwr.pend.isSome = true
    ∧ (put live [(Fld.PWR_VOTE_SLOTS Dom.app.num, 1)]).slots .app &&& 0xFF07 ≠ 0 ∧ PState.allows .sleep .app = false
    ∧ (put live [(Fld.PWR_VOTE_SLOTS Dom.sys.num, 1)]).slots .sys &&& 0xFF07 ≠ 0 ∧ PState.allows .off .sys = false
    ∧ (put live [(Fld.PWR_SUPPLY_PFW, 1)]).on Fld.PWR_SUPPLY_PFW = true := by decide

/-- CMD: IDLE is entered at once, SLEEP with APP on begins an entry (R352, R355). -/
theorem test_cmdIdle : (after (.cmdIdle .lc) live).cur = .idle
    ∧ (after (.cmdIdle .lc) (dropping false)).cur = .runNormal := by decide

/-- UFA is off and voted for; its power-up has begun or is the next to begin. -/
def raising (up : Option Dom) : Dev :=
  { put live [(⟨Reg.PWR_DOM_STAT, 14, 2⟩, 0), (Fld.PWR_VOTE_SLOTS Dom.ufa.num, 1)] with pwr.up := up }

theorem witness_DropsAndPowerUps :
    live.nextDown.isSome = true ∧ (dropping false).dropReady .ufa = true ∧ (dropping true).running = true
    ∧ (dropping false).wanted .ufa = false ∧ live.writable .lc .pwr = true ∧ (dropping false).pwr.entry = none
    ∧ (raising none).pwr.up = none ∧ (raising none).seqRuns = false ∧ (raising none).nextUp = some .ufa
    ∧ (raising (some .ufa)).pwr.up = some .ufa ∧ (raising none).buckReady = true ∧ (raising none).watch.img = []
    ∧ live.pwr.waking = none
    ∧ ({ live with pwr.bias := some .runHigh } : Dev).pwr.bias = some .runHigh
    ∧ (0xFFFF &&& Requester.lc.slotMask) ≠ 0 ∧ live.calm = true ∧ live.pwr.pllS = true ∧ live.pwr.pllM = true
    ∧ live.domOn .sys = true := by decide

theorem witness_SuppliesAndWakeSources :
    live.calm = true ∧ live.on Fld.PWR_SUPPLY_PFW = false ∧ (put live [(Fld.PWR_SUPPLY_PFW, 1)]).calm = true
    ∧ live.writable .lc .pwr = true ∧ Requester.lc.legal = true ∧ live.on Fld.PWR_SUPPLY_VBAT_ACTIVE = false
    ∧ (put live [(Fld.PWR_SUPPLY_VBAT_ACTIVE, 1)]).calm = true ∧ live.running = true ∧ live.pwr.wakeAt = none
    ∧ ({ live with pwr.stretch := true } : Dev).pwr.stretch = true := by decide

/-- SLEEP with PER off, the WAKE ball and the I2C address as wake sources. -/
def asleep : Dev :=
  put live [(Fld.PWR_STATE_CUR, PState.sleep.code), (⟨Reg.PWR_DOM_STAT, 18, 2⟩, 0), (Fld.ROOSTER_SRC_EN_EN, 0x1FF),
    (Fld.I2CT_ADDR_ADDR, 0x3A), (Fld.I2CT_ADDR_EN, 1), (Fld.ROOSTER_I2C_CFG_NACK_WAKE, 0)]

theorem witness_SuppliesAndWakeSources_asleep :
    asleep.cur = .sleep ∧ asleep.pwr.entry = none ∧ asleep.pwr.waking = none ∧ asleep.pwr.cold = .no
    ∧ bit (asleep.f Fld.ROOSTER_SRC_EN_EN) 0 = true ∧ asleep.domStat .per < 3
    ∧ bit (asleep.f Fld.ROOSTER_SRC_EN_EN) 3 = true ∧ asleep.on Fld.I2CT_ADDR_EN = true
    ∧ asleep.pwr.wakeOpen = false ∧ 0x3A / 4 ≠ 0x1E ∧ asleep.f Fld.ROOSTER_PIN_CFG_POL = b2n false
    ∧ asleep.f Fld.I2CT_ADDR_ADDR = 0x3A ∧ asleep.on Fld.ROOSTER_I2C_CFG_NACK_WAKE = false := by decide

/-- The I2C address wakes the chip and holds the stretch (R371, R372). -/
theorem test_i2cAddressMatch : (after (.i2cAddressMatch 0x3A) asleep).pwr.waking = some true
    ∧ (after (.i2cAddressMatch 0x3A) asleep).pwr.stretch = true := by decide

/-- WATCH with a check image. -/
def watching : Dev :=
  put live [(Fld.PWR_STATE_CUR, PState.watch.code), (Fld.WATCH_CTRL_EN, 1), (Fld.WATCH_STAT_IMG_VALID, 1)]

theorem witness_WatchChecks :
    watching.cur = .watch ∧ watching.watch.checking = false ∧ watching.on Fld.WATCH_CTRL_EN = true
    ∧ watching.on Fld.WATCH_STAT_IMG_VALID = true ∧ watching.on Fld.PWR_SUPPLY_PFW = false
    ∧ watching.on Fld.PWR_SUPPLY_VBAT_ACTIVE = false ∧ watching.watch.img = []
    ∧ (put watching [(Fld.WATCH_CTRL_EN, 0)]).on Fld.WATCH_CTRL_EN = false
    ∧ live.ufe.pair = none ∧ live.rtd.conv = none ∧ live.writable .lc .watch = true ∧ live.domOn .ufa = true
    ∧ live.domOn .ufd = true := by decide

/-! ### Witnesses: the mains angle engine -/

/-- The MAE runs at the nominal increment, at tick `k`, with its accumulator at `acc`. -/
def angle (k acc : Nat) : Dev := { live with mae.running := true, mae.nextTick := k, mae.acc := acc }

theorem witness_SampleTicksAndCycleStarts :
    (angle 255 (255 * 2 ^ 32)).mae.slew = 0 ∧ (angle 255 0).herd.evalDue = false ∧ (angle 255 0).domOn .met = true
    ∧ 0 < (angle 0 0).rd Reg.MAE_INC ∧ (angle 256 (2 ^ 40 - 1)).calm = true ∧ (angle 255 0).settled = true
    ∧ (angle 255 0).mae.splices = [] ∧ (∀ n < 3, (angle 255 0).watched n = false)
    ∧ (∀ n < 3, (angle 256 (2 ^ 40 - 1)).watched n = false) := by decide

/-- With no reference valid or followed none is lost. -/
theorem lossWithin_unwatched (d : Dev) (spare : Option (Fin 3)) (n : Nat) (h : ∀ k < 3, d.watched k = false) :
    d.lossWithin spare n = none := by
  have hd : ∀ k : Fin 3, d.lossDist k.val = none := fun k => by simp [Dev.lossDist, h k.val k.isLt]
  simp [Dev.lossWithin, Dev.nextLoss, allRefs, hd]

theorem witness_SampleTicksAndCycleStarts_losses :
    (angle 255 0).lossWithin none ((angle 255 0).clksFor (angle 255 0).toBoundary) = none
    ∧ (angle 256 (2 ^ 40 - 1)).lossWithin none ((angle 256 (2 ^ 40 - 1)).clksFor (angle 256 (2 ^ 40 - 1)).toBoundary) = none :=
  ⟨lossWithin_unwatched _ _ _ (by decide), lossWithin_unwatched _ _ _ (by decide)⟩

/-- A sample tick advances the accumulator past the tick (R34). -/
theorem test_sampleTick : (after (.sampleTick 255) (angle 255 (255 * 2 ^ 32 - 1))).mae.nextTick = 256 := by decide

/-- LOCKED on channel 0, the last crossing 81,920 modulator clocks ago. -/
def locked (acc : Nat) : Dev :=
  { put live [(Fld.MAE_STATUS_STATE, 2), (Fld.MAE_STATUS_REF_ACT, 0), (⟨Reg.MET_QTY_SCALE 0, 0, 32⟩, 1)] with
    mae.running := true, mae.acc := acc, mae.modClk := 200000, mae.det := #v[{ last := some 118080 }, {}, {}]
    qty.refSq := #v[[(40000 * 100 * 2 ^ 23) ^ 2], [], []] }

theorem witness_CrossingsInLocked :
    (locked 0).calm = true ∧ (locked 0).maeState = 2 ∧ (locked 0).f Fld.MAE_STATUS_REF_ACT = 0
    ∧ ((locked 0).det 0).last = some 118080 ∧ 42 * (200000 - 118080) ≤ 4096000 ∧ 4096000 ≤ 68 * (200000 - 118080)
    ∧ (locked 0).refOver 0 ((locked 0).f Fld.MAE_VREF_MIN) = true ∧ (locked 0).mae.splices = []
    ∧ ({ locked 0 with qty.refSq := Vector.replicate 3 [] } : Dev).refOver 0 ((locked 0).f Fld.MAE_VREF_MIN) = false
    ∧ (locked 0).lossWithin none 0 = none ∧ (locked 0).herd.evalDue = false ∧ 0 < (locked 0).rd Reg.MAE_INC
    ∧ (wrapAu (((locked 0).expected 0 : Int) - ((locked 0).mae.acc / 2 ^ 24 : Nat))).natAbs ≤ (locked 0).mae.crossWin
    ∧ (wrapAu (((locked 0).expected 0 : Int) - ((locked 0).mae.acc / 2 ^ 24 : Nat))).natAbs ≤ (locked 0).slewLimit
    ∧ (locked (0x2000 * 2 ^ 24)).mae.crossWin
        < (wrapAu (((locked (0x2000 * 2 ^ 24)).expected 0 : Int) - ((locked (0x2000 * 2 ^ 24)).mae.acc / 2 ^ 24 : Nat))).natAbs := by
  decide

/-- The same, following the reference of channel 0, whose span is `span`. -/
def following (span : Nat) : Dev :=
  { locked 0 with mae.refSel := 0, mae.nextTick := 256, mae.det := #v[{ last := some 118080, span := span }, {}, {}] }

/-- The span of a reference that has run out. -/
def spanOver : Nat := 2 ^ 41

/-- COAST in its last cycle, before the cycle start. -/
def coasting : Dev :=
  { put (angle 256 (2 ^ 40 - 1)) [(Fld.MAE_STATUS_STATE, 3), (Fld.MAE_STATUS_COAST_LEFT, 1), (Fld.MAE_CTRL_REF_SEL, 3)] with
    mae.refSel := 3 }

theorem witness_LossCoastCaptureNow :
    (following spanOver).calm = true ∧ (following spanOver).following = true ∧ (following spanOver).mae.refSel ≠ 3
    ∧ (following spanOver).domOn .met = true ∧ (following spanOver).settled = true
    ∧ (following spanOver).lossDist 0 = some 0 ∧ (following spanOver).lossWithin (some 0) 0 = none
    ∧ coasting.calm = true ∧ coasting.maeState = 3 ∧ coasting.f Fld.MAE_STATUS_COAST_LEFT = 1
    ∧ coasting.mae.refSel = coasting.f Fld.MAE_CTRL_REF_SEL ∧ coasting.mae.zcOfs = coasting.f Fld.MAE_ZC_CFG_ZC_OFFSET
    ∧ coasting.mae.refOfs = #v[coasting.f (Fld.MAE_REF_OFS_OFS 0), coasting.f (Fld.MAE_REF_OFS_OFS 1), coasting.f (Fld.MAE_REF_OFS_OFS 2)]
    ∧ (following 0).lossWithin none 0 = none
    ∧ live.writable .lc .mae = true ∧ eventExists (live.f (Fld.MAE_CAP_SEL_EVT 0)) = true
    ∧ ((live.answer .none).pass ⟨0, 0⟩).opens .lc .mae = true := by decide

/-- The RMS too low at the end of the cycle, and no reference lost before. -/
def fading : Dev :=
  { put (following 0) [(Fld.MAE_CTRL_REF_SEL, 0)] with qty.refSq := Vector.replicate 3 [], mae.acc := 2 ^ 40 - 1 }

theorem witness_LossCoastCaptureNow_rms :
    fading.refOver 0 (fading.f Fld.MAE_VREF_MIN) = false ∧ fading.mae.nextTick = 256 ∧ fading.following = true
    ∧ fading.mae.refSel = fading.f Fld.MAE_CTRL_REF_SEL ∧ fading.mae.zcOfs = fading.f Fld.MAE_ZC_CFG_ZC_OFFSET
    ∧ fading.mae.refOfs = #v[fading.f (Fld.MAE_REF_OFS_OFS 0), fading.f (Fld.MAE_REF_OFS_OFS 1), fading.f (Fld.MAE_REF_OFS_OFS 2)]
    ∧ fading.lossWithin none (fading.clksFor fading.toBoundary) = none := by decide

theorem witness_LossCoastCaptureNow_coast :
    coasting.lossWithin none (coasting.clksFor coasting.toBoundary) = none :=
  lossWithin_unwatched _ _ _ (by decide)

/-- A lost reference leads to COAST, the end of COAST to SYNTH (R42, R43, R44). -/
theorem test_refLost : (after (.refLost 0 ⟨0, 0⟩ .span) (following spanOver)).maeState = 3 := by decide +kernel

theorem test_coastExpired : (after (.coastExpired 0) coasting).maeState = 4
    ∧ (after (.coastExpired 0) coasting).rd Reg.MAE_FREQ = 50 * 65536 := by decide +kernel

/-! ### Witnesses: HERD -/

/-- The descriptor words of task `i`. -/
def withDesc (d : Dev) (i w0 w1 w2 w3 : Nat) : Dev :=
  [w0, w1, w2, w3].zipIdx.foldl (fun d p => d.putCode 21 (4 * i + p.2) (encodeWord 21 (4 * i + p.2) p.1)) d

/-- A descriptor of task `i`: every cycle at tick 5, unit 6 (EVT_RAISE), event USR 0. -/
def usrDesc (d : Dev) (i : Nat) : Dev := withDesc d i 1 (5 * 256 + 6 * 2 ^ 16) 0 (Ev.HERD_USR 0)

theorem witness_TaskDescriptorWrites :
    live.admits .lc (.sram 21 (4 * 1023 + 1)) true = true ∧ live.clearing = false ∧ Requester.lc.legal = true
    ∧ live.admits .ac (.sram 21 (4 * 127 + 1)) true = true ∧ live.legalTask 127 = true ∧ live.legalTask 128 = false
    ∧ live.admits .ac (.sram 21 (4 * 128 + 1)) true = true
    ∧ ((usrDesc live 128).putCode 21 513 (encodeWord 21 513 (5 * 256 + 6 * 2 ^ 16 + 2 ^ 23))).peekDesc 128
        = some (descOf 1 (5 * 256 + 6 * 2 ^ 16 + 2 ^ 23) 0 (Ev.HERD_USR 0))
    ∧ appEvent (bits (Ev.HERD_USR 0) 0 9) = true := by decide

/-- Arming and its refusal: a task with PERIOD 0 is not armed (R62). -/
theorem test_taskArmed : ((after (.taskDescriptorWrite .ac (16 * 128 + 4) 0x860500 .word) (usrDesc live 128)).task 128).armed = true
    ∧ ((after (.taskDescriptorWrite .ac (16 * 128 + 4) 0x860500 .word) (withDesc live 128 0 0 0 0)).task 128).armed = false := by
  decide

/-- HERD runs, one armed task due at tick 5 of cycle 0, tick 5 being under evaluation. -/
def dueNow : Dev :=
  { put (usrDesc live 128) [(Fld.HERD_CTRL_EN, 1)] with
    mae.running := true, mae.nextTick := 6, mae.acc := 5 * 2 ^ 32, herd.evalDue := true
    herd.tasks := [{ idx := 128, armed := true, due := some (0, 5) }] }

theorem witness_TaskFallsDueAndIsAccepted :
    dueNow.herdRuns = true ∧ dueNow.herd.evalDue = true ∧ dueNow.herd.resume = none ∧ dueNow.herd.running = []
    ∧ dueNow.herd.holds = [] ∧ (dueNow.mae.cyc, dueNow.mae.nextTick - 1) = ((0 : Word), 5)
    ∧ dueNow.peekDesc 128 = some (descOf 1 (5 * 256 + 6 * 2 ^ 16) 0 (Ev.HERD_USR 0))
    ∧ dueNow.unitPowered 6 (Ev.HERD_USR 0) = true ∧ (live.herdRuns && live.herd.evalDue) = false := by decide

/-- The accepted task raises its event and falls due in the next cycle (R63, R69). -/
theorem test_herdEvaluation : (after .herdEvaluation dueNow).pends (Ev.HERD_USR 0) = true
    ∧ ((after .herdEvaluation dueNow).task 128).due = some (1, 5) := by decide

/-- A task that has waited DEFER_MAX evaluations. -/
def waiting : Dev :=
  { dueNow with herd.tasks := [{ idx := 128, armed := true, due := some (1, 5), waiting := true, waited := 255 }] }

theorem witness_MissedReports :
    (waiting.task 128).waiting = true ∧ max 1 (waiting.f Fld.HERD_CTRL_DEFER_MAX) ≤ (waiting.task 128).waited
    ∧ (dueNow.task 128).waiting = false ∧ dueNow.writable .lc .herd = true ∧ dueNow.locked .herd 0x40 = false
    ∧ dueNow.on Fld.HERD_CTRL_EN = true := by decide

theorem test_deferMaxExpiry : (after (.deferMaxExpiry 128) waiting).rd Reg.HERD_MISS_CNT = 1
    ∧ (after (.deferMaxExpiry 128) waiting).f (Fld.HERD_MISS_INFO_TASK 0) = 128 := by decide

/-- The MAE runs and HERD is not enabled; the task of `dueNow`. -/
def stopped : Dev := put dueNow [(Fld.HERD_CTRL_EN, 0)]

theorem witness_EnableAndSplice :
    stopped.writable .lc .herd = true ∧ stopped.locked .herd 0x40 = false ∧ stopped.on Fld.HERD_CTRL_EN = false
    ∧ stopped.mae.running = true ∧ stopped.domOn .met = true ∧ (stopped.task 128).armed = true
    ∧ stopped.peekDesc 128 = some (descOf 1 (5 * 256 + 6 * 2 ^ 16) 0 (Ev.HERD_USR 0))
    ∧ auFrom stopped.mae.cyc 0 5 < ((stopped.mae.tick + 1) * 256 : Nat)
    ∧ ((stopped.mae.tick + 1) * 256 : Nat) ≤ auFrom stopped.mae.cyc 0 6 := by decide

/-- A splice from angle 0x400 to 0x900 that passes tick 5 (0x500) of the cycle. -/
def spliced : Dev := { dueNow with mae.splices := [⟨0, 0x400, 0, 0x900⟩] }

theorem witness_EnableAndSplice_splice :
    spliced.herdRuns = true ∧ spliced.mae.splices = [⟨0, 0x400, 0, 0x900⟩] ∧ spliced.herd.resume = none
    ∧ auFrom 0 0 0 + 0x900 ≤ 0x400 + 65536 ∧ (0x400 : Int) < auFrom 0 0 5 ∧ auFrom 0 0 5 < auFrom 0 0 0 + 0x900 := by decide

theorem test_spliceEvaluation : (after .spliceEvaluation spliced).pends Ev.HERD_LATE = true := by decide

theorem witness_PartitionWriteDisarms :
    dueNow.writable .lc .herd = true ∧ (dueNow.task 128).armed = true ∧ dueNow.f Fld.HERD_PART_LGL_BLOCKS = 4 := by decide

/-- LGL_BLOCKS 4 to 5 takes task 128 into the legal partition and disarms it (R67). -/
theorem test_partWrite : ((after (.partWrite .lc 5) dueNow).task 128).armed = false
    ∧ (after (.partWrite .lc 5) dueNow).pends Ev.HERD_DESC_ERR = true := by decide

theorem witness_CounterClearsAndUsrEvents :
    live.calm = true ∧ live.writable .hspi .herd = true ∧ live.writable .lc .memctl = true
    ∧ live.writable .lc .mule = true ∧ live.writable .hspi .dpm = true := by decide

theorem test_usrRaise : (after (.usrRaise .hspi 0x8001) live).pends (Ev.HERD_USR 0) = true
    ∧ (after (.usrRaise .hspi 0x8001) live).pends (Ev.HERD_USR 15) = true
    ∧ (after (.usrRaise .hspi 0x8001) live).pends (Ev.HERD_USR 1) = false := by decide

/-! ### Witnesses: ultrasound, flow, temperature -/

/-- A pair of path 3 (set words 0), its downstream shot not yet fired. -/
def pair0 : Pair :=
  { path := 3, src := 1, task := 0x3FF, late := false, deferred := false, atLimit := false, en := true, swap := false
    drv := 0, rx := 0, hit := 0, win := 0xC00000, cap := 0x1000, gap := 0, gain := 0, openThr := 10, shortThr := 200, peakMin := 0 }

def withPair (p : Pair) : Dev := { live with ufe.pair := some p }

theorem witness_ShotProgress :
    (((withPair pair0).answer .none).pass ⟨0, 0⟩).ufe.pair = some pair0 ∧ pair0.nextFire = some false
    ∧ ({ pair0 with dn := { fired := true, ended := true } } : Pair).nextFire = some true
    ∧ ({ pair0 with dn := { fired := true } } : Pair).flying = some false
    ∧ ({ pair0 with dn := { fired := true, ended := true }, up := { fired := true } } : Pair).flying = some true
    ∧ pair0.capLen = 64 ∧ pair0.capStart + pair0.capLen ≤ 4096 := by decide

/-- A drive current below the OPEN threshold (R104). -/
theorem test_shotFire_open :
    ((after (.shotFire ⟨0, 0⟩ 9 0) (withPair pair0)).ufe.pair.map fun q => q.dn.drive) = some 2
    ∧ ((after (.shotFire ⟨0, 0⟩ 10 0) (withPair pair0)).ufe.pair.map fun q => q.dn.drive) = some 0 := by decide

/-- Both shots over, hits at 100 µs in ticks of 1/8192 samples. -/
def pairDone : Pair :=
  { pair0 with dn := { fired := true, ended := true, hit := some (1600 * 8192) },
               up := { fired := true, ended := true, drive := 2 } }

theorem witness_PairResultWritten :
    (((withPair pairDone).answer .none).pass ⟨0, 0⟩).ufe.pair = some pairDone ∧ pairDone.path < 4 ∧ pairDone.src < 4
    ∧ pairDone.ang < 65536 ∧ pairDone.dn.drive ∈ [0, 2, 3] ∧ pairDone.up.drive ∈ [0, 2, 3] ∧ 1600 * 8192 < 2 ^ 32
    ∧ ({ pair0 with en := false } : Pair).dn = {} := by decide

theorem test_pairResult : (after (.pairResult ⟨0, 0⟩ none) (withPair pairDone)).rd (Reg.UFE_TOF_RES_TOF_DN 3) = 1600 * 8192
    ∧ (after (.pairResult ⟨0, 0⟩ none) (withPair pairDone)).f (Fld.UFE_TOF_RES_STAT_CODE_UP 3) = 2
    ∧ (after (.pairResult ⟨0, 0⟩ none) (withPair pairDone)).f (Fld.UFE_TOF_RES_STAT_PAIR 3) = 1 := by decide

theorem witness_ManualPairs :
    live.writable .lc .ufeDrv = true ∧ live.ufeBusy = false ∧ live.domOn .ufa = true ∧ live.domOn .ufd = true
    ∧ (put live [(Fld.UFE_DRV_PATH_CFG_EN 3, 1)]).on (Fld.UFE_DRV_PATH_CFG_EN 3) = true
    ∧ (put live [(Fld.UFE_DRV_PATH_CFG_EN 3, 0)]).on (Fld.UFE_DRV_PATH_CFG_EN 3) = false
    ∧ (withPair pair0).ufeBusy = true ∧ (withPair pair0).writable .lc .ufeDrv = true := by decide

theorem witness_ResultShadows :
    live.calm = true ∧ live.opens .ac .ufeTof = true
    ∧ (after (.resStatRead .ac 3) live).calm = true ∧ (after (.resStatRead .ac 3) live).opens .ac .ufeTof = true
    ∧ ((after (.resStatRead .ac 3) live).cap .ac).res[6]?.isSome = true := by decide

/-- Path 3 stale, outlet 0 with a leak window over paths 0 and 3. -/
def flowing (void : Bool) : Dev :=
  { put live [(Fld.FLOW_OUT_CFG_SUP_EN 0, 1), (Fld.FLOW_OUT_CFG_RET_EN 0, 1), (Fld.FLOW_OUT_CFG_SUP_PATH 0, 0),
      (Fld.FLOW_OUT_CFG_RET_PATH 0, 3), (⟨Reg.FLOW_VOL_LO 0, 0, 32⟩, 5000)] with
    flow.paths := #v[{}, {}, {}, { stale := 65535, causes := 0 }]
    flow.leaks := #v[some ⟨0, 3, 0, 0, void⟩, none, none, none] }

theorem witness_StaleFlowAndLeakWindows :
    (flowing false).domOn .ufd = true
    ∧ max 1 ((flowing false).f Fld.FLOW_FLOW_CFG_STALE_TICKS) ≤ ((flowing false).flowPath 3).stale
    ∧ ((flowing false).flowPath 0).stale < max 1 ((flowing false).f Fld.FLOW_FLOW_CFG_STALE_TICKS)
    ∧ (flowing false).leakWin 0 = some ⟨0, 3, 0, 0, false⟩ ∧ (flowing false).f (Fld.FLOW_LEAK_STAT_WIN_LEFT 0) = 0
    ∧ (flowing true).leakWin 0 = some ⟨0, 3, 0, 0, true⟩ ∧ (flowing false).supPath 0 = some 0
    ∧ (flowing false).retPath 0 = some 3 := by decide

/-- 5,000 µL more through the supply than the return (R122). -/
theorem test_leakWindowEnd : (after (.leakWindowEnd 0) (flowing false)).rd (Reg.FLOW_LEAK_DIFF 0) = 5000
    ∧ (after (.leakWindowEnd 0) (flowing true)).f (Fld.FLOW_LEAK_STAT_VOID 0) = 1 := by decide

theorem test_flowStale : (after (.flowStale 3) (flowing false)).pends Ev.FLOW_FLOW_UNKNOWN = true
    ∧ bit ((after (.flowStale 3) (flowing false)).flowPath 3).causes 3 = true := by decide

/-- Channel 7 enabled, a Pt100 in three-wire connection, converting. -/
def converting (discard : Bool) : Dev :=
  { put live [(Fld.RTD_RTD_CFG_EN 7, 1), (Fld.RTD_RTD_CFG_TYPE 7, 0), (Fld.RTD_RTD_CFG_WIRES 7, 1), (Fld.RTD_CAL_GAIN 7, 0),
      (Fld.RTD_CAL_OFS 7, 0), (Fld.RTD_LEAD2_LEAD 7, 0)] with
    mae.running := true, rtd.conv := some ⟨7, false, discard⟩ }

theorem witness_RtdConversions :
    live.writable .lc .rtd = true ∧ (converting false).writable .lc .rtd = true
    ∧ (converting false).rtd.conv = some ⟨7, false, false⟩ ∧ (converting true).rtd.conv = some ⟨7, false, true⟩
    ∧ live.rtd.conv = none ∧ (put live [(Fld.RTD_RTD_CFG_EN 7, 1)]).on (Fld.RTD_RTD_CFG_EN 7) = true := by decide

/-- 100 Ω of a Pt100 behind leads of 0.5 Ω is 0 °C (R125, R126). -/
theorem test_rtdConvDone : (after (.rtdConvDone ⟨0, 101000, 500⟩) (converting false)).f (Fld.RTD_RTD_TEMP_T 7) = 0
    ∧ (after (.rtdConvDone ⟨0, 101000, 500⟩) (converting false)).f (Fld.RTD_RTD_STAT_CODE 7) = 0 := by decide

/-- Outlet 3 enabled, a fault evaluation due. -/
def faultDue : Dev := { put live [(Fld.THERM_OUT_EN_EN 3, 1)] with therm := #v[{}, {}, {}, { due := true }] }

theorem witness_ThermalFaultEvaluations :
    faultDue.domOn .ufd = true ∧ faultDue.on (Fld.THERM_OUT_EN_EN 3) = true ∧ (faultDue.outlet 3).due = true
    ∧ (faultDue.outlet 0).due = false := by decide

/-! ### Witnesses: metrology -/

/-- One tick whose words are due: channel 0 enabled in mode 0 without ranging, the other channels off. -/
def tick0 : TickIn :=
  { cyc := 7, tick := 3, clk := 0, cfg := 1 :: List.replicate 15 0, wrote := 0, gc := List.replicate 16 0, pd := List.replicate 16 0 }

def ticking (c : FeChan) : Dev := { live with fe.ticks := [tick0], fe.chans := vSet (Vector.replicate 16 {}) 0 c }

/-- Channel 0 settled at gain 1, its stream steady. -/
def settledChan : FeChan := { cfg := some 1, gain := some (cfgPga 1), stream := List.replicate 32 8388607 }

theorem witness_SampleWords :
    (ticking {}).domOn .met = true ∧ (ticking {}).qty.closed = [] ∧ (ticking {}).fe.ticks = [tick0]
    ∧ tick0.cfg[0]? = some 1 ∧ tick0.cfg[15]? = some 0
    ∧ cfgEn 1 = true ∧ cfgEn 0 = false ∧ (ticking {}).feChan 0 = {} ∧ bit 1 11 = false ∧ bit tick0.wrote 0 = false
    ∧ ((ticking settledChan).feChan 0).cfg = some 1 ∧ ((ticking settledChan).feChan 0).gain = some (cfgPga 1)
    ∧ ((ticking settledChan).feChan 0).rem = 0 ∧ ((ticking settledChan).feChan 0).low = false := by decide

/-- 400 mV beyond the full scale of 600 mV: the input clips, and the word is marked (R142, R149). -/
def clipped : Vector AdcIn 16 := Vector.replicate 16 ⟨List.replicate 32 1000000000, 0⟩

theorem test_sampleWord_clips :
    bits ((after (.sampleWordsEmit clipped 0) (ticking settledChan)).rd (Reg.MET_FE_LAST 0)) 8 24 = 8388607
    ∧ bit ((after (.sampleWordsEmit clipped 0) (ticking settledChan)).rd (Reg.MET_FE_LAST 0)) 6 = true := by decide +kernel

/-- Half of full scale (R142). -/
theorem test_adcValue : adcValue 0 300000000 = (4194304, false) ∧ adcValue 1 (-300000000) = (-8388607, false) := by decide

theorem witness_ModesNotAllowed :
    live.writable .lc .metFe = true ∧ live.calm = true ∧ live.locked .metFe 0x7C = false
    ∧ (put live [(Fld.FUSE_LIFECYCLE_STATE, 3)]).unsealed = true
    ∧ (put live [(Fld.FUSE_LIFECYCLE_STATE, 3)]).writable .lc .metFe = true := by decide

/-- Mode 1 is not for channel 0: refused with CFG_ERR; mode 4 of channel 15 is taken (R138). -/
theorem test_chCfgWrite : (after (.chCfgWrite .lc 0 3) live).pends Ev.MET_FE_CFG_ERR = true
    ∧ (after (.chCfgWrite .lc 15 8) (put live [(Fld.FUSE_LIFECYCLE_STATE, 3)])).f (Fld.MET_FE_CH_CFG_MODE 15) = 4 := by decide

/-- A ranging channel 8 in its low range, its qualifying cycles complete. -/
def rangingChan : FeChan := { cfg := some (1 + 2 + 5 * 16 + 2 ^ 11), low := true, closed := true, run := 1 }

def ranging : Dev := { live with fe.chans := vSet (Vector.replicate 16 {}) 8 rangingChan }

/-- Pulse input 3 enabled on the rising edge, its ball high. -/
def counting (level edge : Nat) : Dev :=
  { put live [(Fld.MET_FE_CNT_CFG_EN 3, 1), (Fld.MET_FE_CNT_CFG_EDGE 3, edge), (Fld.MET_FE_CNT_CFG_LEVEL 3, level)] with
    fe.pins := #v[false, false, false, true] }

theorem witness_RangeUpAndPulseInputs :
    (ranging.feChan 8).cfg = some (1 + 2 + 5 * 16 + 2 ^ 11) ∧ cfgEn (1 + 2 + 5 * 16 + 2 ^ 11) = true
    ∧ cfgRanging (1 + 2 + 5 * 16 + 2 ^ 11) = true ∧ (ranging.feChan 8).low = true ∧ (ranging.feChan 8).closed = true
    ∧ cfgRup (1 + 2 + 5 * 16 + 2 ^ 11) ≤ (ranging.feChan 8).run ∧ live.calm = true
    ∧ live.writable .lc .metFe = true ∧ bit (live.rd (Reg.PG_LOCK .metFe)) 0 = false
    ∧ (counting 0 0).on (Fld.MET_FE_CNT_CFG_EN 3) = true
    ∧ (counting 1 0).on (Fld.MET_FE_CNT_CFG_LEVEL 3) = vGet (counting 1 0).fe.pins 3 false
    ∧ (counting 0 0).on (Fld.MET_FE_CNT_CFG_LEVEL 3) ≠ vGet (counting 0 0).fe.pins 3 false
    ∧ (counting 0 0).f (Fld.MET_FE_CNT_CFG_EDGE 3) = 0 ∧ (counting 0 1).f (Fld.MET_FE_CNT_CFG_EDGE 3) = 1 := by decide

/-- A rising edge counts where rising edges count, and at once with a write of the count (R157). -/
theorem test_cntCount : (after (.cntCount 3 (some ⟨.lc, 0xFFFFFFFF⟩)) (counting 0 0)).rd (Reg.MET_FE_CNT 3) = 0
    ∧ (after (.cntCount 3 (some ⟨.lc, 0xFFFFFFFF⟩)) (counting 0 0)).pends (Ev.MET_FE_CNT_WRAP 3) = true
    ∧ (after (.cntCount 3 none) (counting 0 1)).rd (Reg.MET_FE_CNT 3) = 0 := by decide

/-- A closed cycle of one row in which channel 0 read 1,000 mV, channels 7 and 8 1,000 mV and 1,000 mA. -/
def row1 : QRow :=
  { x := (List.range 16).map fun n => if n = 0 ∨ n = 7 ∨ n = 8 then some (1000 * 2 ^ 23 : Int) else none, held := 0, tau := 4096 }

def closedCycle (en : Nat) : Dev :=
  { put live [(Fld.ENERGY_OUT_CFG_EN 0, en), (Fld.ENERGY_OUT_CFG_TYPE 0, 0)] with
    qty.closed := [{ cyc := 9, rows := [row1], before := [], freq := 50 * 65536 }]
    qty.recs := [{ cyc := 9, rcab := [0, 0, 0, 0], tariff := [8, 0, 0, 0] }] }

theorem witness_CyclePublication :
    (closedCycle 1).domOn .met = true
    ∧ (closedCycle 1).qty.closed = [{ cyc := 9, rows := [row1], before := [], freq := 50 * 65536 }]
    ∧ (closedCycle 1).on (Fld.ENERGY_OUT_CFG_EN 0) = true ∧ (closedCycle 1).typeFits 0 = true
    ∧ (closedCycle 1).on (Fld.ENERGY_OUT_CFG_TYPE 0) = false ∧ ((closedCycle 1).cycRec 9).tariff[0]? = some 8
    ∧ 4 * squares [row1] 0 < 2 ^ 46 * (2 ^ 66 - 2 ^ 34) := by decide

def pulsing (phase backlog : Nat) : Dev :=
  { put live [(Fld.PULSE_PLS_STAT_BACKLOG 1, backlog), (Fld.PULSE_PLS_STAT_ACTIVE 1, 1)] with
    pulses := #v[{}, { phase := phase }] }

theorem witness_CycleShadowAndPulses :
    live.calm = true ∧ live.opens .hspi .metQty = true ∧ (pulsing 1 2).calm = true ∧ ((pulsing 1 2).pulse 1).phase = 1
    ∧ ((pulsing 2 2).pulse 1).phase = 2 ∧ (pulsing 2 2).f (Fld.PULSE_PLS_STAT_BACKLOG 1) = 2
    ∧ (pulsing 2 2).domOn .met = true ∧ Dev.reset.domOn .met = false
    ∧ (pulsing 2 0).f (Fld.PULSE_PLS_STAT_BACKLOG 1) = 0 := by decide

theorem test_pulseGapEnd : (after (.pulseGapEnd 1) (pulsing 2 2)).rd (Reg.PULSE_PLS_CNT 1) = 1
    ∧ (after (.pulseGapEnd 1) (pulsing 2 2)).f (Fld.PULSE_PLS_STAT_BACKLOG 1) = 1 := by decide

/-! ### Witnesses: memory -/

/-- The code of R187 on a word of the spec's columns: data bit 0 has column 0x07, address 0 and the constant 0x14. -/
theorem test_encodeWord : (encodeWord 0 0 0).toNat = 0x14 * 2 ^ 32 ∧ (encodeWord 0 0 1).toNat = 0x13 * 2 ^ 32 + 1
    ∧ (encodeWord 1 0 0).toNat = (0x14 ^^^ 0x5B) * 2 ^ 32 := by decide

theorem witness_CodeCorrectsAndDetects : (2 ^ 32 - 1 : Nat) < 2 ^ 32 ∧ addrCode 0 0 = addrCode 2 0 ^^^ 2 ^ 14 := by decide

/-- Word 8191 of S15 owned by the LC, and the last word of the DPM, the task RAM and AON RAM. -/
def owned : Dev := (put live [(Fld.MEMCTL_BANK_OWN_OWNER 15, 1)]).putCode 15 8191 (encodeWord 15 8191 0x12345678)

theorem witness_SramReadsAndWrites :
    owned.clearing = false ∧ owned.inTransit .lc 15 = false ∧ owned.admits .lc (.sram 15 8191) false = true
    ∧ owned.admits .lc (.sram 15 8191) true = true ∧ owned.owns Requester.lc.group 15 = true
    ∧ owned.owns Requester.ac.group 15 = false ∧ owned.admits .ac (.sram 15 8191) false = true
    ∧ owned.memPeek 15 8191 = some 0x12345678 ∧ owned.memPeek 15 8190 = none
    ∧ owned.admits .hspi (.sram 20 2047) true = true ∧ owned.owns Requester.hspi.group 20 = true
    ∧ owned.admits .lc (.sram 21 4095) true = true ∧ owned.admits .lc (.sram 22 1023) true = true
    ∧ bankWords 15 = 8192 ∧ bankWords 20 = 2048 ∧ bankWords 21 = 4096 ∧ bankWords 22 = 1024 := by decide

/-- Each class of a read: clean, one data bit, one check bit, two bits (R188–R190). -/
theorem witness_SramReadsAndWrites_classes :
    classify (syndrome 15 8191 (owned.codeword 15 8191)) = .clean
    ∧ classify (syndrome 15 8191 (owned.codeword 15 8191 ^^^ 8)) = .ceData 3
    ∧ classify (syndrome 15 8191 (owned.codeword 15 8191 ^^^ 0x100000000)) = .ceCheck
    ∧ classify (syndrome 15 8191 (owned.codeword 15 8191 ^^^ 3)) = .unc
    ∧ classify (syndrome 15 8190 (owned.codeword 15 8191)) = .addr := by decide

theorem test_memoryRead_corrects : (after (.memoryRead .lc 15 8191 8191 8) owned).bus = .data 0x12345678
    ∧ (after (.memoryRead .lc 15 8191 8191 8) owned).f (Fld.MEMCTL_ECC_CNT_CE 15) = 1
    ∧ (after (.memoryRead .ac 15 8191 8191 0) owned).bus = .error := by decide

theorem test_memoryPartialWrite : (after (.memoryPartialWrite .lc 15 8191 3 false 0xAB) owned).memPeek 15 8191 = some 0xAB345678 := by
  decide

theorem witness_HandoversAndClear :
    live.writable .lc .memctl = true ∧ live.locked .memctl 0x7C = false ∧ live.f (Fld.MEMCTL_BANK_OWN_OWNER 15) = 0
    ∧ owned.f (Fld.MEMCTL_BANK_OWN_OWNER 15) = 1 ∧ live.writable .ac .memctl = true ∧ live.writable .hspi .memctl = true
    ∧ (put live [(Fld.MEMCTL_BANK_OWN_IN_TRANSIT 15, 1)]).on (Fld.MEMCTL_BANK_OWN_IN_TRANSIT 15) = true
    ∧ (put live [(Fld.MEMCTL_CLEAR_BUSY, 1)]).clearing = true ∧ live.mem.dpmWait = none
    ∧ ({ lcAt 0x08000000 with mem.dpmWait := some ⟨.lc, 0⟩ } : Dev).coreRuns .lc = true
    ∧ ({ live with mem.dpmWait := some ⟨.ac, 2047⟩ } : Dev).coreRuns .ac = false := by decide

/-- The LC claims a free bank for HOSTDMA's writer only as R180 lets it: group 3 yes, group 6 no. -/
theorem test_bankHandover : (after (.bankHandover .lc 15 3) live).f (Fld.MEMCTL_BANK_OWN_OWNER 15) = 3
    ∧ (after (.bankHandover .lc 15 6) live).f (Fld.MEMCTL_BANK_OWN_OWNER 15) = 0
    ∧ (after (.bankHandover .lc 15 6) live).pends Ev.MEMCTL_OWN_REFUSED = true := by decide

/-! ### Witnesses: MULE -/

/-- MULE serves, with `m` beside and fields set. -/
def withMule (m : Mule) (l : List (Field × Nat)) : Dev :=
  { put live (l ++ [(Fld.MULE_CTRL_EN, 1), (Fld.MEMCTL_BANK_OWN_OWNER 0, 3)]) with mule := { m with store := .ready } }

/-- The first 248 bytes of the blank context of account 5 (R203). -/
def blank5 : List Byte := [5, 0, 1] ++ List.replicate 245 0

def served : Dev := withMule {} []

/-- The LC waits for account 5 with epoch 1 committed; copy A is a blank context of epoch 1 with its check, copy B of 0. -/
def waiting5 : Dev := withMule { op := some ⟨.lc, 5⟩, hand := 63, lcWait := some 5 } [(⟨Reg.MULE_LAST_COMMIT, 0, 32⟩, 1)]

def paging : Dev := waiting5.framWr (copyAddr 0 5) (stamped blank5 1 0)

theorem rd_framWr (d : Dev) (a r : Nat) (bs : List Byte) : (d.framWr a bs).rd r = d.rd r := rfl

theorem paging_choose : paging.chooseCopy 5 = some 0 := by
  have h0 : paging.framRd (copyAddr 0 5 + 4) 4 = [1, 0, 0, 0] := by
    rw [paging, Dev.framRd_framWr_inside _ _ _ _ _ (by rw [stamped_length _ _ _ (by decide)]; omega)]
    rfl
  have h1 : paging.framRd (copyAddr 1 5 + 4) 4 = [0, 0, 0, 0] := by
    rw [paging, Dev.framRd_framWr_disjoint _ _ _ _ _ (by rw [stamped_length _ _ _ (by decide)]; decide)]
    rfl
  have hw : waiting5.rd Reg.MULE_LAST_COMMIT = 1 := by decide
  have hl : paging.rd Reg.MULE_LAST_COMMIT = 1 := (rd_framWr waiting5 _ _ _).trans hw
  simp [Dev.chooseCopy, Dev.trusted, h0, h1, hl, leNat]

theorem paging_good : contextGood (paging.framRd (copyAddr 0 5) 256) 5 = true := by
  have h := Dev.framRd_framWr_same waiting5 (copyAddr 0 5) (stamped blank5 1 0)
  rw [stamped_length _ _ _ (by decide)] at h
  rw [paging, h]
  exact contextGood_stamped _ _ _ _ (by decide) (by decide) (by decide)

theorem witness_PageIns :
    (paging.mule.op = some ⟨.lc, 5⟩ ∧ paging.mule.hand < 64 ∧ paging.on (Fld.MULE_FRAME_VALID 63) = false
      ∧ paging.mule.reqs = [] ∧ paging.mule.epoch = none ∧ paging.mule.parked = [] ∧ paging.mule.framBad = false
      ∧ paging.pinCount < 40 ∧ paging.mule.lcWait = some 5 ∧ paging.stallOver = false
      ∧ (withMule { op := some ⟨.pin, 1023⟩, framBad := true } []).mule.framBad = true)
    ∧ paging.chooseCopy 5 = some 0 ∧ contextGood (paging.framRd (copyAddr 0 5) 256) 5 = true :=
  ⟨by decide, paging_choose, paging_good⟩

/-- The check value of R202: CRC-32 of the digits 1 to 9. -/
theorem test_crc32 : crc32 [0x31, 0x32, 0x33, 0x34, 0x35, 0x36, 0x37, 0x38, 0x39] = 0xCBF43926 := by decide

/-- With the FRAM failing, the page-in ends with cause FRAM and the LC's access with a bus error (R211). -/
theorem test_pageInDone_fram : (after (.pageInDone false 10 20 false) paging).f Fld.MULE_ERR_INFO_CAUSE = 1
    ∧ (after (.pageInDone false 10 20 false) paging).mule.lcFail = some 5 := by decide

theorem test_pageInTimeout : (after (.pageInTimeout 20) paging).f Fld.MULE_ERR_INFO_CAUSE = 4
    ∧ (after (.pageInTimeout 20) paging).rd Reg.MULE_PAGEIN_MAX = 4000 := by decide

theorem test_stallTo : (after .stallTo paging).pends Ev.MULE_STALL_TO = true
    ∧ (after .stallTo paging).mule.op = some ⟨.lc, 5⟩ := by decide

/-- Account 1023 in frame 63; forty frames pinned with the accounts 0 to 39. -/
def resident : Dev := withMule {} [(⟨Reg.MULE_FRAME 63, 0, 32⟩, 1023 + 2 ^ 16)]
def crowded : Dev := withMule {} ((List.range 40).map fun n => (⟨Reg.MULE_FRAME n, 0, 32⟩, n + 2 ^ 16 + 2 ^ 19))

theorem witness_MuleCommands :
    served.writable .lc .mule = true ∧ served.muleReady = true ∧ served.mule.op = none ∧ served.mule.reqs = []
    ∧ served.mule.epoch = none ∧ served.on Fld.MULE_PIN_STAT_BUSY = false ∧ served.on Fld.MULE_CMD_STAT_BUSY = false
    ∧ resident.frameOf 1023 = some 63 ∧ resident.muleReady = true ∧ resident.pinCount < 40 ∧ served.frameOf 1023 = none
    ∧ served.on Fld.PWR_SUPPLY_PFW = false ∧ served.stageOk = true ∧ served.lifecycle = .blank
    ∧ (withMule {} [(Fld.FUSE_LIFECYCLE_STATE, 2)]).lifecycle = .sealed
    ∧ (withMule {} [(Fld.FUSE_LIFECYCLE_STATE, 3)]).lifecycle = .unsealed
    ∧ (withMule {} [(Fld.FUSE_LIFECYCLE_STATE, 4)]).lifecycle = .retired ∧ served.locked .mule 0x40 = false
    ∧ live.writable .lc .mule = true ∧ live.locked .mule 0x40 = false ∧ live.mule.store = .notReady
    ∧ live.domOn .lgl = true ∧ live.domOn .sys = true ∧ live.clearing = false ∧ live.calm = true
    ∧ served.on (Fld.MEMCTL_BANK_OWN_IN_TRANSIT served.stageBank) = false ∧ live.boot.appDue = false ∧ live.mule.reports = []
    ∧ live.herd.running = [] ∧ live.herd.asks = [] ∧ live.ports.host.tx = none ∧ live.ports.uart.stop = false
    ∧ live.pwr.pend = none ∧ live.watch.checkMode = false := by decide

theorem witness_MuleCommands_full : crowded.pinCount = 40 ∧ crowded.frameOf 1023 = none ∧ crowded.muleReady = true := by decide

theorem test_mulePin : (after (.mulePin .lc 1023) resident).f (Fld.MULE_FRAME_PIN 63) = 1 := by decide

theorem test_muleEnable : (after (.muleEnable .lc) live).mule.store = .restoring := by decide

/-- An epoch in its save phase: frame 3 was dirty and is staged for account 9. -/
def savingEpoch : Epoch := { cause := 0, full := false, phase := .saving, staged := [(3, 9)], dirty := [3] }

/-- MULE in that epoch. -/
def saving : Dev := withMule { epoch := some savingEpoch } []

/-- SINCE at the saving period of 50 cycles. -/
def dueSave : Dev := withMule {} [(⟨Reg.MULE_SINCE, 0, 16⟩, 30000)]

theorem witness_FailedEpochIsAbandoned :
    saving.mule.epoch = some savingEpoch ∧ savingEpoch.phase = .saving ∧ saving.domOn .per = true ∧ saving.mule.store = .ready
    ∧ (0xFF : BitVec 8).toNat &&& saving.f Fld.MSPI_SR_CHK_MASK ≠ saving.f Fld.MSPI_SR_CHK_EXP ∧ 3 ∈ savingEpoch.dirty
    ∧ dueSave.mule.op = none ∧ dueSave.mule.reqs = []
    ∧ dueSave.on (Fld.MEMCTL_BANK_OWN_IN_TRANSIT dueSave.stageBank) = false ∧ saving.stageOk = true ∧ saving.mule.owed = false ∧ saving.mule.reqs = [] ∧ saving.mule.op = none
    ∧ dueSave.mule.epoch = none ∧ dueSave.muleReady = true ∧ dueSave.on Fld.PWR_SUPPLY_PFW = false ∧ dueSave.stageOk = true
    ∧ dueSave.savePeriod ≤ dueSave.rd Reg.MULE_SINCE
    ∧ dueSave.rd Reg.MULE_EPOCH_OPEN = saving.rd Reg.MULE_EPOCH_OPEN := by decide

theorem test_epochDone_fails : (after (.epochDone false) saving).pends Ev.MULE_EPOCH_FAIL = true
    ∧ (after (.epochDone false) saving).rd Reg.MULE_EPOCH_FAIL_CNT = 1 := by decide

/-- A transfer that MSPI gives up ends the epoch, whose staged context is dirty again (R223). -/
theorem test_mspiTimeout_epoch : (after .mspiTimeout saving).pends Ev.MULE_EPOCH_FAIL = true
    ∧ (after .mspiTimeout saving).f (Fld.MULE_FRAME_DIRTY 3) = 1 := by decide

/-- The same with the FRAM empty: no context is forced. -/
theorem saving_forced : saving.forcedSet = [] := by
  have h : saving.framRd (slotBase (saving.rd Reg.MULE_EPOCH_OPEN) + 0x180) 128 = List.replicate 128 0 :=
    SMap.getMany_eq_replicate _ _ _ _ _ fun _ _ => rfl
  rw [Dev.forcedSet, h, mapAccts_zero]
  rfl

/-- A full epoch in its snapshot. -/
def snapping : Dev := withMule { epoch := some { cause := 0, full := true, phase := .snapshot } } []

theorem witness_CommitIsAcceptedByRestore :
    (snapping.mule.epoch = some { cause := 0, full := true, phase := .snapshot } ∧ snapping.stageOk = true
      ∧ snapping.mule.reqs = [] ∧ snapping.mule.op = none)
    ∧ (saving.mule.epoch = some savingEpoch ∧ saving.stageOk = true
      ∧ saving.mule.owed = false ∧ saving.mule.reqs = [] ∧ saving.mule.op = none ∧ saving.mule.store = .ready
      ∧ saving.mule.parked = []) ∧ saving.forcedSet = [] :=
  ⟨by decide, by decide, saving_forced⟩

def formatting : Dev := { live with mule := { store := .formatting } }

/-- A device header with DEV_ID 0 (R215). -/
def header0 : List Byte := headMagic ++ [1] ++ List.replicate 247 0

/-- A restore of a store whose slot A is committed with epoch 0 over an image of zeros, and slot B is not. -/
def restoring : Dev :=
  (({ live with mule := { store := .restoring } } : Dev).framWr 0x1000
    (slotHeader 0 2 0 0 0 0 [] (crc32 (List.replicate 0xE00 0)))).framWr 0 (header0 ++ leBytes 4 (crc32 header0))

theorem header0_length : (header0 ++ leBytes 4 (crc32 header0)).length = 256 := by
  rw [List.length_append, leBytes_length]
  decide

theorem restoring_slotA : restoring.committed 0x1000 = some 0 := by
  have hl := slotHeader_length 0 2 0 0 0 0 [] (crc32 (List.replicate 0xE00 0))
  have hz : restoring.framRd (0x1000 + 0x200) 0xE00 = List.replicate 0xE00 0 := by
    rw [restoring, Dev.framRd_framWr_disjoint _ _ _ _ _ (by rw [header0_length]; omega),
      Dev.framRd_framWr_disjoint _ _ _ _ _ (by rw [hl]; omega)]
    exact SMap.getMany_eq_replicate _ _ _ _ _ fun _ _ => rfl
  refine Dev.committed_header _ (by decide) (cause := 0) (cyc := 0) (cycHi := 0) (nctx := 0) (time := []) ?_
  rw [hz, restoring, Dev.framRd_framWr_disjoint _ _ _ _ _ (by rw [header0_length]; omega)]
  have h := Dev.framRd_framWr_same ({ live with mule := { store := .restoring } } : Dev) 0x1000
    (slotHeader 0 2 0 0 0 0 [] (crc32 (List.replicate 0xE00 0)))
  rwa [hl] at h

theorem restoring_slotB : restoring.committed 0x2000 = none := by
  have hl := slotHeader_length 0 2 0 0 0 0 [] (crc32 (List.replicate 0xE00 0))
  have hz : restoring.framRd 0x2000 64 = List.replicate 64 0 := by
    rw [restoring, Dev.framRd_framWr_disjoint _ _ _ _ _ (by rw [header0_length]; omega),
      Dev.framRd_framWr_disjoint _ _ _ _ _ (by rw [hl]; omega)]
    exact SMap.getMany_eq_replicate _ _ _ _ _ fun _ _ => rfl
  have hm : ((List.replicate 64 (0 : Byte)).take 4 == slotMagic) = false := by decide
  unfold Dev.committed
  simp only [hz, hm, Bool.false_and, Bool.false_eq_true, if_false]

theorem restoring_id : leNat (restoring.framRd 8 8) = restoring.otp.devId % 2 ^ 64 := by
  have h : restoring.framRd 8 8 = ((header0 ++ leBytes 4 (crc32 header0)).drop 8).take 8 :=
    Dev.framRd_framWr_inside _ 0 8 8 _ (by rw [header0_length]; omega)
  rw [h]
  rfl

theorem witness_RestoresAndFormats :
    (restoring.mule.store = .restoring ∧ restoring.mule.owed = false ∧ restoring.mule.framBad = false
      ∧ formatting.mule.store = .formatting ∧ formatting.mule.framBad = false ∧ formatting.mule.owed = false)
    ∧ restoring.headerGood = true ∧ leNat (restoring.framRd 8 8) = restoring.otp.devId % 2 ^ 64
    ∧ restoring.committed 0x1000 = some 0 ∧ restoring.committed 0x2000 = none :=
  ⟨by decide, Dev.headerGood_written _ (by decide) (by decide) (by decide), restoring_id, restoring_slotA, restoring_slotB⟩

/-! ### Witnesses: the legal unit -/

/-- UNSEALED, the first 64 words of L0 written, SRC_OFS 0; the boot ROM may write LFL. -/
def legal (l : List (Field × Nat)) : Dev := put live ([(Fld.FUSE_LIFECYCLE_STATE, 3)] ++ l)

def filled : Dev := (List.range 64).foldl (fun d i => d.putCode 16 i (encodeWord 16 i 7)) (legal [])

theorem filled_words : (List.range 64).all (fun i => filled.f Fld.FWALL_LFL_SRC_OFS + i < 12288
    && filled.codeword (16 + (filled.f Fld.FWALL_LFL_SRC_OFS + i) / 4096) ((filled.f Fld.FWALL_LFL_SRC_OFS + i) % 4096)
      == encodeWord (16 + (filled.f Fld.FWALL_LFL_SRC_OFS + i) / 4096) ((filled.f Fld.FWALL_LFL_SRC_OFS + i) % 4096) 7) = true := by
  decide

def withBoot (b : Boot) (o : Otp) (l : List (Field × Nat)) : Dev := { legal l with boot := b, otp := o }

/-- Eight digest slots used. -/
def fullOtp : Otp := { digests := (List.range 8).map fun n => (n + 100, n) }

theorem witness_LegalFlashDigestsAndWatchdog :
    filled.writable .bootRom .fwall = true ∧ filled.boot.lfl = none ∧ filled.lifecycle = .unsealed
    ∧ live.writable .bootRom .fwall = true ∧ live.lifecycle ≠ .unsealed ∧ (Requester.lc ≠ .bootRom)
    ∧ (withBoot { lfl := some (.prog 1023 (List.replicate 256 0x55)) } {} []).boot.lfl
        = some (.prog 1023 (List.replicate 256 0x55))
    ∧ (withBoot { lfl := some (.eraseSector 1023) } {} []).boot.lfl = some (.eraseSector 1023)
    ∧ (withBoot { lfl := some .eraseAll } {} []).boot.lfl = some .eraseAll
    ∧ filled.boot.digest = none ∧ (∃ n < 8, ∀ p ∈ filled.otp.digests, p.2 ≠ n)
    ∧ (∀ n < 8, ∃ p ∈ (withBoot {} fullOtp []).otp.digests, p.2 = n)
    ∧ (withBoot { digest := some 9 } { digests := [(5, 0)] } []).boot.digest = some 9
    ∧ (∀ p ∈ (withBoot { digest := some 9 } { digests := [(5, 0)] } []).otp.digests, p.2 ≠ 1)
    ∧ live.calm = true ∧ live.locked .fwall 0x40 = false ∧ live.domOn .lgl = true
    ∧ (put live [(Fld.FWALL_LWDG_CFG_TMO, 1)]).lwdgTmo ≠ 0 := by decide

/-- The lowest unused slot takes the digest (R235). -/
theorem test_digestBurnDone :
    (after .digestBurnDone (withBoot { digest := some 9 } { digests := [(5, 0)] } [])).otp.digests = [(5, 0), (9, 1)] := by decide

theorem test_lflProg_refused : (after (.lflProg .lc 3) (legal [])).f Fld.FWALL_LFL_STAT_RESULT = 1
    ∧ (after (.lflProg .bootRom 3) live).f Fld.FWALL_LFL_STAT_RESULT = 1 := by decide

/-- Outlet 2 is cut. -/
def cut2 : Dev := put live [(Fld.PREPAY_CFG_AUTO_CUT, 1), (Fld.PREPAY_PP_STAT_CUT 2, 1), (⟨Reg.FWALL_ENA_CTRL, 0, 4⟩, 1)]

/-- A write that sets the bit of the outlet that is cut is not performed, one that does not is (R307). -/
theorem test_enaCtrl : (after (.enaCtrlWrite .lc 15) cut2).rd Reg.FWALL_ENA_CTRL = 1
    ∧ (after (.enaCtrlWrite .lc 10) cut2).rd Reg.FWALL_ENA_CTRL = 10 := by decide

/-! ### Witnesses: crypto -/

def crypting (op key len : Nat) (l : List (Field × Nat)) : Dev :=
  { put live l with crypto := { run := some (op, key, len) } }

theorem witness_CryptoOperations :
    live.writable .lc .crypto = true ∧ live.locked .crypto 0x40 = false ∧ live.crypto.run = none
    ∧ (crypting 1 7 64 []).crypto.run ≠ none ∧ (crypting 1 7 64 []).writable .lc .crypto = true
    ∧ (crypting 1 7 64 [(⟨Reg.CRYPTO_KS_INFO, 14, 2⟩, 1)]).f ⟨Reg.CRYPTO_KS_INFO, 2 * 7, 2⟩ = 1
    ∧ (crypting 7 7 0 []).f ⟨Reg.CRYPTO_KS_INFO, 2 * 7, 2⟩ ≠ 2 ∧ (crypting 10 0 40 []).on Fld.CRYPTO_STAT_KWK_OK = false
    ∧ (crypting 12 0 16 []).lifecycle = .blank ∧ (crypting 12 0 16 []).eraseActive = false
    ∧ (crypting 12 0 16 [(Fld.FUSE_LIFECYCLE_STATE, 2)]).lifecycle = .sealed := by decide

/-- A slot without a key gives BAD_KEY; a LEN that is no multiple of 16 gives BADLEN (R241). -/
theorem test_cryptoDone : (after .cryptoDone (crypting 1 7 64 [])).f Fld.CRYPTO_STAT_RESULT = 1
    ∧ (after .cryptoDone (crypting 1 7 17 [])).f Fld.CRYPTO_STAT_RESULT = 6 := by decide

/-- KEY_CLR of slot 7. -/
theorem test_keyClr : (after .cryptoDone (crypting 13 7 0 [(⟨Reg.CRYPTO_KS_INFO, 0, 16⟩, 0x4001)])).rd Reg.CRYPTO_KS_INFO = 1 := by
  decide

/-! ### Witnesses: mailboxes -/

/-- Channel `c` in a state, with the request that is out. -/
def mailbox (c : Nat) (stat : Nat) (m : Mbx) : Dev :=
  { put live [(Fld.LGLMBX_REQ_STAT_STATE c, stat), (Fld.LGLMBX_REQ_STAT_IF_STATE c, 1), (Fld.LGLMBX_REQ_HDR_TAG c, 0xA5),
      (Fld.LGLMBX_IF_RANGE_IF_MIN, 0x0101), (Fld.LGLMBX_IF_RANGE_IF_MAX, 0x0203)] with mbx := vSet (Vector.replicate 2 {}) c m }

theorem witness_MailboxRequestsAndResponses :
    live.writable .ac .lglmbx = true ∧ live.writable .hspi .lglmbx = true ∧ live.writable .lc .lglmbx = true
    ∧ live.locked .lglmbx 0x100 = false ∧ live.f (Fld.LGLMBX_REQ_STAT_STATE 1) ≠ 1
    ∧ live.f (Fld.LGLMBX_REQ_STAT_IF_STATE 1) = 0 ∧ (mailbox 1 0 {}).f (Fld.LGLMBX_REQ_STAT_IF_STATE 1) = 1
    ∧ (mailbox 1 1 { opc := 0xBF }).f (Fld.LGLMBX_REQ_STAT_STATE 1) = 1 ∧ ((mailbox 1 1 { opc := 0xBF }).mbxCh 1).opc = 0xBF
    ∧ ((mailbox 1 1 { opc := 0xC0 }).mbxCh 1).opc = 0xC0 ∧ ((mailbox 1 1 { opc := 0xC0 }).mbxCh 1).unserved = false
    ∧ ((mailbox 1 1 { opc := 0xC0, held := some (0, 16) }).mbxCh 1).held = some (0, 16)
    ∧ ((mailbox 1 1 { opc := 0xC0 }).mbxCh 1).held = none
    ∧ mbxRequester .hspi 1 = true ∧ mbxRequester .ac 0 = true := by decide

/-- A WRITE opcode (0x88) under IF_STATE 0 is answered with IF_RO, LEN 17 of a READ with BADLEN (R246). -/
theorem test_reqGo : (after (.reqGo .hspi 1 0xA50088) live).rd (Reg.LGLMBX_RSP_HDR 1) = 0xA50002
    ∧ (after (.reqGo .hspi 1 0xA51101) live).rd (Reg.LGLMBX_RSP_HDR 1) = 0xA50003
    ∧ (after (.reqGo .hspi 1 0xA51001) live).f (Fld.LGLMBX_REQ_STAT_STATE 1) = 1 := by decide

/-- A KEY response goes out in its tick, with the request's TAG (R247). -/
theorem test_keyReleaseTick :
    (after (.keyReleaseTick 1) (after (.rspRelease .lc 1 0 false) (mailbox 1 1 { opc := 0xC0 }))).rd (Reg.LGLMBX_RSP_HDR 1)
      = 0xA50000
    ∧ (after (.keyReleaseTick 1) (mailbox 1 1 { opc := 0xC0 })).f (Fld.LGLMBX_RSP_HDR_STATUS 1) = 1 := by decide

/-- Interface 0x0300 is beyond a range up to 0x0203, 0x0204 has a major number within it (R249). -/
theorem test_ifverWrite : (after (.ifverWrite .hspi 1 0x0300) (mailbox 1 0 {})).f (Fld.LGLMBX_REQ_STAT_IF_STATE 1) = 3
    ∧ (after (.ifverWrite .hspi 1 0x0204) (mailbox 1 0 {})).f (Fld.LGLMBX_REQ_STAT_IF_STATE 1) = 2 := by decide

/-! ### Witnesses: the calendar clock -/

/-- 23:59:59 on 31 December 2099, a command accepted. -/
def midnight (c : Option RtcCmd) (l : List (Field × Nat)) : Dev :=
  { put live ([(⟨Reg.RTC_TIME_LO, 0, 32⟩, 0x31235959), (⟨Reg.RTC_TIME_HI, 0, 24⟩, 0x049912)] ++ l) with rtc := { cmd := c } }

theorem witness_CalendarClock :
    live.calm = true ∧ live.opens .hspi .rtc = true ∧ live.writable .lc .rtc = true ∧ live.rtc.sub ≤ 32767 ∧ 32767 < live.rtc.len
    ∧ Requester.capture .lc ≠ Requester.capture .ac ∧ (midnight none []).rtc.cmd = none
    ∧ (midnight none []).on Fld.RTC_STATUS_SLEWING = false ∧ (midnight none []).rtc.place ≠ 31 ∧ (midnight none []).rtc.place < 31
    ∧ (midnight none []).rtc.carry = 0 ∧ (midnight (some (.set 0x01000000 0x050001)) []).rtc.cmd = some (.set 0x01000000 0x050001)
    ∧ (calOf 0x01000000 0x050001).isSome = true ∧ (midnight (some .dstAdd) []).rtc.cmd = some .dstAdd
    ∧ (midnight (some (.adj 5)) []).rtc.cmd = some (.adj 5) ∧ (5 : Int).natAbs ≤ (midnight none []).rtcSlewLimit
    ∧ (midnight none []).rtcSlewLimit < (32768 * (-3600) : Int).natAbs
    ∧ (midnight (some (.shift 6 1)) []).rtc.cmd = some (.shift 6 1) ∧ (midnight (some (.shifting 7)) []).rtc.cmd = some (.shifting 7)
    ∧ (midnight none []).rtc.late = false
    ∧ ({ midnight (some .dstAdd) [] with rtc.late := true } : Dev).rtc.cmd = some .dstAdd
    ∧ live.rtc.rc = false ∧ ({ live with rtc.rc := true } : Dev).rtc.rc = true := by decide

/-- The century ends: the year starts again at 00 and TIME_LOST is set (R251). -/
theorem test_sec_century : (after (.sec 0 3000) (midnight none [])).rd Reg.RTC_TIME_LO = 0x01000000
    ∧ bits ((after (.sec 0 3000) (midnight none [])).rd Reg.RTC_TIME_HI) 0 16 = 0x0001
    ∧ (after (.sec 0 3000) (midnight none [])).on Fld.RTC_TIME_HI_TIME_LOST = true := by decide

/-- 29 February exists in 2000 and not in 2001 (R251). -/
theorem test_leap : (calOf 0x29000000 0x0002).isSome = true ∧ (calOf 0x29000000 0x0102).isSome = false
    ∧ calOf 0x01000000 0x000001 = some 0 := by decide

/-- A command accepted in the period that ends at the boundary waits for the next one (R257). -/
theorem test_sec_late : (after (.sec 0 3000) { midnight (some .dstAdd) [] with rtc.late := true }).rtc.cmd = some .dstAdd
    ∧ (after (.sec 0 3000) (midnight (some .dstAdd) [])).rtc.cmd = none := by decide

theorem test_rtcSet_refused : (after (.rtcSet .lc) (put live [(⟨Reg.RTC_SET_LO, 0, 32⟩, 0x32000000)])).f Fld.RTC_CMD_STAT_REASON = 3 := by
  decide

/-! ### Witnesses: tariffs, sessions and records -/

/-- Account 1023 pinned in frame 63, whose 64 words are readable. -/
def tenant (l : List (Field × Nat)) : Dev :=
  (List.range 64).foldl (fun d i => d.putCode 19 (63 * 64 + i) (encodeWord 19 (63 * 64 + i) (if i = 8 then 0xFFFFFFFF else 0)))
    (put live ((⟨Reg.MULE_FRAME 63, 0, 32⟩, 1023 + 2 ^ 16 + 2 ^ 19) :: l))

/-- Outlet 3 can hold a session, and its session is in a state, with tenant account 1023. -/
def session (state : Nat) (l : List (Field × Nat)) : Dev :=
  tenant ([(Fld.ENERGY_OUT_CFG_EN 3, 1), (Fld.ENERGY_OUT_CFG_TYPE_OK 3, 1), (Fld.BILL_SESS_STAT_STATE 3, state),
    (Fld.BILL_SESS_STAT_TENANT 3, 1), (Fld.BILL_SESS_STAT_ACCT 3, 1023), (⟨Reg.BILL_SE 3 1 0, 0, 32⟩, 1)] ++ l)

theorem tenant_words : (List.range 64).all (fun i => ((session 2 []).memPeek 19 (63 * 64 + i)).isSome) = true := by decide

theorem witness_TariffsAndSessions :
    live.writable .lc .tariff = true ∧ live.locked .tariff 0x40 = false ∧ live.domOn .met = true
    ∧ (put live [(Fld.TARIFF_SWPT_EN 15 11, 1), (Fld.TARIFF_SWPT_TARIFF 15 11, 9)]).f (Fld.TARIFF_SWPT_TARIFF 15 11) = 9
    ∧ dateOfSomeYear 2 30 = false ∧ dateExists 99 2 29 = false
    ∧ live.writable .lc .bill = true ∧ (session 0 []).f (Fld.BILL_SESS_STAT_STATE 3) = 0
    ∧ (session 0 []).on (Fld.ENERGY_OUT_CFG_EN 3) = true ∧ (session 0 []).on (Fld.ENERGY_OUT_CFG_TYPE_OK 3) = true
    ∧ live.on (Fld.ENERGY_OUT_CFG_EN 3) = false ∧ (session 0 []).pinnedFrame 1023 = some 63 ∧ (session 0 []).pinnedFrame 1022 = none
    ∧ ({ session 0 [] with bill := { queue := List.replicate 3 [] } } : Dev).bill.queue.length = 3
    ∧ (session 0 []).bill.queue = [] ∧ (session 0 []).bill.step = none ∧ (session 0 []).bill.intr = []
    ∧ (session 2 []).f (Fld.BILL_SESS_STAT_STATE 3) = 2 ∧ (session 2 []).tenantFrame 3 = some 63
    ∧ (session 2 [(Fld.BILL_SESS_STAT_ACCT 3, 1022)]).tenantFrame 3 = none
    ∧ (session 4 []).on (Fld.BILL_SESS_STAT_SETTLED 3) = false
    ∧ (session 4 [(Fld.BILL_SESS_STAT_SETTLED 3, 1)]).on (Fld.BILL_SESS_STAT_SETTLED 3) = true := by decide

theorem test_tblCmdCommit : (after (.tblCmdCommit .lc) (put live [(Fld.TARIFF_SWPT_EN 15 11, 1), (Fld.TARIFF_SWPT_TARIFF 15 11, 9)])).pends
    Ev.TARIFF_TBL_ERR = true := by decide

/-- An override of 8 acts on outlet 3, one of 9 does not (R270). -/
theorem test_tariffOvr : bits ((after (.tariffCtrlWrite .lc .ovr 0x8900) live).rd Reg.ENERGY_ACT_TARIFF) 8 8 = 0x81 := by decide

theorem test_sessOpen : (after (.sessOpen .lc 3 1023 true false) (session 0 [])).f (Fld.BILL_SESS_STAT_STATE 3) = 1
    ∧ (after (.sessOpen .lc 3 1022 true false) (session 0 [])).f Fld.BILL_SESS_RES_RESULT = 3 := by decide

/-- The session's energy is carried into the high word of the account (R280). -/
theorem test_sessClose : (after (.sessClose .lc 3) (session 2 [])).memPeek 19 (63 * 64 + 9) = some 1 := by decide

/-- A body of 92 bytes: type `t` of outlet 3. -/
def body (t : Byte) : List Byte := [t, 0, 3] ++ List.replicate 89 0

def billing (b : Bill) (l : List (Field × Nat)) : Dev := { put live l with bill := b }

theorem witness_RecordRing :
    live.writable .lc .bill = true ∧ (billing { queue := [body 1] } []).bill.out = none ∧ (body 1).length = 92
    ∧ live.bill.queue = [] ∧ (billing { out := some (body 1 ++ List.replicate 68 0) } []).bill.out ≠ none
    ∧ (body 1 ++ List.replicate 68 0).length = 160 ∧ live.bill.reading = none
    ∧ live.rd Reg.BILL_REC_WR ≤ live.rd Reg.BILL_REC_RD_SEQ
    ∧ (billing {} [(⟨Reg.BILL_REC_WR, 0, 32⟩, 2868), (⟨Reg.BILL_REC_RD_SEQ, 0, 32⟩, 1)]).rd Reg.BILL_REC_WR
        ≤ (billing {} [(⟨Reg.BILL_REC_WR, 0, 32⟩, 2868), (⟨Reg.BILL_REC_RD_SEQ, 0, 32⟩, 1)]).rd Reg.BILL_REC_RD_SEQ + 2867
    ∧ (billing {} [(⟨Reg.BILL_REC_WR, 0, 32⟩, 2868)]).rd Reg.BILL_REC_RD_SEQ + 2867
        < (billing {} [(⟨Reg.BILL_REC_WR, 0, 32⟩, 2868)]).rd Reg.BILL_REC_WR
    ∧ (billing { out := some (body 1 ++ List.replicate 68 0), queue := [body 1] } []).bill.badWr = false
    ∧ (billing { out := some (body 1 ++ List.replicate 68 0), queue := [body 1] } []).bill.step = none
    ∧ (billing { out := some (body 1 ++ List.replicate 68 0), queue := [body 1] } []).bill.intr = []
    ∧ (billing { out := some (body 3), badWr := true } []).bill.badWr = true ∧ (billing { reading := some 7 } []).bill.reading = some 7
    ∧ (billing { reading := some 7 } []).bill.badRd = false ∧ (billing { reading := some 7, badRd := true } []).bill.badRd = true
    ∧ leNat ((body 3).take 1) = 3 ∧ leNat (((body 3).drop 2).take 1) = 3 := by decide

/-- A START record done makes the session ACTIVE (R282). -/
theorem test_recDone : (after (.recDone true) (billing { out := some (body 1 ++ List.replicate 68 0), queue := [body 1] }
    [(Fld.BILL_SESS_STAT_STATE 3, 1)])).f (Fld.BILL_SESS_STAT_STATE 3) = 2 := by decide

theorem test_recRdGo : (after (.recRdGo .lc) (billing {} [(⟨Reg.BILL_REC_WR, 0, 32⟩, 2868)])).f Fld.BILL_REC_RD_STAT_RESULT = 1 := by
  decide

/-! ### Witnesses: keypad entries -/

/-- Account 1023 is a tenant (FLAGS 0 and 3) in frame 63; an entry is held. -/
def entering (x : KeyEntry) (flags : Nat) (l : List (Field × Nat)) : Dev :=
  { (tenant l).putCode 19 (63 * 64) (encodeWord 19 (63 * 64) (1023 + 2 ^ 16 + flags * 2 ^ 24)) with prepay := { held := some x } }

/-- A CREDIT token of 5 units with sequence number 1 for account 1023, its verdict GOOD. -/
def credit5 : KeyEntry := { kind := 1, malformed := false, number := 1023 * 2 ^ 56 + 2 ^ 40 + 5 * 2 ^ 24, locked := false, verdict := some true }

theorem witness_EntriesAndLogins :
    live.writable .lc .prepay = true ∧ (entering credit5 1 []).prepay.held = some credit5 ∧ bits 2 0 2 = 2
    ∧ live.prepay.held = none ∧ (entering credit5 1 []).entryAcct credit5 = 1023
    ∧ (entering credit5 1 []).pinnedFrame 1023 = some 63 ∧ credit5.kind ∈ [1, 2, 3] ∧ live.calm = true
    ∧ ({ live with prepay.keys := [3] } : Dev).prepay.keys ≠ [] := by decide

theorem witness_EntriesAndLogins_words :
    (List.range 64).all (fun i => ((entering credit5 1 []).memPeek 19 (63 * 64 + i)).isSome) = true := by decide

/-- The token is accepted and its 5 × 10² are credited (R299, R302). -/
theorem test_entryRelease : (after .entryRelease (entering credit5 1
    [(Fld.PREPAY_CFG_AMT_UNIT, 2), (⟨Reg.PREPAY_CREDIT_MAX, 0, 32⟩, 500)])).memPeek 19 (63 * 64 + 2) = some 500 := by decide

/-- A PIN that does not match increments PIN_FAIL (R299, R304). -/
theorem test_pinFail : (after .entryRelease (entering { kind := 2, malformed := false, number := 1023, locked := false, verdict := some false } 9 [])).memPeek
    19 (63 * 64 + 48) = some 0x10000 := by decide

/-! ### Witnesses: keys, display, lamps -/

def panel (p : Panel) (q : Prepay) (l : List (Field × Nat)) : Dev :=
  { put live ([(Fld.KEYPAD_CTRL_EN, 1), (Fld.PREPAY_CFG_EN, 1)] ++ l) with panel := p, prepay := q }

/-- Twenty digits keyed, all of them 0 (key 13). -/
def keyed : Dev := panel {} { keys := List.replicate 20 13 } [(Fld.PREPAY_ENT_STAT_STATE, 1)]

/-- Key 15 is down, the scan stopped. -/
def unscanned : Dev := put live [(Fld.KEYPAD_KEY_STAT_DOWN, 0x8000), (Fld.KEYPAD_CTRL_EN, 0)]

theorem witness_KeysDisplayAndLamps :
    keyed.domOn .per = true ∧ keyed.on Fld.KEYPAD_CTRL_EN = true ∧ bit (keyed.f Fld.KEYPAD_KEY_STAT_DOWN) 14 = false
    ∧ keyed.panel.multi = false ∧ keyed.keysDown = 0 ∧ keyed.prepayOn = true ∧ keyed.prepay.held = none
    ∧ keyed.prepay.keys.length = 20 ∧ keyed.f Fld.PREPAY_ENT_STAT_STATE = 1 ∧ (∀ k ∈ keyed.prepay.keys, (keyDigit k).isSome = true)
    ∧ (panel {} {} []).f Fld.PREPAY_ENT_STAT_STATE = 0 ∧ (panel {} {} []).prepay.keys = []
    ∧ (panel { fifo := List.replicate 8 0 } {} []).panel.fifo.length = 8
    ∧ (panel {} {} [(Fld.KEYPAD_KEY_STAT_DOWN, 1)]).keysDown ≠ 0
    ∧ bit ((panel {} {} [(Fld.KEYPAD_KEY_STAT_DOWN, 0x8000)]).f Fld.KEYPAD_KEY_STAT_DOWN) 15 = true
    ∧ bit (panel {} {} []).panel.stuck 15 = false ∧ live.calm = true ∧ live.opens .ac .keypad = true
    ∧ (panel { fifo := [5] } {} []).panel.fifo = [5] ∧ live.f Fld.LCD_STATUS_MODE = 0 ∧ live.panel.shown = .item 0
    ∧ (panel {} {} [(Fld.LCD_STATUS_MODE, 2)]).f Fld.LCD_STATUS_MODE = 2
    ∧ unscanned.on Fld.KEYPAD_CTRL_EN = false ∧ unscanned.domOn .per = true
    ∧ bit (unscanned.f Fld.KEYPAD_KEY_STAT_DOWN) 15 = true
    ∧ bit ({ live with lamp.diag := 32 } : Dev).lamp.diag 5 = true ∧ live.writable .lc .lamp = true
    ∧ (put live [(Fld.LAMP_LMP_CFG_EN 5, 1), (Fld.LAMP_LMP_CFG_SHORT_OFF 5, 0)]).on (Fld.LAMP_LMP_CFG_SHORT_OFF 5) = false
    ∧ (put live [(Fld.LAMP_LMP_DUTY_DUTY 5, 47)]).f (Fld.LAMP_LMP_DUTY_DUTY 5) < 48 := by decide

/-- '#' after twenty digits holds a token (R295). -/
theorem test_keyAccepted : (after (.keyAccepted 14 false) keyed).f Fld.PREPAY_ENT_STAT_STATE = 2
    ∧ (after (.keyAccepted 14 false) keyed).pends Ev.PREPAY_ENTRY = true := by decide

/-- The application side reads nothing from the keypad, the legal side the oldest entry (R325). -/
theorem test_keyFifoRead : (after (.keyFifoRead .ac) (panel { fifo := [5, 6] } {} [])).bus = .data 0
    ∧ (after (.keyFifoRead .lc) (panel { fifo := [5, 6] } {} [])).bus = .data 5 := by decide

/-- Lamp 5 in diagnosis, its duty of 48 in force. -/
def lit : Dev :=
  { put live [(Fld.LAMP_LMP_CFG_EN 5, 1), (Fld.LAMP_LMP_DUTY_DUTY 5, 48)] with
    lamp := { diag := 32, duty := #v[0, 0, 0, 0, 0, 48] } }

/-- A lamp that does not reach its current is open (R329). -/
theorem test_lampDiagResult : vGet (after (.lampDiagResult 5 { reached := false, volt := 0 } 0) lit).lamp.res 5 0 = 2 := by decide

/-- With the scan stopped no release is accepted (R324). -/
theorem test_keyReleased : (after (.keyReleased 15) unscanned).f Fld.KEYPAD_KEY_STAT_DOWN = 0x8000
    ∧ (after (.keyReleased 15) (unscanned.setB Fld.KEYPAD_CTRL_EN true)).f Fld.KEYPAD_KEY_STAT_DOWN = 0 := by decide

/-! ### Witnesses: tamper detection -/

/-- Source 13 enabled in a class, a CRYPTO operation in progress. -/
def guarded (class_ : Nat) (l : List (Field × Nat)) : Dev :=
  { put live ([(Fld.GANDER_SRC_CFG_EN 13, 1), (Fld.GANDER_SRC_CFG_CLASS 13, class_)] ++ l) with
    kwk := 77, crypto := { run := some (4, 0, 0) }, gander.differ := 3 }

/-- TMP_IN_0 enabled, tampered with while its ball is high. -/
def opened : Dev := put live [(Fld.GANDER_SRC_CFG_EN 0, 1), (Fld.GANDER_SRC_CFG_POL 0, 1)]

theorem witness_TamperSourcesAndRecords :
    (13 ≠ 7 ∧ 13 ≠ 12) ∧ (guarded 2 []).gander.differ = 3 ∧ ({ guarded 2 [] with gander.same := 3 } : Dev).gander.same = 3
    ∧ live.gander.same ≠ 3 ∧ live.gander.differ ≠ 3 ∧ opened.monitored 0 = true
    ∧ b2n ((1 : BitVec 7).getLsbD 0) = opened.f (Fld.GANDER_SRC_CFG_POL 0) ∧ b2n false ≠ opened.f (Fld.GANDER_SRC_CFG_POL 0)
    ∧ ({ live with gander.hot := 15 } : Dev).f Fld.GANDER_TEMP_CFG_DWELL ≤ 15 ∧ (guarded 2 []).monitored 13 = true ∧ bit ((guarded 2 []).f Fld.GANDER_STATUS_ACTIVE) 13 = false
    ∧ (guarded 2 []).on (Fld.GANDER_SRC_CFG_EN 13) = true ∧ (guarded 2 []).crypto.run ≠ none ∧ (guarded 2 []).domOn .lgl = true
    ∧ bit ((guarded 0 [(Fld.GANDER_STATUS_ACTIVE, 0x2000)]).f Fld.GANDER_STATUS_ACTIVE) 13 = true
    ∧ (put live [(Fld.PWR_SUPPLY_VBAT_ACTIVE, 1)]).monitored 9 = false
    ∧ (put live [(Fld.GANDER_SRC_CFG_EN 13, 0)]).on (Fld.GANDER_SRC_CFG_EN 13) = false
    ∧ (guarded 0 [(Fld.GANDER_REC_CNT_CNT 13, 0xFFFE)]).f (Fld.GANDER_REC_CNT_CNT 13) = 0xFFFE
    ∧ (-32768 : Int) ≤ 32767 ∧ live.gander.hot + 1 < 3 ∧ live.calm = true ∧ live.writable .lc .gander = true
    ∧ live.lifecycle = .blank ∧ (guarded 0 [(Fld.FUSE_LIFECYCLE_STATE, 2)]).lifecycle = .sealed := by decide

/-- An ERASE source destroys the KWK and aborts the operation; an ALERT source only marks it (R336, R337). -/
theorem test_ganderOccurrence : (after (.ganderOccurrence (BitVec.ofNat 14 (2 ^ 13)) 0) (guarded 2 [])).kwk = 0
    ∧ (after (.ganderOccurrence (BitVec.ofNat 14 (2 ^ 13)) 0) (guarded 2 [])).f Fld.CRYPTO_STAT_RESULT = 4
    ∧ (after (.ganderOccurrence (BitVec.ofNat 14 (2 ^ 13)) 0) (guarded 1 [])).kwk = 77 := by decide

/-- A ball at its POL is an occurrence, one at the other level is none (R332). -/
theorem test_ganderOccurrence_ball : bit ((after (.ganderOccurrence 1 1) opened).f Fld.GANDER_STATUS_ACTIVE) 0 = true
    ∧ bit ((after (.ganderOccurrence 1 0) opened).f Fld.GANDER_STATUS_ACTIVE) 0 = false := by decide

theorem test_meshCheck : (after (.meshCheck false) { live with gander.differ := 2 }).f Fld.GANDER_STATUS_ACTIVE = 0x2000
    ∧ (after (.meshCheck false) { live with gander.differ := 1 }).f Fld.GANDER_STATUS_ACTIVE = 0 := by decide

/-! ### Witnesses: the host port -/

/-- The last two words of the DPM hold 7. -/
def hosting : Dev := ((put live [(Fld.I2CT_ADDR_EN, 1), (⟨Reg.I2CT_PTR, 0, 24⟩, 0x1FF8)]).putCode 20 2046 (encodeWord 20 2046 7)).putCode
  20 2047 (encodeWord 20 2047 7)

def porting (p : Ports) (l : List (Field × Nat)) : Dev := { put live l with ports := p }

/-- A read of two words over I2C whose last word is stretched. -/
def stretched : Dev :=
  porting { host := { tx := some { i2c := true, addr := 0x1FF8, next := some .held, closed := true, n := 2 } } } [(Fld.I2CT_ADDR_EN, 1)]

/-- An HSPI frame in progress, the word before held. -/
def holding : Dev := porting { host := { tx := some { i2c := false, addr := 0x110040, held := some 1 } } } [(Fld.I2CT_ADDR_EN, 1)]

theorem witness_HostFramesAndTransactions :
    hosting.domOn .per = true ∧ hosting.domOn .sys = true ∧ hosting.clearing = false ∧ hosting.quiescing .per = false
    ∧ hosting.ports.host.tx = none ∧ 0x1FF8 % 4 = 0 ∧ 0x1FF8 + 4 * 2 ≤ 0x2000
    ∧ (∀ i < 2, hosting.codeword 20 (0x1FF8 / 4 + i) = encodeWord 20 (0x1FF8 / 4 + i) 7)
    ∧ hosting.on Fld.I2CT_ADDR_EN = true ∧ hosting.rd Reg.I2CT_PTR % 4 = 0 ∧ hosting.rd Reg.I2CT_PTR + 4 * 2 ≤ 0x2000
    ∧ hostAddr 0x2000 = none ∧ hostAddr 0x127000 = none ∧ hostAddr 0x126FFC = some (pageBase .watch + 0xFFC)
    ∧ (live.setDom .lgl 0).reaches .lgl = false ∧ (live.setDom .lgl 0).ports.host.tx = none
    ∧ (live.setDom .lgl 0).domOn .per = true ∧ (live.setDom .lgl 0).domOn .sys = true
    ∧ hostAddr 0x10B000 = some (pageBase .fwall + 0)
    ∧ stretched.ports.host.tx.any (·.i2c) = true ∧ stretched.domOn .per = true ∧ stretched.clearing = false
    ∧ holding.ports.host.tx.any (fun x => !x.i2c && x.held.isSome) = true ∧ holding.quiescing .per = false
    ∧ holding.ports.host.tx.any (!·.i2c) = true ∧ holding.on Fld.I2CT_ADDR_EN = true ∧ holding.domOn .sys = true
    ∧ ({ live with pwr.drop := some { dom := .per } } : Dev).quiescing .per = true := by decide

/-- A frame that ends at the last byte of the view of the DPM; one word more is out of range (R382, R386). -/
theorem test_hspiRead : (after (.hspiRead ⟨0x1FF8, 0, none, ⟨true, true⟩⟩ 2 none false 0) hosting).bus = .frame 0x40 [7, 7]
    ∧ (after (.hspiRead ⟨0x1FF8, 0, none, ⟨true, true⟩⟩ 3 none false 0) hosting).f Fld.HSPI_HOST_STAT_LAST_ERR = 2 := by decide

theorem test_hspiWrite : (after (.hspiWrite ⟨0x1FFC, 3, none, ⟨true, true⟩⟩ [0x12345678] 0) hosting).memPeek 20 2047 = some 0x12345678
    ∧ (after (.hspiWrite ⟨0x1FFE, 3, none, ⟨true, true⟩⟩ [0x12345678] 0) hosting).f Fld.HSPI_HOST_STAT_LAST_ERR = 3 := by decide

/-- A frame in two parts ends with its last one (R383). -/
theorem test_hspiWrite_parts :
    (after (.hspiWrite ⟨0x1FF8, 0, none, ⟨true, false⟩⟩ [1] 0) hosting).ports.host.tx.isSome = true
    ∧ (after (.hspiWrite ⟨0x1FF8, 0, none, ⟨false, true⟩⟩ [2] 0)
        (after (.hspiWrite ⟨0x1FF8, 0, none, ⟨true, false⟩⟩ [1] 0) hosting)).memPeek 20 2047 = some 2 := by decide

theorem test_i2cRead : (after (.i2cRead 2 0 none false ⟨true, true⟩) hosting).rd Reg.I2CT_PTR = 0x2000 := by decide

/-- A copy of the last word of S15 to the last word of the DPM. -/
def copying (owner : Nat) : Dev :=
  { (put live [(Fld.MEMCTL_BANK_OWN_OWNER 15, owner)]).putCode 15 8191 (encodeWord 15 8191 9) with
    ports := { dma := some ⟨2047, 15, 8191, 1, true⟩ } }

def serial (u : Uart) (l : List (Field × Nat)) : Dev := { put live ([(Fld.UART_CFG_EN, 1)] ++ l) with ports := { uart := u } }

/-- Three bytes wait for the ring: word 8191 of S15, owned by HOSTDMA. -/
def ringing : Dev := serial { rx := [1, 2, 3] } [(Fld.UART_DMA_CFG_EN 0, 1), (Fld.UART_DMA_CFG_BANK 0, 15),
  (Fld.UART_DMA_CFG_WORD0 0, 8191), (Fld.UART_DMA_LEN_LEN 0, 1), (Fld.MEMCTL_BANK_OWN_OWNER 15, 6)]

/-- The ring of records is accessed. -/
def ringWrite (b : Bill) : Dev := { live with mule := { store := .ready }, bill := b }

theorem witness_HostDmaMspiAndUart :
    live.writable .hspi .hspi = true ∧ live.locked .hspi 0x40 = false ∧ live.ports.dma = none
    ∧ (copying 6).ports.dma = some ⟨2047, 15, 8191, 1, true⟩ ∧ (copying 6).clearing = false
    ∧ (copying 6).domOn (bankDom 15) = true ∧ (copying 6).domOn .per = true
    ∧ (copying 6).codeword 15 8191 = encodeWord 15 8191 9 ∧ (copying 6).f (Fld.MEMCTL_BANK_OWN_OWNER 15) = 6
    ∧ (copying 3).f (Fld.MEMCTL_BANK_OWN_OWNER 15) ≠ 6
    ∧ ({ live with mule := { op := some ⟨.lc, 1023⟩ } } : Dev).framBusy = true ∧ live.domOn .per = true
    ∧ live.writable .lc .mspi = true ∧ live.locked .mspi 0x40 = false ∧ Requester.lc.legal = true
    ∧ (put live [(Fld.MULE_CTRL_EN, 1)]).on Fld.MULE_CTRL_EN = true ∧ live.on Fld.MULE_CTRL_EN = false ∧ live.ports.dir = none
    ∧ (porting { dir := some ⟨true, 64⟩ } []).ports.dir = some ⟨true, 64⟩ ∧ (List.replicate 64 (1 : Byte)).length = 64
    ∧ (copying 6).on (Fld.MEMCTL_BANK_OWN_IN_TRANSIT 15) = false
    ∧ (ringWrite { out := some [], reading := none }).framBusy = true ∧ (ringWrite { reading := some 7 }).framBusy = true
    ∧ (ringWrite { reading := some 7 }).bill.out = none ∧ (ringWrite {}).mule.op = none ∧ (ringWrite {}).mule.store = .ready
    ∧ (ringWrite {}).mule.epoch = none
    ∧ live.calm = true ∧ live.pwr.pllS = true := by decide

theorem witness_HostDmaMspiAndUart_uart :
    (serial {} []).domOn .per = true ∧ (serial {} []).on Fld.UART_CFG_EN = true ∧ (serial {} []).uartDma 0 = false
    ∧ (serial { rx := List.replicate 16 0 } []).ports.uart.rx.length = 16 ∧ ringing.uartDma 0 = true
    ∧ ringing.ports.uart.rx.length = 3 ∧ ringing.ports.uart.stop = false ∧ ringing.f (Fld.UART_DMA_LEN_LEN 0) ≠ 0
    ∧ ringing.f (Fld.UART_DMA_CFG_WORD0 0) + ringing.f (Fld.UART_DMA_PTR_PTR 0) = 8191
    ∧ ringing.f (Fld.MEMCTL_BANK_OWN_OWNER 15) = 6 ∧ ringing.domOn (bankDom 15) = true
    ∧ (serial { out := some 5, tx := List.replicate 16 1 } []).ports.uart.out = some 5 ∧ (serial {} []).uartDma 1 = false
    ∧ (serial {} []).writable .lc .uart = true ∧ (serial {} []).locked .uart 0x40 = false
    ∧ (serial {} []).ports.uart.out = none ∧ (serial {} []).ports.uart.tx = []
    ∧ (serial { rx := [1], out := some 5 } []).ports.uart.rx.length < 4 := by decide

theorem test_hspiDmaDone : (after (.hspiDmaDone none) (copying 6)).memPeek 20 2047 = some 9
    ∧ (after (.hspiDmaDone none) (copying 3)).pends Ev.HSPI_DMA_ERR = true := by decide

/-- The fourth byte completes a word of the ring, least significant byte first (R403). -/
theorem test_uartRxByte : (after (.uartRxByte 4 false false) ringing).memPeek 15 8191 = some 0x04030201 := by decide

theorem test_mspiDirectGo : (after (.mspiDirectGo .lc 0) (put live [(Fld.MULE_CTRL_EN, 1), (Fld.FUSE_LIFECYCLE_STATE, 0)])).f
    Fld.MSPI_STAT_RESULT = 3 := by decide

/-! ### Witnesses: start-up -/

/-- The legal image runs and calls a service of the boot ROM at `pc`. -/
def calling (pc : Word) (b : Boot) (o : Otp) (l : List (Field × Nat)) : Dev :=
  { put live ([(Fld.SYSCTL_BOOT_STAT_STAGE, 1)] ++ l) with boot := b, otp := o, lc := { on := true, pc := pc } }

theorem witness_BootServicesAndFuses :
    live.domOn .lgl = true ∧ (put live [(Fld.FWALL_LWDG_CFG_TMO, 1000)]).lwdgTmo ≠ 0 ∧ live.boot.lfl = none
    ∧ live.on Fld.SYSCTL_BOOT_STAT_OTP_ERR = false ∧ live.lifecycle ≠ .retired ∧ ({ digests := [(5, 7)] } : Otp).active = some 5
    ∧ (calling 0x100 {} {} []).serviceOpen = true ∧ (calling 0x100 {} {} []).lc.pc = 0x100
    ∧ bit ((calling 0x100 {} {} []).slots .app) 0 = false
    ∧ bit ((calling 0x100 {} {} [(⟨Reg.PWR_VOTE Dom.app.num, 0, 1⟩, 1)]).slots .app) 0 = true
    ∧ (calling 0x100 {} {} [(⟨Reg.PWR_VOTE Dom.app.num, 0, 1⟩, 1)]).domOn .app = true
    ∧ (calling 0x100 {} {} []).boot.firstCall = true
    ∧ (calling 0x104 {} {} [(Fld.FUSE_LIFECYCLE_STATE, 3)]).lifecycle = .unsealed
    ∧ (calling 0x104 {} {} [(Fld.FUSE_LIFECYCLE_STATE, 3)]).rd Reg.FWALL_IMG_LEN ≤ 0x3F000
    ∧ (calling 0x104 {} {} [(⟨Reg.FWALL_IMG_LEN, 0, 32⟩, 0x3F001)]).rd Reg.FWALL_IMG_LEN = 0x3F001
    ∧ live.writable .lc .sysctl = true ∧ live.writable .ac .sysctl = true ∧ live.locked .sysctl 0x40 = false
    ∧ live.f Fld.SYSCTL_AC_CTRL_HOLD = 0 ∧ live.writable .lc .fuse = true ∧ live.boot.prog = none
    ∧ (calling 0 { prog := some (.lifecycle .retired) } {} []).boot.prog = some (.lifecycle .retired) := by decide

/-- A cold start waits for UFA before its seal load (R413). -/
def sealing : Dev :=
  { put live [(Dev.domField .ufa, 1), (⟨Reg.PWR_VOTE Dom.ufa.num, 0, 16⟩, 0x100)] with
    boot := { rom := true, phase := .writing .image }, pwr.up := some .ufa }

theorem witness_BootServicesAndFuses_seal :
    (rwuDoms.all live.domOn) = true ∧ sealing.domOn .ufa = false ∧ Dom.ufa ∈ rwuDoms ∧ sealing.boot.rom = true
    ∧ sealing.boot.phase = .writing .image ∧ sealing.pwr.up = some .ufa ∧ sealing.buckReady = true
    ∧ (∀ x ∈ rwuDoms, x ≠ .ufa → sealing.domOn x = true) ∧ sealing.slots .ufa = 0x100 ∧ sealing.pwr.entry = none
    ∧ sealing.pwr.drop = none ∧ sealing.pwr.waking = none ∧ sealing.watch.checking = false := by decide

/-- The domains that hold RWU fields, by their pages (R413). -/
theorem test_rwuDoms : rwuDoms.length = 5 ∧ ∀ x ∈ [Dom.sys, .lgl, .met, .ufa, .ufd], x ∈ rwuDoms := by decide

theorem witness_ResetsAndColdStart :
    live.writable .lc .sysctl = true ∧ Requester.lc.legal = true ∧ Dev.reset.pwr.cold = .due
    ∧ Dev.reset.on Fld.PWR_SUPPLY_VBAT_ACTIVE = false := by decide

/-- PROVISION needs a DEV_ID (R424); a failed burn bars its target. -/
theorem test_provision : (after (.provision .lc) live).f Fld.FUSE_PROG_STAT_RESULT = 1
    ∧ (after (.provision .lc) { live with otp := { devId := 1 } }).boot.prog = some (.lifecycle .provisioned)
    ∧ (after (.provision .lc) { live with otp := { devId := 1, lifeFailed := [.provisioned] } }).boot.prog = none := by decide

/-- Without a vote of the LC for APP, APP_BOOT answers 5 (R417). -/
theorem test_appBoot : (after .appBoot (calling 0x100 {} {} [])).lc.get 10 = 5 := by decide

theorem test_sealStore_refused : (after (.sealStore true) (calling 0x104 {} {} [])).lc.get 10 = 1 := by decide

/-- The loader serves; the last command had SEQ 9. -/
def loading (l : List (Field × Nat)) : Dev := calling 0x108 { loader := some { endless := false, seq := some 9 } } {} l

/-- The 64 words of the DPM from AFL_SRC on. -/
def aflSource : Dev := (List.range 64).foldl (fun d i => d.putCode 20 (1984 + i) (encodeWord 20 (1984 + i) 7))
  (put live [(Fld.SYSCTL_AFL_SRC_WORD, 1984)])

theorem aflSource_words : (List.range 64).all (fun i => aflSource.f Fld.SYSCTL_AFL_SRC_WORD + i < 2048
    && aflSource.codeword 20 (aflSource.f Fld.SYSCTL_AFL_SRC_WORD + i)
      == encodeWord 20 (aflSource.f Fld.SYSCTL_AFL_SRC_WORD + i) 7) = true := by decide

theorem witness_LoaderAndApplicationFlash :
    (calling 0x108 {} {} []).serviceOpen = true ∧ (loading []).boot.loader = some { endless := false, seq := some 9 }
    ∧ (loading []).domOn .per = true ∧ (loading []).domOn .app = true ∧ (9 : Byte).toNat = 9 ∧ (some 9 ≠ some (10 : Byte).toNat)
    ∧ (loading []).lifecycle ≠ .retired ∧ (loading [(Fld.FUSE_LIFECYCLE_STATE, 3)]).lifecycle = .unsealed
    ∧ (loading [(Fld.FUSE_LIFECYCLE_STATE, 4)]).lifecycle = .retired
    ∧ (loading []).otp.freeSlot = some 0 ∧ fullOtp.freeSlot = none ∧ (loading []).f Fld.SYSCTL_BOOT_STAT_STAGE = 1
    ∧ (loading []).lc.pc = 0x108
    ∧ (calling 0x108 { loader := some { endless := false, lflProg := true } } {} []).domOn .lgl = true
    ∧ live.writable .lc .sysctl = true ∧ live.writable .ac .sysctl = true ∧ live.boot.afl = none ∧ live.domOn .app = true
    ∧ (put live [(Fld.FUSE_LIFECYCLE_STATE, 4)]).lifecycle = .retired
    ∧ (calling 0 { afl := some (.prog 8191 (List.replicate 256 7)) } {} []).boot.afl = some (.prog 8191 (List.replicate 256 7))
    ∧ (calling 0 { afl := some (.eraseSector 8191) } {} []).boot.afl = some (.eraseSector 8191) := by decide

theorem foldl_putCode (n k : Nat) (h : k + n ≤ 8192) : ∀ (d : Dev), ∀ i < n,
    ((List.range' k n).foldl (fun d w => d.putCode 20 w (encodeWord 20 w 7)) d).codeword 20 (k + i) = encodeWord 20 (k + i) 7 := by
  induction n generalizing k with
  | zero => intro d i hi; omega
  | succ n ih =>
    intro d i hi
    rw [List.range'_succ, List.foldl_cons]
    cases i with
    | zero =>
      have keep : ∀ (l : List Nat) (d : Dev), (∀ w ∈ l, k < w ∧ w < 8192) →
          (l.foldl (fun d w => d.putCode 20 w (encodeWord 20 w 7)) d).codeword 20 k = d.codeword 20 k := by
        intro l
        induction l with
        | nil => intro d _; rfl
        | cons w l ihl =>
          intro d hw
          have h1 := hw w (by simp)
          rw [List.foldl_cons, ihl _ fun x hx => hw x (List.mem_cons_of_mem _ hx),
            Dev.codeword_putCode _ _ _ _ _ _ h1.2 (by omega), if_neg (by omega)]
      show Dev.codeword _ 20 k = encodeWord 20 k 7
      rw [keep _ _ fun w hw => by rw [List.mem_range'_1] at hw; omega, Dev.codeword_putCode _ _ _ _ _ _ (by omega) (by omega),
        if_pos ⟨rfl, rfl⟩]
    | succ i =>
      have := ih (k + 1) (by omega) (d.putCode 20 k (encodeWord 20 k 7)) i (by omega)
      rwa [show k + 1 + i = k + (i + 1) by omega] at this

/-- Such a block: 1,024 words of the DPM from 0x400 on. -/
theorem witness_LoaderAndApplicationFlash_block : ∃ d : Dev, d.boot.loader = some { endless := false, seq := some 9 }
    ∧ ∀ i < 1024, d.codeword 20 (0x400 + i) = encodeWord 20 (0x400 + i) 7 := by
  refine ⟨(List.range' 0x400 1024).foldl (fun d w => d.putCode 20 w (encodeWord 20 w 7)) (loading []), ?_,
    foldl_putCode 1024 0x400 (by omega) _⟩
  have boot : ∀ (l : List Nat) (d : Dev), (l.foldl (fun d w => d.putCode 20 w (encodeWord 20 w 7)) d).boot = d.boot := by
    intro l
    induction l with
    | nil => intro d; rfl
    | cons w l ih => intro d; rw [List.foldl_cons, ih]; rfl
  rw [boot]
  rfl

/-- A command with a new SEQ writes SEQ, READY and BADOP into DPM word 1; the same SEQ again does nothing (R421). -/
theorem test_loader : (after (.loader (some 10)) (loading [])).memPeek 20 1 = some 0x0A000103
    ∧ (after (.loader (some 9)) (loading [])).pends Ev.SYSCTL_LDR_CMD = false := by decide

theorem test_aflProg_retired : (after (.aflProg .ac 0 none) (put live [(Fld.FUSE_LIFECYCLE_STATE, 4)])).f Fld.SYSCTL_AFL_STAT_RESULT = 1 := by
  decide

end Sys2Proof.Tests
end

section
/-! SUPPORT. R355, R356: what the work of the hardware leaves of the chip's need for its domains.  Most of it leaves the need
alone (`Dev.Eases`); what settles the events may also end a need or undo a drop, and keeps the device at rest
(`Dev.Rests`). -/

namespace Sys2Proof.Machine

/-! ### Work that calls for nothing -/

/-- The registers from which the need for a domain is told: the state of the chip and the votes (R345). -/
def needRegs : List Nat := Reg.PWR_STATE :: Dom.all.map fun x => Reg.PWR_VOTE x.num

def tellsNeed (a : Nat) : Bool := needRegs.contains a

/-- From `d` to `e` the drop in progress and what is asked for stay, but for a need that ends; the chip's state stays, but
for IDLE, which may have been left for a RUN point. -/
structure Dev.Eases (d e : Dev) : Prop where
  drop : e.pwr.drop = d.pwr.drop
  slots : ∀ x, e.slots x = d.slots x
  cur : e.cur = d.cur ∨ d.cur = .idle ∧ (e.cur = .runNormal ∨ e.cur = .runHigh)
  entry : e.pwr.entry.map (·.target) = d.pwr.entry.map (·.target)
  waking : e.pwr.waking = d.pwr.waking
  cold : e.pwr.cold = .rising → d.pwr.cold = .rising
  checking : e.watch.checking = d.watch.checking

theorem slots_reg (x : Dom) : tellsNeed (Fld.PWR_VOTE_SLOTS x.num).reg = true := by cases x <;> decide

theorem eventPend_tells (p : Page) : tellsNeed (Reg.EVT_PEND p) = false := by cases p <;> decide

theorem Dev.slots_of_f {d e : Dev} {x : Dom} (h : e.f (Fld.PWR_VOTE_SLOTS x.num) = d.f (Fld.PWR_VOTE_SLOTS x.num)) :
    e.slots x = d.slots x := by
  simp only [Dev.slots, h]

theorem Dev.cur_of_f {d e : Dev} (h : e.f Fld.PWR_STATE_CUR = d.f Fld.PWR_STATE_CUR) : e.cur = d.cur := by
  simp only [Dev.cur, h]

namespace Dev.Eases

variable {d e g : Dev}

theorem refl (d : Dev) : d.Eases d := ⟨rfl, fun _ => rfl, .inl rfl, rfl, rfl, id, rfl⟩

theorem trans (h : d.Eases e) (k : e.Eases g) : d.Eases g where
  drop := k.drop.trans h.drop
  slots x := (k.slots x).trans (h.slots x)
  cur := by
    rcases h.cur with h1 | ⟨h1, h2⟩ <;> rcases k.cur with k1 | ⟨k1, k2⟩
    · exact .inl (k1.trans h1)
    · exact .inr ⟨h1 ▸ k1, k2⟩
    · exact .inr ⟨h1, k1 ▸ h2⟩
    · exact .inr ⟨h1, k2⟩
  entry := k.entry.trans h.entry
  waking := k.waking.trans h.waking
  cold := h.cold ∘ k.cold
  checking := k.checking.trans h.checking

/-- Only units have changed, not the sequencer and not WATCH. -/
theorem units (hr : e.regs = d.regs) (hp : e.pwr = d.pwr) (hw : e.watch.checking = d.watch.checking) : d.Eases e where
  drop := by rw [hp]
  slots _ := Dev.slots_of_f (Dev.f_of_rd (Dev.rd_of_regs hr _))
  cur := .inl (Dev.cur_of_f (Dev.f_of_rd (Dev.rd_of_regs hr _)))
  entry := by rw [hp]
  waking := by rw [hp]
  cold := by rw [hp]; exact id
  checking := hw

/-- Of the sequencer nothing has changed that tells the need. -/
theorem pwr (p : Pwr) (hd : p.drop = d.pwr.drop := by rfl)
    (he : p.entry.map (·.target) = d.pwr.entry.map (·.target) := by rfl) (hw : p.waking = d.pwr.waking := by rfl)
    (hc : p.cold = .rising → d.pwr.cold = .rising := by exact id) : d.Eases { d with pwr := p } :=
  ⟨hd, fun _ => rfl, .inl rfl, he, hw, hc, rfl⟩

theorem watch (w : Watch) (h : w.checking = d.watch.checking := by rfl) : d.Eases { d with watch := w } := units rfl rfl h

theorem ports (p : Ports) : d.Eases { d with ports := p } := units rfl rfl rfl

theorem edges (l : List Nat) : d.Eases { d with edges := l } := units rfl rfl rfl

theorem setMissed (n : Nat) (b : Bool) : d.Eases (d.setMissed n b) := units rfl rfl rfl

theorem uptimeNow : d.Eases d.uptimeNow.2 := units rfl rfl rfl

theorem wr (a v : Nat) (h : tellsNeed a = false) : d.Eases (d.wr a v) where
  drop := rfl
  slots x := Dev.slots_of_f (Dev.f_wr_ne d v _ fun e => by simp [← e, slots_reg] at h)
  cur := .inl (Dev.cur_of_f (Dev.f_wr_ne d v _ fun e => by revert h; rw [← e]; decide))
  entry := rfl
  waking := rfl
  cold := id
  checking := rfl

theorem setF (f : Field) (v : Nat) (h : tellsNeed f.reg = false) : d.Eases (d.setF f v) := wr _ _ h

/-- A field of PWR.STATE beside CUR. -/
theorem setState (f : Field) (v : Nat) (hr : f.reg = Reg.PWR_STATE) (hl : 4 ≤ f.lo) (hw : f.lo + f.width ≤ 32) :
    d.Eases (d.setF f v) where
  drop := rfl
  slots x := Dev.slots_of_f (Dev.f_setF_ne d _ _ _ (by rw [hr]; cases x <;> decide))
  cur := .inl (Dev.cur_of_f (Dev.f_setF_disj d _ _ _ hr.symm hw (.inl hl)))
  entry := rfl
  waking := rfl
  cold := id
  checking := rfl

theorem raise (n : Nat) : d.Eases (d.raise n) := units rfl rfl rfl

theorem ite {c : Prop} [Decidable c] (h : d.Eases e) : d.Eases (if c then e else d) := by
  split
  exacts [h, refl d]

theorem foldl {α : Type} (l : List α) (op : Dev → α → Dev) (h : ∀ x (d : Dev), x ∈ l → d.Eases (op d x)) :
    ∀ d : Dev, d.Eases (l.foldl op d) := by
  induction l with
  | nil => exact refl
  | cons x t ih => exact fun d => (h x d (by simp)).trans (ih (fun y d hy => h y d (by simp [hy])) _)

theorem upto (n : Nat) (op : Nat → Dev → Dev) (h : ∀ i < n, ∀ d : Dev, d.Eases (op i d)) (d : Dev) :
    d.Eases (Machine.forUpto n op d) :=
  foldl _ _ (fun i d hi => h i (by simpa using hi) d) d

/-! ### No new need -/

theorem holds (h : d.Eases e) : e.cur.holds = d.cur.holds := by
  rcases h.cur with hc | ⟨hc, hr | hr⟩
  · rw [hc]
  · rw [hc, hr]; rfl
  · rw [hc, hr]; rfl

theorem needsSelf (h : d.Eases e) {x : Dom} (hx : e.needsSelf x = true) : d.needsSelf x = true := by
  have hc := h.cold
  simp only [Dev.needsSelf, h.slots, h.holds, h.waking, h.checking, Bool.or_eq_true, Bool.and_eq_true, beq_iff_eq] at hx ⊢
  tauto

theorem needs (h : d.Eases e) {x : Dom} (hx : e.needs x = true) : d.needs x = true := by
  have hs := @h.needsSelf
  simp only [Dev.needs, Bool.or_eq_true, Bool.and_eq_true, List.any_eq_true] at hx ⊢
  rcases hx with (hx | hx) | ⟨hx, c, hc, hp, hn⟩
  · exact .inl (.inl hx)
  · exact .inl (.inr (hs hx))
  · exact .inr ⟨hx, c, hc, hp, hs hn⟩

theorem wanted (h : d.Eases e) {x : Dom} (hx : e.wanted x = true) : d.wanted x = true := by
  have he := h.entry
  unfold Dev.wanted at hx ⊢
  cases h1 : d.pwr.entry <;> cases h2 : e.pwr.entry <;> simp only [h1, h2, Option.map] at he hx ⊢
  · exact h.needs hx
  · simp at he
  · simp at he
  · simp only [Option.some.injEq] at he
    simp only [Bool.and_eq_true, he] at hx ⊢
    exact ⟨hx.1, h.needs hx.2⟩

end Dev.Eases

/-! ### Work that keeps the device at rest -/

theorem Dev.dropSound_iff (d : Dev) :
    d.dropSound = true ↔ ∀ q, d.pwr.drop = some q → q.decided = false → d.wanted q.dom = false := by
  unfold Dev.dropSound
  cases d.pwr.drop with
  | none => simp
  | some q => cases hq : q.decided <;> simp [hq]

theorem Dev.dropSound_of_none {d : Dev} (h : d.pwr.drop = none) : d.dropSound = true := by simp [Dev.dropSound, h]

/-- From `d` to `e` no undecided drop comes to be of a domain that is needed (R356), and IDLE is not entered (R355). -/
structure Dev.Rests (d e : Dev) : Prop where
  sound : d.dropSound = true → e.dropSound = true
  awake : d.cur ≠ .idle → e.cur ≠ .idle

theorem Dev.Eases.rests {d e : Dev} (h : d.Eases e) : d.Rests e where
  sound hd := by
    rw [Dev.dropSound_iff] at hd ⊢
    intro q hq hu
    have := hd q (h.drop ▸ hq) hu
    by_contra hw
    simp [h.wanted (eq_true_of_ne_false hw)] at this
  awake hd := by
    rcases h.cur with hc | ⟨hc, -⟩
    · rwa [hc]
    · exact absurd hc hd

namespace Dev.Rests

variable {d e g : Dev}

theorem refl (d : Dev) : d.Rests d := ⟨id, id⟩

theorem trans (h : d.Rests e) (k : e.Rests g) : d.Rests g := ⟨k.sound ∘ h.sound, k.awake ∘ h.awake⟩

theorem foldl {α : Type} (l : List α) (op : Dev → α → Dev) (h : ∀ x (d : Dev), d.Rests (op d x)) :
    ∀ d : Dev, d.Rests (l.foldl op d) := by
  induction l with
  | nil => exact refl
  | cons x t ih => exact fun d => (h x d).trans (ih _)

end Dev.Rests

variable (d : Dev)

theorem Dev.clearRequest_eases : d.Eases d.clearRequest :=
  .trans (.setState Fld.PWR_STATE_TARGET 0 rfl (by decide) (by decide))
    (.setState Fld.PWR_STATE_BUSY 0 rfl (by decide) (by decide))

theorem Dev.setSlots_cur (x : Dom) (v : Nat) : (d.setSlots x v).cur = d.cur := by
  unfold Dev.setSlots
  split
  · rfl
  · exact Dev.cur_of_f (Dev.f_setF_ne d _ _ _ (by cases x <;> decide))

theorem Dev.enter_cur (t : PState) : (d.enter t).cur = t := by
  have h : (d.enter t).f Fld.PWR_STATE_CUR = t.code := by
    rw [Dev.enter, Dev.f_raise, Dev.f_setF_same _ _ _ (by decide)]
    cases t <;> rfl
  rw [Dev.cur, h]
  cases t <;> rfl

/-- R355: what leaves IDLE for a RUN point, whatever came before it, eases. -/
theorem Dev.Eases.leaveIdle {d e : Dev} (h : d.Eases e) (hc : d.cur = .idle) : d.Eases e.leaveIdle where
  drop := h.drop
  slots x := (Dev.slots_of_f (Dev.f_setF_ne e Fld.PWR_STATE_CUR _ _ (by cases x <;> decide))).trans (h.slots x)
  cur := .inr ⟨hc, by
    rw [Dev.leaveIdle, Dev.enter_cur]
    split <;> simp⟩
  entry := h.entry
  waking := h.waking
  cold := h.cold
  checking := h.checking

/-! ### Drops undone -/

theorem Dev.abortDrop_drop : d.abortDrop.pwr.drop = none := by
  unfold Dev.abortDrop
  split
  · rfl
  · assumption

theorem Dev.abortDrop_cur : d.abortDrop.cur = d.cur := by
  unfold Dev.abortDrop
  split
  · rename_i q _
    refine Dev.cur_of_f ?_
    simp only [Dev.f_raise, Dev.incF]
    rw [Dev.f_setF_ne _ _ _ _ (by cases q.dom <;> decide), Dev.f_setF_ne _ _ _ _ (by decide),
      Dev.f_setF_ne _ _ _ _ (by decide)]
    rfl
  · rfl

theorem Dev.dropCheck_cur : d.dropCheck.cur = d.cur := by
  unfold Dev.dropCheck
  split
  · split
    · rfl
    · split
      · rfl
      · exact d.abortDrop_cur
  · rfl

/-- R356: the check leaves no undecided drop of a domain that is needed. -/
theorem Dev.dropCheck_sound : d.dropCheck.dropSound = true := by
  unfold Dev.dropCheck
  split
  · rename_i q hq
    split
    · rename_i hw
      rw [Dev.dropSound_iff]
      intro q' h' _
      rw [hq] at h'
      cases h'
      simpa using hw
    · split
      · rename_i hd
        simp [Dev.dropSound, hd]
      · exact Dev.dropSound_of_none d.abortDrop_drop
  · exact Dev.dropSound_of_none ‹_›

/-- R353: the end of an entry undoes the drop that it asked for where something needs the domain. -/
theorem Dev.abortEntry_sound : d.abortEntry.dropSound = true := by
  unfold Dev.abortEntry
  dsimp only
  split
  · rename_i q hq
    split
    · exact Dev.dropSound_of_none (Dev.abortDrop_drop _)
    · rename_i hw
      refine (Dev.Eases.raise _).rests.sound ((Dev.dropSound_iff _).2 fun q' h' hu => ?_)
      rw [hq] at h'
      cases h'
      simpa [hu] using hw
  · exact Dev.dropSound_of_none ‹_›

theorem Dev.abortEntry_rests : d.Rests d.abortEntry where
  sound _ := d.abortEntry_sound
  awake h := by
    have hc := (Dev.clearRequest_eases { d with pwr.entry := none }).rests.awake h
    unfold Dev.abortEntry
    dsimp only
    split
    · split
      · rwa [Dev.abortDrop_cur]
      · exact hc
    · exact hc

/-! ### Wakes (R366–R368) -/

theorem Dev.startWake_sound : d.startWake.dropSound = true := Dev.dropCheck_sound _

theorem Dev.startWake_cur : d.startWake.cur = d.cur := by
  have h : ∀ (l : List Dom) (e : Dev), (l.foldl (fun d x =>
      if x != .aon && bit (d.rd Reg.PWR_WAKE_CFG) x.num then d.hwSlot x 5 true else d) e).cur = e.cur := by
    intro l
    induction l with
    | nil => exact fun _ => rfl
    | cons x t ih =>
      intro e
      rw [List.foldl_cons, ih]
      split
      · exact e.setSlots_cur _ _
      · rfl
  rw [Dev.startWake, Dev.dropCheck_cur, h]
  rfl

theorem Dev.startWake_rests : d.Rests d.startWake := ⟨fun _ => d.startWake_sound, fun h => d.startWake_cur ▸ h⟩

theorem Dev.recordWake_eases (cs : List Nat) (c : Nat) : d.Eases (d.recordWake cs c) := by
  unfold Dev.recordWake
  exact .trans (.trans (.trans (.trans (.trans (.trans (.wr _ _ (by decide)) (.wr _ _ (by decide))) (.wr _ _ (by decide)))
    (.wr _ _ (by decide))) .uptimeNow) (.wr _ _ (by decide))) (.pwr _)

theorem Dev.joinWake_eases (cs : List Nat) : d.Eases (d.joinWake cs) :=
  .trans (.wr _ _ (by decide)) (.setF _ _ (by decide))

theorem Dev.idleOver_eases : d.Eases d.idleOver := by
  unfold Dev.idleOver
  split
  · rename_i h
    exact (Dev.Eases.refl d).leaveIdle (by simpa using h)
  · exact .refl d

theorem Dev.startColdWake_eases : d.Eases d.startColdWake := .pwr _ (hc := by simp)

theorem Dev.wakeShut_eases : d.Eases d.wakeShut := .pwr _

theorem Dev.wakeAct_rests (cs : List Nat) : d.Rests (d.wakeAct cs) := by
  have wakes : ∀ n, d.Rests (d.recordWake cs n).startWake := fun n => (d.recordWake_eases _ _).rests.trans (Dev.startWake_rests _)
  unfold Dev.wakeAct
  split
  · rename_i e he
    split
    · exact ((d.recordWake_eases cs _).trans (.pwr _ (he := congrArg (Option.map (·.target)) he.symm))).rests
    · exact ((((d.recordWake_eases _ _).trans (Dev.wakeShut_eases _)).rests.trans (Dev.abortEntry_rests _)).trans
        (Dev.idleOver_eases _).rests).trans (Dev.Eases.raise _).rests
  · dsimp only
    split
    · exact .refl d
    · exact .refl d
    · rename_i hi
      have hw := (d.recordWake_eases cs d.cur.code).trans (Dev.wakeShut_eases _)
      exact ((hw.leaveIdle hi).trans (.raise _)).rests
    · exact wakes _
    · exact wakes _
    · exact ((d.recordWake_eases _ _).trans (Dev.startColdWake_eases _)).rests
    · split
      · exact ((d.recordWake_eases _ _).trans (.watch _)).rests
      · exact wakes _

theorem Dev.wakeRequest_rests (cs : List Nat) : d.Rests (d.wakeRequest cs) := by
  unfold Dev.wakeRequest
  dsimp only
  split
  · exact .refl d
  · split
    · exact d.wakeAct_rests _
    · have h : d.Eases d.wakePeriod.2 := by
        unfold Dev.wakePeriod
        split
        · exact .refl d
        · exact .uptimeNow
      split <;> rename_i hp <;> rw [hp] at h
      · exact (h.trans (Dev.joinWake_eases _ _)).rests
      · exact h.rests

/-! ### The settling of events (R30, R433) -/

theorem Dev.faultLog_eases (n : Nat) : d.Eases (d.faultLog n) := by
  unfold Dev.faultLog
  split
  · have hn : d.f Fld.EVTMX_FLOG_WR_IDX < 16 := bits_lt _ _ _
    have h1 : ∀ n < 16, tellsNeed (Reg.EVTMX_FLOG_EVT n) = false := by decide
    have h2 : ∀ n < 16, tellsNeed (Reg.EVTMX_FLOG_CYC n) = false := by decide
    exact .trans (.trans (.trans (.wr _ _ (h1 _ hn)) (.wr _ _ (h2 _ hn))) (.setF _ _ (by decide))) (.wr _ _ (by decide))
  · exact .refl d

theorem capRegs_tell : ∀ n < 4, tellsNeed (Reg.MAE_CAP_ANG n) = false ∧ tellsNeed (Reg.MAE_CAP_CYC n) = false := by decide

theorem Dev.captureNow_eases (n : Nat) (h : n < 4) : d.Eases (d.captureNow n) := by
  obtain ⟨ha, hc⟩ := capRegs_tell n h
  exact .trans (.trans (.trans (.trans (.trans (.wr _ _ hc) (.setF (Fld.MAE_CAP_ANG_ANG n) _ ha))
    (.setF (Fld.MAE_CAP_ANG_STATE n) _ ha)) (.setF (Fld.MAE_CAP_ANG_FULL n) _ ha)) (.setMissed _ _)) (.raise _)

theorem Dev.capture_eases (n c : Nat) (h : c < 4) : d.Eases (d.capture n c) := by
  unfold Dev.capture
  split
  · split
    · split
      · exact .refl d
      · exact .trans (.trans (.setF (Fld.MAE_CAP_ANG_OVR c) _ (capRegs_tell c h).1) (.setMissed _ _)) (.raise _)
    · exact d.captureNow_eases c h
  · exact .refl d

theorem Dev.forward_rests (n : Nat) : d.Rests (d.forward n) := by
  unfold Dev.forward
  split
  · exact d.wakeRequest_rests _
  · exact .refl d

theorem Dev.settleOne_rests (n : Nat) : d.Rests (d.settleOne n) := by
  unfold Dev.settleOne
  split
  · exact .refl d
  · rename_i p k _
    split
    · have h := (Dev.Eases.wr (d := d) (Reg.EVT_PEND p) (d.rd (Reg.EVT_PEND p) ||| 2 ^ k) (eventPend_tells p)).trans
        (Dev.faultLog_eases _ n)
      dsimp only
      split
      · exact (h.trans (.upto 4 _ (fun c hc e => e.capture_eases n c hc) _)).rests.trans (Dev.forward_rests _ n)
      · exact h.rests.trans (Dev.forward_rests _ n)
    · exact .refl d

theorem Dev.settleRounds_rests : ∀ (n : Nat) (d : Dev), d.Rests (d.settleRounds n)
  | 0, _ => (Dev.Eases.edges []).rests
  | n + 1, d => by
    unfold Dev.settleRounds
    split
    · exact .refl d
    · exact ((Dev.Eases.edges []).rests.trans (.foldl _ _ (fun x e => e.settleOne_rests x) _)).trans
        (Dev.settleRounds_rests n _)

theorem Dev.idleExit_eases : d.Eases d.idleExit := by
  unfold Dev.idleExit
  split
  · rename_i h
    simp only [Bool.and_eq_true, beq_iff_eq] at h
    exact (Dev.Eases.refl d).leaveIdle h.1
  · exact .refl d

theorem Dev.settle_rests : d.Rests d.settle :=
  ((Dev.settleRounds_rests 16 d).trans (Dev.idleExit_eases _).rests).trans (Dev.settleRounds_rests 4 _)

theorem Dev.settleRounds_nil (n : Nat) (h : d.edges = []) : Dev.settleRounds (n + 1) d = d := by
  rw [Dev.settleRounds, h]

theorem Dev.idleQuiet_of_awake {d : Dev} (h : d.cur ≠ .idle) : d.idleQuiet = true := by simp [Dev.idleQuiet, h]

/-- R355: after the settling the chip is not in IDLE while an event is forwarded to a core. -/
theorem Dev.settle_idleQuiet : d.settle.idleQuiet = true := by
  have hn : (Dev.settleRounds 16 d).edges = [] := Dev.settleRounds_edges 16 d
  unfold Dev.settle
  generalize Dev.settleRounds 16 d = e at hn ⊢
  unfold Dev.idleExit
  split
  · refine Dev.idleQuiet_of_awake ((Dev.settleRounds_rests 4 _).awake ?_)
    rw [Dev.leaveIdle, Dev.enter_cur]
    split <;> simp
  · rename_i h
    rw [Dev.settleRounds_nil e 3 hn]
    simp only [Bool.and_eq_true, Bool.or_eq_true, beq_iff_eq, not_and, not_or, Bool.not_eq_true] at h
    by_cases hi : e.cur = .idle
    · simp [Dev.idleQuiet, h hi]
    · exact Dev.idleQuiet_of_awake hi

end Sys2Proof.Machine
end

section
/-! SUPPORT. What accesses to the memories, HERD and the UART leave as it was: the power sequencer, WATCH, the boot ROM, the
host transaction, MULE's store, and the registers that tell the need for domains or count the failures of MSPI. -/

namespace Sys2Proof.Machine

/-- The registers that neither an access to the memories nor HERD nor the UART writes. -/
def sparedRegs : List Nat := Reg.MSPI_FAIL_CNT :: needRegs

def spared (a : Nat) : Bool := sparedRegs.contains a

theorem spared_of_tellsNeed {a : Nat} (h : tellsNeed a = true) : spared a = true := by
  simp only [tellsNeed, List.contains_eq_mem, decide_eq_true_eq] at h
  simp [spared, sparedRegs, h]

/-- `e` is what such work has made of `d`. -/
structure Dev.Works (d e : Dev) : Prop where
  rd : ∀ a, spared a = true → e.rd a = d.rd a
  bus : e.bus = d.bus
  pwr : e.pwr = d.pwr
  watch : e.watch = d.watch
  boot : e.boot = d.boot
  host : e.ports.host = d.ports.host
  store : e.mule.store = d.mule.store

namespace Dev.Works

variable {d e g : Dev}

theorem refl (d : Dev) : d.Works d := ⟨fun _ _ => rfl, rfl, rfl, rfl, rfl, rfl, rfl⟩

theorem trans (h : d.Works e) (k : e.Works g) : d.Works g :=
  ⟨fun a ha => (k.rd a ha).trans (h.rd a ha), k.bus.trans h.bus, k.pwr.trans h.pwr, k.watch.trans h.watch,
    k.boot.trans h.boot, k.host.trans h.host, k.store.trans h.store⟩

theorem wr (a v : Nat) (h : spared a = false) : d.Works (d.wr a v) :=
  ⟨fun b hb => Dev.rd_wr_ne d v (by rintro rfl; simp [h] at hb), rfl, rfl, rfl, rfl, rfl, rfl⟩

theorem setF (f : Field) (v : Nat) (h : spared f.reg = false) : d.Works (d.setF f v) := wr _ _ h

theorem raise (n : Nat) : d.Works (d.raise n) := ⟨fun _ _ => rfl, rfl, rfl, rfl, rfl, rfl, rfl⟩

theorem raiseIf (c : Bool) (n : Nat) : d.Works (d.raiseIf c n) := by cases c; exacts [refl d, raise n]

theorem putCode (b w : Nat) (c : Codeword) : d.Works (d.putCode b w c) := ⟨fun _ _ => rfl, rfl, rfl, rfl, rfl, rfl, rfl⟩

theorem mem (m : Mem) : d.Works { d with mem := m } := ⟨fun _ _ => rfl, rfl, rfl, rfl, rfl, rfl, rfl⟩

theorem herd (h : Herd) : d.Works { d with herd := h } := ⟨fun _ _ => rfl, rfl, rfl, rfl, rfl, rfl, rfl⟩

theorem ports (p : Ports) (h : p.host = d.ports.host := by rfl) : d.Works { d with ports := p } :=
  ⟨fun _ _ => rfl, rfl, rfl, rfl, rfl, h, rfl⟩

theorem mule (m : Mule) (h : m.store = d.mule.store := by rfl) : d.Works { d with mule := m } :=
  ⟨fun _ _ => rfl, rfl, rfl, rfl, rfl, rfl, h⟩

theorem foldl {α : Type} (l : List α) (op : Dev → α → Dev) (h : ∀ x (d : Dev), x ∈ l → d.Works (op d x)) :
    ∀ d : Dev, d.Works (l.foldl op d) := by
  induction l with
  | nil => exact refl
  | cons x t ih => exact fun d => (h x d (by simp)).trans (ih (fun y d hy => h y d (by simp [hy])) _)

theorem upto (n : Nat) (op : Nat → Dev → Dev) (h : ∀ i < n, ∀ d : Dev, d.Works (op i d)) (d : Dev) :
    d.Works (Machine.forUpto n op d) :=
  foldl _ _ (fun i d hi => h i (by simpa using hi) d) d

/-- Such work calls for no domain. -/
theorem eases (h : d.Works e) : d.Eases e where
  drop := by rw [h.pwr]
  slots x := Dev.slots_of_f (Dev.f_of_rd (h.rd _ (spared_of_tellsNeed (slots_reg x))))
  cur := .inl (Dev.cur_of_f (Dev.f_of_rd (h.rd _ (by decide))))
  entry := by rw [h.pwr]
  waking := by rw [h.pwr]
  cold := by rw [h.pwr]; exact id
  checking := by rw [h.watch]

end Dev.Works

variable (d : Dev)

/-! ### Memories (R181–R190) -/

theorem bankCounter_spared : ∀ b < 32, spared (Reg.MEMCTL_ECC_CNT b) = false := by decide

theorem bankOwner_spared : ∀ b < 16, spared (Reg.MEMCTL_BANK_OWN b) = false := by decide

theorem Dev.nonOwner_works (g b w : Nat) : d.Works (d.nonOwner g b w) :=
  .trans (.trans (.wr _ _ (by decide)) (.wr _ _ (by decide))) (.raise _)

theorem Dev.eccRecord_works (g b w : Nat) (cls : EccClass) (σ : Nat) (rmw : Bool) : d.Works (d.eccRecord g b w cls σ rmw) :=
  .trans (.trans (.wr _ _ (by decide)) (.wr _ _ (by decide))) (.raiseIf _ _)

theorem Dev.corrected_works (g : Nat) {b : Nat} (w : Nat) (cls : EccClass) (σ : Nat) (rmw : Bool) (h : b < 32) :
    d.Works (d.corrected g b w cls σ rmw) := by
  have hc := (Dev.Works.setF (d := d) (Fld.MEMCTL_ECC_CNT_CE b) (satInc 16 (d.f (Fld.MEMCTL_ECC_CNT_CE b)))
    (bankCounter_spared b h)).trans ((Dev.eccRecord_works _ g b w cls σ rmw).trans (.raise Ev.MEMCTL_CE))
  unfold Dev.corrected
  dsimp only
  split
  · exact (hc.trans (.mem _)).trans (.raise _)
  · exact hc

theorem Dev.uncorrectable_works (g : Nat) {b : Nat} (w : Nat) (cls : EccClass) (σ : Nat) (rmw : Bool) (h : b < 32) :
    d.Works (d.uncorrectable g b w cls σ rmw) :=
  .trans (.trans (.trans (.setF (Fld.MEMCTL_ECC_CNT_UE b) _ (bankCounter_spared b h)) (Dev.eccRecord_works _ _ _ _ _ _ _))
    (.raise _)) (.raiseIf _ _)

theorem Dev.readRow_works (g : Nat) {b : Nat} (w row : Nat) (rmw : Bool) (h : b < 32) :
    d.Works (d.readRow g b w row rmw).2 := by
  unfold Dev.readRow
  dsimp only
  split
  · exact .refl d
  · exact (Dev.Works.putCode _ _ _).trans (Dev.corrected_works _ _ _ _ _ _ h)
  · exact (Dev.Works.putCode _ _ _).trans (Dev.corrected_works _ _ _ _ _ _ h)
  · exact d.uncorrectable_works g w .addr _ rmw h
  · exact d.uncorrectable_works g w .unc _ rmw h

theorem Dev.memRead_works (g : Nat) {b : Nat} (w : Nat) (h : b < 32) : d.Works (d.memRead g b w).2 := by
  unfold Dev.memRead
  split
  · exact d.readRow_works g w w false h
  · exact d.nonOwner_works g b w

theorem Dev.memWrite_works (g b w x : Nat) : d.Works (d.memWrite g b w x).2 := by
  unfold Dev.memWrite
  split
  · exact .putCode _ _ _
  · exact d.nonOwner_works g b w

theorem Dev.memReadMany_works (g : Nat) {b : Nat} (h : b < 32) : ∀ (n : Nat) (d : Dev) (w : Nat),
    d.Works (d.memReadMany g b w n).2
  | 0, d, _ => .refl d
  | n + 1, d, w => by
    have hr := d.memRead_works g w h
    unfold Dev.memReadMany
    split <;> rename_i he <;> rw [he] at hr
    · exact hr
    · rename_i x e
      have hm := Dev.memReadMany_works g h n e (w + 1)
      split <;> rename_i hf <;> rw [hf] at hm <;> exact hr.trans hm

theorem Dev.drained_works (g b : Nat) : d.Works (d.drained g b) := by
  unfold Dev.drained Dev.handoverDone
  split
  · rename_i h
    simp only [Bool.and_eq_true, decide_eq_true_eq] at h
    split
    · exact .trans (.setF (Fld.MEMCTL_BANK_OWN_IN_TRANSIT b) _ (bankOwner_spared b h.1)) (.raise _)
    · exact .refl d
  · exact .refl d

/-! ### SYS at work again after a check (R81, R357, R380, R381) -/

theorem Dev.setTask_works (t : HTask) : d.Works (d.setTask t) := .herd _

theorem Dev.descErr_works : d.Works d.descErr := .trans (.wr _ _ (by decide)) (.raise _)

theorem Dev.readDesc_works (i : Nat) : d.Works (d.readDesc i).2 := by
  have h := Dev.memReadMany_works 7 (b := 21) (by decide) 4 d (4 * i)
  unfold Dev.readDesc
  split <;> rename_i he <;> rw [he] at h <;> exact h

theorem Dev.arm_works (i : Nat) : d.Works (d.arm i) := by
  have h := d.readDesc_works i
  unfold Dev.arm
  split <;> rename_i he <;> rw [he] at h
  · dsimp only
    split
    · exact h.trans (Dev.setTask_works _ _)
    · exact h.trans (Dev.descErr_works _)
  · exact h.trans (Dev.descErr_works _)

theorem Dev.herdRearm_works : d.Works d.herdRearm := by
  unfold Dev.herdRearm
  dsimp only
  refine .trans (.trans (.herd {}) (.foldl _ _ (fun i e _ => ?_) _)) (.raise _)
  have h := e.memRead_works 7 (b := 21) (4 * i + 1) (by decide)
  split <;> rename_i he <;> rw [he] at h
  · split
    · exact h.trans (Dev.arm_works _ _)
    · exact h
  · exact h

theorem Dev.saveRead_works (w : Nat) : d.Works (d.saveRead w).2 := by
  have h := d.memRead_works 7 (b := 22) w (by decide)
  unfold Dev.saveRead
  split <;> rename_i he <;> rw [he] at h
  · exact h
  · exact h.trans (.trans (.trans (.setF _ _ (by decide)) (.setF _ _ (by decide))) (.raise _))

theorem saveRegs_spared : ∀ i < (saveRegs .sys).length, spared (((saveRegs .sys)[i]?).getD 0) = false := by decide

theorem Dev.restoreSys_works : d.Works (d.restoreRegs .sys) := by
  unfold Dev.restoreRegs
  refine .upto _ _ (fun i hi e => ?_) d
  have h := e.saveRead_works (saveBase .sys + i)
  split <;> rename_i he <;> rw [he] at h
  · exact h.trans (.wr _ _ (saveRegs_spared i hi))
  · exact h

theorem Dev.sysStart_works (cold : Bool) : d.Works (d.sysStart cold) := by
  unfold Dev.sysStart
  split
  · exact .refl d
  · have halted : ∀ e : Dev, e.Works (e.level Ev.HERD_HALTED (!e.on Fld.HERD_CTRL_EN)).herdRearm := fun e =>
      .trans (.trans (.setF (eventRaw Ev.HERD_HALTED) _ (by decide)) (.raiseIf _ _)) (Dev.herdRearm_works _)
    dsimp only
    split
    · exact d.restoreSys_works.trans (halted _)
    · exact halted d

/-! ### The UART goes on (R356, R403) -/

theorem uartRegs_spared : ∀ x < 2, spared (Reg.UART_DMA_CFG x) = false ∧ spared (Reg.UART_DMA_PTR x) = false := by decide

theorem Dev.uartStop_works {x : Nat} (h : x < 2) : d.Works (d.uartStop x) :=
  .setF (Fld.UART_DMA_CFG_EN x) _ (uartRegs_spared x h).1

theorem Dev.uartWord_bank {x w : Nat} {p : Nat × Nat} (h : d.uartWord x w = some p) : p.1 < 32 := by
  have hb : d.f (Fld.UART_DMA_CFG_BANK x) < 2 ^ 4 := bits_lt _ _ _
  unfold Dev.uartWord at h
  dsimp only at h
  split at h
  · cases h
    omega
  · cases h

theorem Dev.uartRing_works : ∀ (n : Nat) (d : Dev), d.Works (Dev.uartRing n d)
  | 0, d => .refl d
  | n + 1, d => by
    unfold Dev.uartRing
    dsimp only
    split
    · split
      · exact d.uartStop_works (by decide)
      · rename_i b w _
        have h := (d.drained_works 6 b).trans (Dev.memWrite_works _ 6 b w (leNat (d.ports.uart.rx.take 4)))
        split <;> rename_i he <;> rw [he] at h
        · exact ((h.trans (.ports _)).trans (.setF (Fld.UART_DMA_PTR_PTR 0) _ (by decide))).trans (Dev.uartRing_works n _)
        · exact h.trans (Dev.uartStop_works _ (by decide))
    · exact .refl d

theorem Dev.uartDmaByte_works : d.Works d.uartDmaByte.2 := by
  unfold Dev.uartDmaByte
  dsimp only
  split
  · split
    · exact d.uartStop_works (by decide)
    · rename_i b w hw
      have h := (d.drained_works 6 b).trans (Dev.memRead_works _ 6 w (d.uartWord_bank hw))
      split <;> rename_i he <;> rw [he] at h
      · exact h.trans (.setF (Fld.UART_DMA_PTR_PTR 1) _ (by decide))
      · exact h.trans (Dev.uartStop_works _ (by decide))
  · exact .refl d

theorem Dev.uartSend_works : d.Works d.uartSend := by
  unfold Dev.uartSend
  split
  · split
    · exact .ports _
    · have h := d.uartDmaByte_works
      split <;> rename_i he <;> rw [he] at h
      · exact h.trans (.ports _)
      · exact h
  · exact .refl d

theorem Dev.uartGo_works : d.Works d.uartGo := by
  unfold Dev.uartGo
  split
  · exact .trans (.trans (.ports _) (Dev.uartSend_works _)) (Dev.uartRing_works 4 _)
  · exact .refl d

end Sys2Proof.Machine
end

section
/-! SUPPORT. R345, R356: the follow-up work between the drop check and the settling calls for no domain. -/

namespace Sys2Proof.Machine

variable (d : Dev)

theorem Dev.wakeCheck_eases : d.Eases d.wakeCheck := by
  unfold Dev.wakeCheck Dev.leaveCheck
  split
  · split
    · exact .trans (.watch _) (Dev.sysStart_works _ _).eases
    · exact .refl d
  · exact .refl d

/-! ### A host transaction ends (R356, R383) -/

theorem Dev.setTx_eases (f : HostTx → HostTx) : d.Eases (d.setTx f) := by
  unfold Dev.setTx
  split
  · exact .units rfl rfl rfl
  · exact .refl d

theorem Dev.i2cResult_eases (fail : Option (Nat × Nat)) : d.Eases (d.i2cResult fail) := by
  unfold Dev.i2cResult
  split
  · exact .trans (.trans (.trans (.setF _ _ (by decide)) (.wr _ _ (by decide))) (.setF _ _ (by decide))) (.raise _)
  · exact .refl d

theorem Dev.hspiResult_eases (fail : Option (Nat × Nat)) (coll limit : Bool) : d.Eases (d.hspiResult fail coll limit) := by
  unfold Dev.hspiResult
  dsimp only
  refine .trans (.trans (.trans ?_ (.ite (.setF _ _ (by decide)))) (.ite (.trans (.setF _ _ (by decide)) (.raise _))))
    (.ports _)
  split
  · exact .trans (.trans (.trans (.setF _ _ (by decide)) (.wr _ _ (by decide))) (.setF _ _ (by decide))) (.raise _)
  · exact .refl d

theorem Dev.txEnd_eases : d.Eases d.txEnd := by
  unfold Dev.txEnd
  split
  · exact .refl d
  · dsimp only
    split
    · exact .trans (.ports _) (Dev.i2cResult_eases _ _)
    · exact .trans (.ports _) (Dev.hspiResult_eases _ _ _ _)

theorem Dev.txAbort_eases : d.Eases d.txAbort := by
  unfold Dev.txAbort Dev.txFail
  split
  · exact (d.setTx_eases _).trans (Dev.txEnd_eases _)
  · exact .refl d

end Sys2Proof.Machine
end

section
/-! SUPPORT. The follow-up work of every command leaves the device at rest (R30, R355, R356, R433; log entry 3). -/

namespace Sys2Proof.Machine

variable (d : Dev)

/-! ### A request that waited starts (R352, R353) -/

theorem Dev.pinRequest_rests : d.Rests d.pinRequest := by
  unfold Dev.pinRequest
  split
  · exact d.wakeRequest_rests _
  · exact .refl d

/-- The drop in progress and the request that waits are those of `d`. -/
def Dev.Waits (d e : Dev) : Prop := e.pwr.drop = d.pwr.drop ∧ e.pwr.pend = d.pwr.pend

theorem Dev.runTo_waits (t : PState) : d.Waits (d.runTo t) := by
  unfold Dev.runTo
  split <;> exact ⟨rfl, rfl⟩

theorem Dev.toRun_waits (t : PState) : d.Waits (d.toRun t) := by
  unfold Dev.toRun
  split
  · exact d.leaveIdle.runTo_waits t
  · exact ⟨rfl, rfl⟩
  · exact d.runTo_waits t

theorem Dev.watchCapture_waits : d.Waits d.watchCapture := by
  unfold Dev.watchCapture
  split <;> exact ⟨rfl, rfl⟩

/-- What becomes of an accepted request (R352, R353). -/
theorem Dev.requestStart_cases {P : Dev → Prop} (t : PState) (run : ∀ t, P (d.toRun t)) (stay : P d.clearRequest)
    (idle : ∀ e, d.Waits e → P e.pinRequest) (void : ∀ e, d.Waits e → P e.abortEntry)
    (enter : ∀ e, d.Waits e → P e.pinRequest.entryTryComplete) : P (d.requestStart t) := by
  unfold Dev.requestStart
  split
  · exact run _
  · exact run _
  · split
    · exact stay
    · exact idle _ ⟨rfl, rfl⟩
  · dsimp only
    split
    · split
      · exact void _ d.watchCapture_waits
      · exact enter _ d.watchCapture_waits
    · split
      · exact void _ ⟨rfl, rfl⟩
      · exact enter _ ⟨rfl, rfl⟩

theorem Dev.withdraw_pwr (t : PState) : ∀ (l : List Dom) (d : Dev),
    (l.foldl (fun d x => if t.allows x then d else d.setSlots x (d.slots x &&& 0xFFC7)) d).pwr = d.pwr
  | [], _ => rfl
  | x :: l, d => by
    rw [List.foldl_cons, Dev.withdraw_pwr t l]
    unfold Dev.setSlots
    split
    · rfl
    · split <;> rfl

/-- An entry waits, or ends with no drop in progress; a wake that came too late for it acts once it has ended (R353). -/
theorem Dev.entryTryComplete_cases {P : Dev → Prop} (wait : P d) (done : d.pwr.drop = none → ∀ e, d.Waits e → P e)
    (cold : d.pwr.drop = none → ∀ e, d.Waits e → P e.startColdWake)
    (wake : d.pwr.drop = none → ∀ e, d.Waits e → P e.startWake) : P d.entryTryComplete := by
  unfold Dev.entryTryComplete
  split
  · exact wait
  · rename_i e _
    split
    · exact wait
    · rename_i hd
      simp only [Bool.or_eq_true, not_or, Bool.not_eq_true, Option.isSome_eq_false_iff, Option.isNone_iff_eq_none] at hd
      have hw := Dev.withdraw_pwr e.target Dom.all d
      have ends : ∀ x, d.Waits x → P (if e.rewake then
          let x := (x.setF Fld.PWR_SEQ_DOM 15).raise Ev.PWR_DROP_REWAKE
          if e.target == .off then x.startColdWake else x.startWake
        else x) := fun x hx => by
        split
        · dsimp only
          split
          · exact cold hd.1 _ hx
          · exact wake hd.1 _ hx
        · exact done hd.1 x hx
      refine ends _ ?_
      generalize Dom.all.foldl _ d = g at hw ⊢
      split <;> exact ⟨congrArg (·.drop) hw, congrArg (·.pend) hw⟩

/-- An entry ends with no drop in progress, or waits for the one that there is. -/
theorem Dev.entryTryComplete_sound (h : d.dropSound = true) : d.entryTryComplete.dropSound = true :=
  d.entryTryComplete_cases (P := fun e => e.dropSound = true) h (fun hd _ he => Dev.dropSound_of_none (he.1.trans hd))
    (fun hd _ he => Dev.dropSound_of_none (he.1.trans hd)) (fun _ e _ => e.startWake_sound)

theorem Dev.requestStart_sound (t : PState) (h : d.pwr.drop = none) : (d.requestStart t).dropSound = true := by
  have pinned : ∀ e, d.Waits e → e.pinRequest.dropSound = true := fun e he =>
    e.pinRequest_rests.sound (Dev.dropSound_of_none (he.1.trans h))
  exact d.requestStart_cases (P := fun e => e.dropSound = true) t
    (fun t => Dev.dropSound_of_none ((d.toRun_waits t).1.trans h)) (Dev.dropSound_of_none h) pinned
    (fun e _ => e.abortEntry_sound) (fun e he => Dev.entryTryComplete_sound _ (pinned e he))

theorem Dev.pendStart_sound (h : d.dropSound = true) : d.pendStart.dropSound = true := by
  unfold Dev.pendStart
  split
  · exact h
  · rename_i t _
    split
    · exact h
    · rename_i hs
      refine Dev.requestStart_sound _ t ?_
      simp only [Dev.seqRuns, Bool.or_eq_true, not_or, Option.isSome_iff_ne_none, not_not] at hs
      obtain ⟨⟨⟨⟨hd, -⟩, -⟩, -⟩, -⟩ := hs
      exact hd

theorem Dev.upBegin_eases : d.Eases d.upBegin := by
  unfold Dev.upBegin
  split
  · exact .refl d
  · exact .pwr _

/-! ### Every command -/

/-- Whatever a command has done, its follow-up work leaves the device at rest. -/
theorem Dev.finish_rest : d.finish.rest = true := by
  have hs : ∀ e : Dev, e.dropCheck.txAbort.uartGo.wakeCheck.pendStart.upBegin.settle.rest = true := fun e => by
    have h1 := (e.dropCheck.txAbort_eases.trans (Dev.uartGo_works _).eases).trans (Dev.wakeCheck_eases _)
    have h2 := Dev.pendStart_sound _ (h1.rests.sound e.dropCheck_sound)
    have h3 := ((Dev.upBegin_eases _).rests.trans (Dev.settle_rests _)).sound h2
    simp [Dev.rest, Dev.settled, Dev.settle_edges, Dev.settle_idleQuiet, h3]
  exact hs _

/-- Every command answers a next state, with the follow-up work of its effect done. -/
theorem exec_finish (c : Instr) (s : State) : ∃ d : Dev, exec c s = .next { s with dev := d.finish } := by
  cases c <;> exact ⟨_, rfl⟩

/-- Settles O3: a step executes a command, whose follow-up work leaves the device at rest, or idles on an empty queue. -/
theorem everyStepLeavesRest : Obligations.EveryStepLeavesRest := by
  intro s t hr hst
  unfold step at hst
  split at hst
  · cases hst
    exact hr
  · rename_i c rest _
    obtain ⟨d, hd⟩ := exec_finish c { s with pending := rest }
    rw [hd] at hst
    cases hst
    exact d.finish_rest

end Sys2Proof.Machine
end

section
/-! SUPPORT. What HERD and MULE tell each other after a command (R73, R78) while MULE serves no requests. -/

namespace Sys2Proof.Machine

variable (d : Dev)

/-! ### Holds and misses (R74, R78) -/

theorem Dev.frameOf_lt {n f : Nat} (h : d.frameOf n = some f) : f < 64 := by
  simpa using List.mem_of_find?_eq_some h

theorem frameReg_spared : ∀ f < 64, spared (Reg.MULE_FRAME f) = false := by decide

theorem Dev.ctxRelease_works (n : Nat) : d.Works (d.ctxRelease n) := by
  unfold Dev.ctxRelease
  split
  · rename_i f hf
    exact .setF (Fld.MULE_FRAME_HOLD f) _ (frameReg_spared f (d.frameOf_lt hf))
  · exact .refl d

theorem Dev.ctxHold_works (n k : Nat) : d.Works (d.ctxHold n k) := by
  unfold Dev.ctxHold
  split
  · rename_i f hf
    exact .setF (Fld.MULE_FRAME_HOLD f) _ (frameReg_spared f (d.frameOf_lt hf))
  · exact .refl d

theorem Dev.releaseHolds_works (i : Nat) : d.Works (d.releaseHolds i) := by
  unfold Dev.releaseHolds
  refine .trans (.herd _) (.foldl _ _ (fun h e _ => ?_) _)
  split
  · exact e.ctxRelease_works _
  · exact .refl e

theorem Dev.endOneshot_works (i : Nat) : d.Works (d.endOneshot i) := by
  have h := d.memRead_works 7 (b := 21) (4 * i + 1) (by decide)
  unfold Dev.endOneshot
  dsimp only
  split <;> rename_i he <;> rw [he] at h
  · split
    · exact (h.trans (.putCode _ _ _)).trans (Dev.setTask_works _ _)
    · exact h
  · exact h

theorem missRegs_spared : ∀ n < 16, spared (Reg.HERD_MISS_CYC n) = false ∧ spared (Reg.HERD_MISS_INFO n) = false := by decide

theorem Dev.missed_works (i cause : Nat) : d.Works (d.missed i cause) := by
  have ht := (d.releaseHolds_works i).trans (Dev.setTask_works _ { ((d.releaseHolds i).task i).close with lastCause := cause })
  unfold Dev.missed
  dsimp only
  generalize (d.releaseHolds i).setTask _ = e at ht ⊢
  obtain ⟨hc, hi⟩ := missRegs_spared (e.f Fld.HERD_MISS_WR_IDX) (bits_lt _ _ _)
  exact ht.trans (.trans (.trans (.trans (.trans (.trans (.trans (.wr _ _ hc) (.wr _ _ hi)) (.setF _ _ (by decide)))
    (.raiseIf _ _)) (.wr _ _ (by decide))) (.raise _)) (Dev.endOneshot_works _ _))

theorem Dev.ctxMissed_works (i : Nat) : d.Works (d.ctxMissed i) := by
  unfold Dev.ctxMissed
  dsimp only
  split
  · exact d.missed_works i 4
  · exact (d.setTask_works _).trans (Dev.missed_works _ i 4)

/-- R73: a task that is complete gives its holds back. -/
theorem Dev.unitsDone_works : d.Works d.unitsDone := by
  unfold Dev.unitsDone
  refine .foldl _ _ (fun u e _ => ?_) d
  split
  · exact .trans (.herd _) (.foldl _ _ (fun p g _ => g.releaseHolds_works _) _)
  · exact .refl e

theorem Dev.muleReports_works : d.Works d.muleReports := by
  unfold Dev.muleReports
  refine .trans (.mule _) (.foldl _ _ (fun p e _ => ?_) _)
  unfold Dev.herdContext
  dsimp only
  split
  · exact (e.ctxHold_works _ _).trans (.herd _)
  · exact .foldl _ _ (fun h g _ => g.ctxMissed_works _) e

/-! ### Requests that waited (R78, R212) -/

theorem Dev.pageErr_works (acct cause src : Nat) : d.Works (d.pageErr acct cause src) :=
  .trans (.trans (.wr _ _ (by decide)) (.raiseIf _ _)) (.raise _)

theorem Dev.ctxAsk_notReady (n : Nat) (h : d.mule.store ≠ .ready) : d.ctxAsk n = (some false, d.pageErr n causeNoStore 1) := by
  have hr : d.muleReady = false := by simp [Dev.muleReady, h]
  simp [Dev.ctxAsk, hr]

theorem Dev.askContexts_works (i : Nat) : ∀ (cs : List Nat) (d : Dev), d.mule.store ≠ .ready → d.Works (Dev.askContexts i cs d)
  | [], d, _ => .refl d
  | c :: cs, d, h => by
    unfold Dev.askContexts
    split
    · exact Dev.askContexts_works i cs d h
    · split
      · exact .trans (.herd _) (Dev.askContexts_works i cs _ h)
      · rw [d.ctxAsk_notReady c h]
        exact (d.pageErr_works _ _ _).trans (Dev.ctxMissed_works _ i)

/-- While MULE serves no requests, those that waited fail, and no epoch is touched. -/
theorem Dev.askWaiting_works : ∀ (n : Nat) (d : Dev), d.mule.store ≠ .ready → d.Works (Dev.askWaiting n d)
  | 0, d, _ => .refl d
  | n + 1, d, h => by
    unfold Dev.askWaiting
    split
    · rename_i i c rest _
      split
      · have hc := Dev.askContexts_works i [c] { d with herd.asks := rest } h
        exact (Dev.Works.trans (.herd _) hc).trans (Dev.askWaiting_works n _ (by rw [hc.store]; exact h))
      · exact .refl d
    · exact .refl d

/-! ### Requests do not change what MULE's store is -/

theorem Dev.pageFail_store (q : PageReq) (cause : Nat) : (d.pageFail q cause).mule.store = d.mule.store := by
  have h := (d.pageErr_works q.acct cause q.src.code).store
  unfold Dev.pageFail
  dsimp only
  split
  · split <;> exact h
  · exact h
  · exact h
  · exact h

theorem Dev.pageServed_store (q : PageReq) (f : Nat) : (d.pageServed q f).mule.store = d.mule.store := by
  unfold Dev.pageServed
  split
  · rfl
  · rfl
  · split
    · exact d.pageFail_store q causePinFull
    · rw [Dev.wr_mule, Dev.setF_mule]
  · rw [Dev.wr_mule, Dev.setF_mule]

theorem Dev.markDirty_mule : ∀ (l : List Nat) (d : Dev), (l.foldl (fun d f => d.setF (Fld.MULE_FRAME_DIRTY f) 1) d).mule = d.mule
  | [], _ => rfl
  | f :: l, d => by rw [List.foldl_cons, Dev.markDirty_mule l, Dev.setF_mule]

theorem Dev.epochDrop_store (cause : Nat) : (d.epochDrop cause).mule.store = d.mule.store := by
  unfold Dev.epochDrop
  split
  · rename_i e _
    have h := congrArg Mule.store (Dev.markDirty_mule e.dirty { d with mule.epoch := none })
    dsimp only
    split <;> exact h
  · rfl

theorem Dev.stageAsk_store (w : Nat) : (d.stageAsk w).2.mule.store = d.mule.store := by
  unfold Dev.stageAsk
  split
  · rfl
  · split
    · exact (d.drained_works _ _).store
    · exact (d.nonOwner_works 3 d.stageBank w).store

theorem Dev.snapAsk_store (e : Epoch) : (d.snapAsk e).2.mule.store = d.mule.store := d.stageAsk_store _

theorem Dev.muleNext_store : ∀ (n : Nat) (d : Dev), (Dev.muleNext n d).mule.store = d.mule.store
  | 0, _ => rfl
  | n + 1, d => by
    unfold Dev.muleNext
    split
    · rfl
    · split
      · dsimp only
        split
        · exact (Dev.muleNext_store n _).trans (Dev.pageServed_store _ _ _)
        · rfl
      · split
        · rename_i e _
          split
          · have h := d.snapAsk_store e
            split <;> rename_i he <;> rw [he] at h
            · exact h
            · exact (Dev.epochDrop_store _ _).trans h
          · rfl
        · rfl

theorem Dev.muleGo_store : d.muleGo.mule.store = d.mule.store := by rw [Dev.muleGo, Dev.muleNext_store]

theorem Dev.ctxAsk_store (n : Nat) : (d.ctxAsk n).2.mule.store = d.mule.store := by
  unfold Dev.ctxAsk
  split
  · exact congrArg Mule.store (d.setF_mule _ _)
  · split
    · exact (d.pageErr_works _ _ _).store
    · split
      · rfl
      · exact Dev.muleGo_store _

theorem Dev.askContexts_store (i : Nat) : ∀ (cs : List Nat) (d : Dev), (Dev.askContexts i cs d).mule.store = d.mule.store
  | [], _ => rfl
  | c :: cs, d => by
    have h := d.ctxAsk_store c
    unfold Dev.askContexts
    split
    · exact Dev.askContexts_store i cs d
    · split
      · exact Dev.askContexts_store i cs _
      · split <;> rename_i he <;> rw [he] at h
        · exact (Dev.ctxMissed_works _ i).store.trans h
        · exact (Dev.askContexts_store i cs _).trans h

theorem Dev.askWaiting_store : ∀ (n : Nat) (d : Dev), (Dev.askWaiting n d).mule.store = d.mule.store
  | 0, _ => rfl
  | n + 1, d => by
    unfold Dev.askWaiting
    split
    · split
      · exact (Dev.askWaiting_store n _).trans (Dev.askContexts_store _ _ _)
      · rfl
    · rfl

end Sys2Proof.Machine
end

section
/-! SUPPORT. What the follow-up work of a command cannot end in.  Where, after it, the boot ROM is at its start with the
application still to boot, MULE's restore has failed and a host word is held both ways (`Dev.HeldUp`), it was so before it,
and MSPI.FAIL_CNT is as it was. -/

namespace Sys2Proof.Machine

/-- A state from which the boot ROM, MULE and the host port do not move by themselves. -/
structure Dev.HeldUp (d : Dev) : Prop where
  rom : d.boot.rom = true
  phase : d.boot.phase = .start
  due : d.boot.appDue = true
  word : d.ports.host.tx.any (fun x => x.held.isSome && x.next == some .held) = true
  bus : d.bus = .none
  store : d.mule.store = .failed

/-- If `e` is held up, then so was `d`, and from `d` to `e` MSPI has counted no failure. -/
structure Dev.Back (d e : Dev) : Prop where
  held : e.HeldUp → d.HeldUp
  count : e.HeldUp → e.rd Reg.MSPI_FAIL_CNT = d.rd Reg.MSPI_FAIL_CNT

namespace Dev.Back

variable {d e g : Dev}

theorem refl (d : Dev) : d.Back d := ⟨id, fun _ => rfl⟩

theorem trans (h : d.Back e) (k : e.Back g) : d.Back g :=
  ⟨h.held ∘ k.held, fun hg => (k.count hg).trans (h.count (k.held hg))⟩

theorem of_not (h : ¬ e.HeldUp) : d.Back e := ⟨fun k => absurd k h, fun k => absurd k h⟩

/-- Nothing that the claim speaks of has changed. -/
theorem same (hb : e.boot = d.boot) (hh : e.ports.host = d.ports.host) (hu : e.bus = d.bus) (hs : e.mule.store = d.mule.store)
    (hc : e.rd Reg.MSPI_FAIL_CNT = d.rd Reg.MSPI_FAIL_CNT) : d.Back e where
  held h := ⟨hb ▸ h.rom, hb ▸ h.phase, hb ▸ h.due, hh ▸ h.word, hu ▸ h.bus, hs ▸ h.store⟩
  count _ := hc

theorem watch (w : Watch) : d.Back { d with watch := w } := same rfl rfl rfl rfl rfl

theorem works (h : d.Works e) : d.Back e := same h.boot h.host h.bus h.store (h.rd _ (by decide))

theorem after (h : d.After e) : d.Back e :=
  same (show e.units.boot = d.units.boot by rw [h.units]) (congrArg (·.host) h.ports) h.bus
    (show e.units.mule.store = d.units.mule.store by rw [h.units]) (h.rd (by decide))

end Dev.Back

variable (d : Dev)

/-! ### The boot ROM (R409–R413, R417, R426) -/

theorem Dev.runTo_boot (t : PState) : (d.runTo t).boot = d.boot := by
  unfold Dev.runTo
  split <;> rfl

theorem Dev.bootEnd_rom : d.bootEnd.boot.rom = false := by
  unfold Dev.bootEnd
  dsimp only
  split
  · split
    · rw [Dev.runTo_boot, Dev.raiseIf_boot]
    · rw [Dev.raiseIf_boot]
  · rfl

theorem Dev.bootEnd_moves : ¬ d.bootEnd.HeldUp := fun h => by simpa [d.bootEnd_rom] using h.rom

theorem Dev.bootLeave_moves (h : d.boot.phase ≠ .start) : ¬ d.bootLeave.HeldUp := by
  unfold Dev.bootLeave
  split
  · exact Dev.bootEnd_moves _
  · exact fun k => h k.phase

theorem Dev.bootWrite_moves (f : BootFind) (h : d.boot.phase ≠ .start) : ¬ (d.bootWrite f).HeldUp := by
  unfold Dev.bootWrite
  split
  · split
    · exact Dev.bootEnd_moves _
    · exact Dev.bootEnd_moves _
    · exact Dev.bootLeave_moves _ (by simp)
  · exact fun k => h k.phase

theorem Dev.bootFound_moves (f : BootFind) : ¬ (d.bootFound f).HeldUp := Dev.bootWrite_moves _ f (by simp)

theorem Dev.bootCheck_moves : ¬ d.bootCheck.HeldUp := by
  unfold Dev.bootCheck
  dsimp only
  generalize (if d.on Fld.SYSCTL_BOOT_STAT_COLD then d.otpLoad.clearBanks.clearDone else d) = g
  split
  · exact Dev.bootFound_moves _ _
  · split
    · split
      · exact Dev.bootFound_moves _ _
      · exact Dev.bootLeave_moves _ (by simp)
    · exact Dev.bootFound_moves _ _

/-- The boot ROM at its start goes on to another phase, or does nothing. -/
theorem Dev.bootTry_back : d.Back d.bootTry := by
  unfold Dev.bootTry
  split
  · split <;> rename_i hp
    · exact .of_not d.bootCheck_moves
    · exact .of_not (d.bootWrite_moves _ (by simp [hp]))
    · exact .of_not (d.bootLeave_moves (by simp [hp]))
  · exact .refl d

theorem Dev.voteSet_after (r : Requester) (x : Dom) (s : Nat) : d.After (d.voteSet r x s) := by
  unfold Dev.voteSet
  dsimp only
  split
  · exact .refl d
  · exact (d.setSlots_after x _).trans (Dev.needArose_after _ x)

theorem Dev.romVotes_after (xs : List Dom) (n : Nat) : d.After (d.romVotes xs n true) :=
  .foldl _ _ (fun x e _ => e.voteSet_after .bootRom x _) d

theorem Dev.romVotes_boot (xs : List Dom) (n : Nat) : (d.romVotes xs n true).boot = d.boot :=
  show (d.romVotes xs n true).units.boot = d.units.boot by rw [(d.romVotes_after xs n).units]

theorem Dev.serviceReturn_boot (a : Nat) : (d.serviceReturn a).boot = d.boot := by
  unfold Dev.serviceReturn
  split <;> rfl

theorem Dev.appBootEnd_due (code : Nat) : (d.appBootEnd code).boot.appDue = d.boot.appDue := by
  unfold Dev.appBootEnd Dev.loaderVotes
  split
  · exact congrArg (·.appDue) (d.romVotes_boot _ _)
  · rw [Dev.serviceReturn_boot]

theorem Dev.loaderStart_due (endless thenBoot : Bool) : (d.loaderStart endless thenBoot).boot.appDue = d.boot.appDue :=
  congrArg (·.appDue) (d.acReset.romVotes_boot _ _)

theorem Dev.appStart_boot : d.appStart.2.boot = d.boot := by
  unfold Dev.appStart
  dsimp only
  split
  · split <;> split <;> rfl
  · split <;> rfl

theorem Dev.acReset_back : d.Back d.acReset := .same rfl rfl rfl rfl (Dev.rd_wr_ne d _ (by decide))

/-- R417: an APP_BOOT that begins is no longer due. -/
theorem Dev.appBoot_back : d.Back d.appBoot := by
  have begun : ∀ e : Dev, e.boot.appDue = false → ∀ g, g.boot.appDue = e.boot.appDue → d.Back g := fun e he g hg =>
    .of_not fun k => by simpa [hg, he] using k.due
  unfold Dev.appBoot
  dsimp only
  split
  · exact .refl d
  · split
    · exact d.acReset_back
    · split
      · exact begun _ rfl _ (Dev.appBootEnd_due _ _)
      · split
        · exact begun _ rfl _ (Dev.appBootEnd_due _ _)
        · split
          · exact begun _ rfl _ (Dev.loaderStart_due _ _ _)
          · have h := Dev.appStart_boot { d.acReset with boot.appDue := false, boot.firstCall := false }
            exact begun _ rfl _ ((Dev.appBootEnd_due _ _).trans (congrArg (·.appDue) h))

theorem Dev.appBootDue_back : d.Back d.appBootDue := by
  unfold Dev.appBootDue
  split
  · exact d.appBoot_back
  · exact .refl d

/-! ### MULE (R225) -/

theorem Dev.askWaiting_back (n : Nat) : d.Back (Dev.askWaiting n d) := by
  by_cases h : d.mule.store = .ready
  · exact .of_not fun k => by simpa [Dev.askWaiting_store, h] using k.store
  · exact .works (Dev.askWaiting_works n d h)

theorem Dev.muleTryRestore_back : d.Back d.muleTryRestore := by
  unfold Dev.muleTryRestore
  split
  · exact .of_not fun k => by simpa using k.store
  · exact .refl d

end Sys2Proof.Machine
end

section
/-! SUPPORT. R356, R382, R388: the host port goes on where a word is no longer held, and otherwise leaves the device alone. -/

namespace Sys2Proof.Machine

variable (d : Dev)

/-! ### A word that is held (R356, R382) -/

theorem HostTx.req_eq (x : HostTx) : x.req = .hspi ∨ x.req = .i2ct := by
  unfold HostTx.req
  split
  exacts [.inr rfl, .inl rfl]

/-- R24: from the host ports, of the memories only the DPM is open to a write. -/
theorem reach_host {r : Requester} (hr : r = .hspi ∨ r = .i2ct) {t : Target} {u : Unit} (h : reach r t true = .ok u) :
    (∃ w, t = .sram 20 w) ∨ ∃ p off, t = .reg p off := by
  cases t with
  | reg p off => exact .inr ⟨p, off, rfl⟩
  | sram b w =>
    left
    by_cases hb : b = 20
    · exact ⟨w, by rw [hb]⟩
    · rcases hr with rfl | rfl <;> simp [reach, Requester.isLc, Requester.isAc, hb] at h <;> (split_ifs at h)
  | bootRom | lfl | afl | window => rcases hr with rfl | rfl <;> simp [reach, Requester.isLc, Requester.isAc] at h

theorem HostTx.req_group (x : HostTx) : x.req.isLc = false ∧ x.req.isAc = false := by
  rcases x.req_eq with h | h <;> rw [h] <;> exact ⟨rfl, rfl⟩

theorem Dev.reachGate_passed {r : Requester} {t : Target} {a : Nat} {w : Bool} (h : (d.reachGate r t a w).1 ≠ .refuse) :
    (d.reachGate r t a w).2 = d ∧ reach r t w = .ok () := by
  unfold Dev.reachGate at h ⊢
  split
  · simp_all
  · split <;> simp_all

/-- A write of the DPM that must wait changes nothing. -/
theorem Dev.sramWrite_held {r : Requester} (hl : r.isLc = false) (ha : r.isAc = false) (w be v : Nat) :
    (d.sramWrite r 20 w be v none).1 = .wait → (d.sramWrite r 20 w be v none).2 = d := by
  unfold Dev.sramWrite Dev.bankGate
  by_cases hc : d.clearing
  · simp [hc]
  · have hg : ((decide (20 < 22) && d.clearing) || d.inTransit r 20) = false := by simp [hc, Dev.inTransit]
    simp only [hg, hl, ha, Bool.or_self, Bool.and_false, Bool.false_eq_true, if_false]
    split <;> simp

theorem Dev.pageAccessWrite_served (r : Requester) (p : Page) (off a v : Nat) (size : Size) :
    (d.pageAccessWrite r p off a v size).1 ≠ .wait := by
  unfold Dev.pageAccessWrite
  split
  · simp
  · split <;> simp

theorem Dev.hostWrite_held (x : HostTx) (a v : Nat) :
    (d.busWrite x.req a v .word none).1 = .wait → (d.busWrite x.req a v .word none).2 = d := by
  unfold Dev.busWrite
  split
  · simp
  · rename_i t _
    have hp := d.reachGate_passed (r := x.req) (t := t) (a := a) (w := true)
    split <;> rename_i hg <;> rw [hg] at hp
    · simp
    · exact fun _ => (hp (by simp)).1
    · obtain ⟨he, hr⟩ := hp (by simp)
      simp only at he
      subst he
      rcases reach_host x.req_eq hr with ⟨w, rfl⟩ | ⟨p, off, rfl⟩
      · exact Dev.sramWrite_held _ x.req_group.1 x.req_group.2 _ _ _
      · exact fun h => absurd h (Dev.pageAccessWrite_served _ _ _ _ _ _ _)

/-- R388: a word that is written and held changes nothing. -/
theorem Dev.hostWord_held (x : HostTx) (a : Nat) (v : Word) :
    (d.hostWord x.req a (some v) none).1 = .held → (d.hostWord x.req a (some v) none).2 = d := by
  unfold Dev.hostWord
  split
  · simp
  · split
    · simp
    · rename_i b _
      have hw := d.hostWrite_held x b v.toNat
      dsimp only
      split
      · simp
      · rename_i p _ _ he
        rw [he] at hw
        intro h
        cases p
        · simp_all
        · simp_all [Resp.host]
        · exact hw rfl


/-! ### The transaction in progress (R383, R388) -/

theorem Dev.setTx_tx (f : HostTx → HostTx) : (d.setTx f).ports.host.tx = d.ports.host.tx.map f := by
  unfold Dev.setTx
  split <;> simp [*]

theorem Dev.i2cResult_tx (fail : Option (Nat × Nat)) : (d.i2cResult fail).ports.host.tx = d.ports.host.tx := by
  unfold Dev.i2cResult
  split <;> rfl

theorem Dev.hspiResult_tx (fail : Option (Nat × Nat)) (coll limit : Bool) :
    (d.hspiResult fail coll limit).ports.host.tx = d.ports.host.tx := by
  unfold Dev.hspiResult
  cases fail <;> cases coll <;> cases limit <;> rfl

theorem Dev.i2cResult_bus (fail : Option (Nat × Nat)) : (d.i2cResult fail).bus = d.bus := by
  unfold Dev.i2cResult
  split <;> rfl

theorem Dev.hspiResult_bus (fail : Option (Nat × Nat)) (coll limit : Bool) : (d.hspiResult fail coll limit).bus = d.bus := by
  unfold Dev.hspiResult
  cases fail <;> cases coll <;> cases limit <;> rfl

theorem Dev.txEnd_tx : d.txEnd.ports.host.tx = none := by
  unfold Dev.txEnd
  split
  · assumption
  · dsimp only
    split
    · rw [Dev.i2cResult_tx]
    · rw [Dev.hspiResult_tx]

theorem Dev.txEnd_bus : d.txEnd.bus = d.bus := by
  unfold Dev.txEnd
  split
  · rfl
  · dsimp only
    split
    · rw [Dev.i2cResult_bus]
    · rw [Dev.hspiResult_bus]

theorem Dev.txClose_bus : d.txClose.bus = d.bus := by
  unfold Dev.txClose
  split
  · exact d.txEnd_bus
  · rfl

theorem Dev.txEnd_moves : ¬ d.txEnd.HeldUp := fun h => by simpa [d.txEnd_tx] using h.word

theorem Dev.txClose_moves (h : ¬ d.HeldUp) : ¬ d.txClose.HeldUp := by
  unfold Dev.txClose
  split
  · exact d.txEnd_moves
  · exact h

/-- R356: what is aborted is held no longer. -/
theorem Dev.txAbort_back : d.Back d.txAbort := by
  unfold Dev.txAbort
  split
  · exact .of_not (Dev.txEnd_moves _)
  · exact .refl d

/-- No read word is held. -/
def Dev.readsOn (d : Dev) : Prop := ∀ x, d.ports.host.tx = some x → x.next ≠ some .held

theorem Dev.readsOn_moves {d : Dev} (h : d.readsOn) : ¬ d.HeldUp := fun k => by
  have hw := k.word
  rw [Option.any_eq_true] at hw
  obtain ⟨x, hx, hn⟩ := hw
  simp_all [h x hx]

theorem Dev.readsOn_setTx {f : HostTx → HostTx} (h : ∀ x, d.ports.host.tx = some x → (f x).next ≠ some .held) :
    (d.setTx f).readsOn := by
  intro x hx
  rw [Dev.setTx_tx, Option.map_eq_some_iff] at hx
  obtain ⟨y, hy, rfl⟩ := hx
  exact h y hy

theorem Dev.txFail_readsOn (code : Nat) : (d.txFail code).readsOn := d.readsOn_setTx (by simp)

theorem Dev.txStep_readsOn : d.txStep.readsOn := by
  have h := d.readsOn_setTx (f := fun x => { x with addr := nextHost x.addr, next := none, held := none }) (by simp)
  unfold Dev.txStep
  dsimp only
  generalize Dev.setTx _ _ = e at h ⊢
  split
  · split <;> exact h
  · exact h

/-- R388: a word that is written leaves no read word held. -/
theorem Dev.txWrite_readsOn (h : d.readsOn) (v : Word) : (Dev.txWrite none d v).readsOn := by
  unfold Dev.txWrite
  split
  · exact h
  · rename_i x hx
    have hw := d.hostWord_held x x.addr v
    split
    · refine d.readsOn_setTx fun y hy => ?_
      split
      · exact h y hy
      · split <;> exact h y hy
    · split
      · exact h
      · split <;> rename_i he <;> rw [he] at hw
        · exact Dev.txStep_readsOn _
        · exact Dev.txFail_readsOn _ _
        · rename_i e
          obtain rfl : e = d := hw rfl
          exact e.readsOn_setTx fun y hy => h y hy

theorem Dev.txWrites_readsOn : ∀ (l : List Word) (d : Dev), d.readsOn → (l.foldl (Dev.txWrite none) d).readsOn
  | [], _, h => h
  | v :: l, d, h => Dev.txWrites_readsOn l _ (d.txWrite_readsOn h v)

/-- R388: a held word stays as it is, or goes on. -/
theorem Dev.txHeld_back : d.Back d.txHeld := by
  unfold Dev.txHeld
  split
  · exact .refl d
  · rename_i x hx
    split
    · split
      · exact .refl d
      · exact .of_not (Dev.txClose_moves _ (Dev.readsOn_moves (Dev.txFail_readsOn _ _)))
      · exact .of_not (Dev.txClose_moves _ (Dev.readsOn_moves (Dev.txWrites_readsOn _ _
          (Dev.readsOn_setTx _ fun y hy => Dev.txStep_readsOn _ y hy))))
    · split
      · split
        · exact .refl d
        · rename_i t e ht _
          refine .of_not ?_
          dsimp only
          split
          · refine fun h => ?_
            have hb := h.bus
            rw [Dev.txClose_bus] at hb
            split at hb <;> simp_all [Dev.answer]
          · refine Dev.readsOn_moves (Dev.readsOn_setTx _ fun y hy => ?_)
            simp_all
      · exact .refl d

end Sys2Proof.Machine
end

section
/-! SUPPORT. The whole follow-up work of a command: held up after it with a request waiting, it has counted no failure of MSPI. -/

namespace Sys2Proof.Machine

variable (d : Dev)

/-! ### SYS, and the request that waits (R352, R380) -/

theorem Dev.wakeCheck_back : d.Back d.wakeCheck := by
  unfold Dev.wakeCheck Dev.leaveCheck
  split
  · split
    · exact .trans (.watch _) (.works (Dev.sysStart_works _ _))
    · exact .refl d
  · exact .refl d

theorem Dev.pinRequest_pend : d.pinRequest.pwr.pend = d.pwr.pend := by
  unfold Dev.pinRequest
  split
  · exact (d.wakeRequest_after _).request
  · rfl

theorem Dev.entryTryComplete_pend : d.entryTryComplete.pwr.pend = d.pwr.pend :=
  d.entryTryComplete_cases (P := fun e => e.pwr.pend = d.pwr.pend) rfl (fun _ _ he => he.2) (fun _ _ he => he.2)
    (fun _ e he => e.startWake_after.request.trans he.2)

/-- A request that starts leaves none waiting that was not. -/
theorem Dev.requestStart_pend (t : PState) : (d.requestStart t).pwr.pend = d.pwr.pend :=
  d.requestStart_cases (P := fun e => e.pwr.pend = d.pwr.pend) t (fun t => (d.toRun_waits t).2) rfl
    (fun e he => e.pinRequest_pend.trans he.2) (fun e he => e.abortEntry_after.request.trans he.2)
    (fun e he => (e.pinRequest.entryTryComplete_pend.trans e.pinRequest_pend).trans he.2)

/-- R352: where a request still waits, none has started. -/
theorem Dev.pendStart_waits (h : d.pendStart.pwr.pend ≠ none) : d.pendStart = d := by
  unfold Dev.pendStart at h ⊢
  split
  · rfl
  · split
    · rfl
    · simp_all [Dev.requestStart_pend]

/-- The follow-up work ends held up, with a request waiting, only where it has done nothing to MSPI. -/
theorem Dev.finish_count (h : d.finish.HeldUp) (hp : d.finish.pwr.pend ≠ none) :
    d.finish.rd Reg.MSPI_FAIL_CNT = d.rd Reg.MSPI_FAIL_CNT := by
  have front : d.Back (Dev.askWaiting 8 ((d.bootTry.appBootDue.muleReports).unitsDone)).muleTryRestore.txHeld :=
    .trans (.trans (.trans (.trans (.trans (.trans d.bootTry_back (Dev.appBootDue_back _)) (.works (Dev.muleReports_works _)))
      (.works (Dev.unitsDone_works _))) (Dev.askWaiting_back _ 8)) (Dev.muleTryRestore_back _)) (Dev.txHeld_back _)
  have back : ∀ e : Dev, e.Back e.voteSync.mspiRefresh.errRefresh.dropCheck.txAbort.uartGo.wakeCheck := fun e =>
    .trans (.trans (.trans (.after e.beforeSettle_after) (Dev.txAbort_back _)) (.works (Dev.uartGo_works _)))
      (Dev.wakeCheck_back _)
  have last : ∀ e : Dev, e.pendStart.upBegin.settle.pwr.pend ≠ none → e.Back e.pendStart.upBegin.settle := fun e he => by
    have ha := e.pendStart.upBegin_after.trans (Dev.settle_after _)
    rw [ha.request] at he
    rw [e.pendStart_waits he] at ha ⊢
    exact .after ha
  exact ((front.trans (back _)).trans (last _ hp)).count h

end Sys2Proof.Machine
end

section
/-! SUPPORT. MSPI_TIMEOUT of an epoch's transfer in a device whose epoch lists a frame that is none (the model's `Epoch.dirty`
is not bounded): the DIRTY bit given back to that frame falls on MSPI.FAIL_CNT. -/

namespace Sys2Proof.Machine

/-- The number, past the 64 frames, at which the registers MULE.FRAME would reach MSPI.FAIL_CNT. -/
def strayFrame : Nat := (Reg.MSPI_FAIL_CNT - Reg.MULE_FRAME 0) / 4

/-- An epoch that lists the stray frame is at its transfer, in a device that is held up. -/
def strayDev : Dev :=
  { (((Dev.reset.setDom .sys 3).setDom .per 3).setF Fld.MEMCTL_CLEAR_BUSY 1) with
    mule := { store := .failed, epoch := some { cause := 0, full := false, phase := .saving, dirty := [strayFrame] } }
    boot := { rom := true, appDue := true }
    ports := { host := { tx := some { i2c := false, addr := 0, held := some 0, next := some .held } } }
    pwr.pend := some .idle }

def strayState : State := { dev := strayDev, pending := [] }

def strayEnd : Dev := (strayDev.answer .none).mspiTimeout.finish

theorem strayState_exec : exec .mspiTimeout strayState = .next { strayState with dev := strayEnd } := rfl

theorem strayEnd_heldUp : strayEnd.HeldUp :=
  ⟨by decide +kernel, by decide +kernel, by decide +kernel, by decide +kernel, by decide +kernel, by decide +kernel⟩

theorem strayEnd_pend : strayEnd.pwr.pend ≠ none := by decide +kernel

/-- One failure, and bit 17. -/
theorem strayEnd_count : strayEnd.rd Reg.MSPI_FAIL_CNT = 2 ^ 17 + 1 := by decide +kernel

theorem next_dev {s : State} {d e : Dev}
    (h : (.next { s with dev := d } : Host.Outcome State Fault Refusal) = .next { s with dev := e }) : d = e :=
  congrArg State.dev (Host.Outcome.next.inj h)

/-- Refutes O58 at MSPI_TIMEOUT, in a state whose epoch lists a frame past the last one: the failure is counted once, and then
bit 17 of the counter is set as that frame's DIRTY.  `Effects` shows the command's own work only through the follow-up work,
which has left the counter alone (`Dev.finish_count`). -/
theorem not_hostDmaMspiAndUart : ¬ Obligations.HostDmaMspiAndUart := by
  intro h
  obtain ⟨-, -, hm, -⟩ := h
  obtain ⟨-, e, he, -, hc, -⟩ := hm strayState 0 false (by decide) (by decide)
  have hd : strayEnd = e.finish := next_dev (strayState_exec ▸ he)
  have h0 : strayState.dev.rd Reg.MSPI_FAIL_CNT = 0 := by decide
  have hk := Dev.finish_count e (hd ▸ strayEnd_heldUp) (hd ▸ strayEnd_pend)
  rw [← hd, strayEnd_count, hc, h0] at hk
  exact absurd hk (by decide)

end Sys2Proof.Machine
end

section
/-! SUPPORT. R32, R34, R42: the accumulator where no slew is in force, and the references that are lost at once. -/

namespace Sys2Proof.Machine

/-! ### Rounding up -/

theorem le_ceilDiv_mul (a : Nat) {b : Nat} (hb : 0 < b) : a ≤ ceilDiv a b * b := by
  unfold ceilDiv
  have h1 := Nat.div_add_mod' (a + b - 1) b
  have h2 := Nat.mod_lt (a + b - 1) hb
  omega

theorem ceilDiv_mul_lt (a : Nat) {b : Nat} (hb : 0 < b) : ceilDiv a b * b < a + b := by
  unfold ceilDiv
  have h1 := Nat.div_add_mod' (a + b - 1) b
  omega

theorem ceilDiv_eq_zero (a : Nat) {b : Nat} (hb : 0 < b) : ceilDiv a b = 0 ↔ a = 0 := by
  constructor
  · intro h
    have := le_ceilDiv_mul a hb
    simpa [h] using this
  · rintro rfl
    exact Nat.div_eq_of_lt (by omega)

variable (d : Dev)

/-! ### Clocks and what they add -/

/-- No clock is needed exactly where nothing is to be added. -/
theorem Dev.clksFor_eq_zero (u : Nat) : d.clksFor u = 0 ↔ u = 0 := by
  have hr : 0 < max 1 d.slewRate := by omega
  have hi : 0 < max 1 (d.rd Reg.MAE_INC) := by omega
  unfold Dev.clksFor
  by_cases hk : d.slewClks = 0
  · simp [hk, ceilDiv_eq_zero _ hi]
  · by_cases hu : u ≤ d.slewClks * max 1 d.slewRate
    · simp [hk, hu, ceilDiv_eq_zero _ hr]
    · have h0 : u ≠ 0 := by omega
      simp [hk, hu, h0]

theorem Dev.clksFor_flat (h : d.mae.slew = 0) (u : Nat) : d.clksFor u = ceilDiv u (max 1 (d.rd Reg.MAE_INC)) := by
  simp [Dev.clksFor, Dev.slewClks, h]

/-- `n` clocks with no slew in force (R32). -/
theorem Dev.maeRun_flat (h : d.mae.slew = 0) (n : Nat) :
    d.maeRun n = { d with
      mae.acc := d.mae.acc + n * d.rd Reg.MAE_INC
      mae.modClk := d.mae.modClk + n
      mae.det := d.mae.det.map fun t => { t with span := t.span + n * d.rd Reg.MAE_INC } } := by
  simp [Dev.maeRun, Dev.slewClks, h]

theorem Dev.maeRun_zero (h : d.mae.slew = 0) : d.maeRun 0 = d := by
  simp [Dev.maeRun_flat d h]

theorem Dev.settleNow_settled (h : d.settled = true) : d.settleNow = d := if_pos h

theorem Dev.clocks_settled (h : d.settled = true) (n : Nat) : d.clocks n = d.maeRun n := by
  simp [Dev.clocks, d.settleNow_settled h]

theorem Dev.clocks_zero (h : d.mae.slew = 0) : d.clocks 0 = d := d.maeRun_zero h

/-- The next tick, or the carry, is reached in the first clock that reaches it (R34). -/
theorem Dev.acc_boundary (h : d.mae.slew = 0) (hi : 0 < d.rd Reg.MAE_INC) :
    d.mae.acc + d.toBoundary ≤ (d.maeRun (d.clksFor d.toBoundary)).mae.acc
    ∧ (d.maeRun (d.clksFor d.toBoundary)).mae.acc < d.mae.acc + d.toBoundary + d.rd Reg.MAE_INC := by
  rw [d.maeRun_flat h, d.clksFor_flat h, Nat.max_eq_right hi]
  have h1 := le_ceilDiv_mul d.toBoundary hi
  have h2 := ceilDiv_mul_lt d.toBoundary hi
  dsimp only
  omega

/-! ### References lost at once (R42) -/

/-- The sooner of the loss found so far and that of reference `n`: one step of `Dev.nextLoss`. -/
def Dev.sooner (spare : Option (Fin 3)) (best : Option (Nat × Fin 3)) (n : Fin 3) : Option (Nat × Fin 3) :=
  if spare == some n then best
  else match d.lossDist n.val with
    | none => best
    | some u => if best.all (d.clksFor u < ·.1) then some (d.clksFor u, n) else best

theorem Dev.nextLoss_eq (spare : Option (Fin 3)) : d.nextLoss spare = allRefs.foldl (d.sooner spare) none := rfl

theorem Dev.sooner_none (spare : Option (Fin 3)) (best : Option (Nat × Fin 3)) (n : Fin 3) :
    (d.sooner spare best n).filter (·.1 ≤ 0) = none
      ↔ best.filter (·.1 ≤ 0) = none ∧ (spare ≠ some n → d.lossDist n.val ≠ some 0) := by
  unfold Dev.sooner
  by_cases hs : spare = some n
  · simp [hs]
  · cases hd : d.lossDist n.val with
    | none => simp [hs]
    | some u =>
      have hu := d.clksFor_eq_zero u
      cases best with
      | none => simp [hs, hu]
      | some b =>
        by_cases hb : d.clksFor u < b.1
        · have : b.1 ≠ 0 := by omega
          simp [hs, hb, hu, this]
        · have : b.1 ≠ 0 → u ≠ 0 := fun h0 h1 => hb (by rw [hu.2 h1]; omega)
          simpa [hs, hb] using this

theorem Dev.sooner_fold_none (spare : Option (Fin 3)) : ∀ (l : List (Fin 3)) (best : Option (Nat × Fin 3)),
    (l.foldl (d.sooner spare) best).filter (·.1 ≤ 0) = none
      ↔ best.filter (·.1 ≤ 0) = none ∧ ∀ n ∈ l, spare ≠ some n → d.lossDist n.val ≠ some 0
  | [], best => by simp
  | n :: l, best => by
    rw [List.foldl_cons, Dev.sooner_fold_none spare l, d.sooner_none, List.forall_mem_cons, and_assoc]

theorem mem_allRefs : ∀ n : Fin 3, n ∈ allRefs := by decide

/-- No reference is lost in this clock exactly where the time of none has run out. -/
theorem Dev.lossWithin_zero (spare : Option (Fin 3)) :
    d.lossWithin spare 0 = none ↔ ∀ n : Fin 3, spare ≠ some n → d.lossDist n.val ≠ some 0 := by
  unfold Dev.lossWithin
  rw [d.nextLoss_eq, d.sooner_fold_none]
  simp [mem_allRefs]

/-- With no reference lost in this clock none is lost where one is spared. -/
theorem Dev.lossWithin_spare {d : Dev} (n : Fin 3) (h : d.lossWithin none 0 = none) : d.lossWithin (some n) 0 = none :=
  (d.lossWithin_zero _).2 fun m _ => (d.lossWithin_zero none).1 h m (by simp)

theorem Dev.lossesNow_none (h : d.lossWithin none 0 = none) : ∀ n : Nat, Dev.lossesNow n d = d
  | 0 => rfl
  | n + 1 => by simp [Dev.lossesNow, h]

end Sys2Proof.Machine
end

section
/-! SUPPORT. Sample ticks (R34, R69, R148): one tick emitted in its clock. -/

namespace Sys2Proof.Machine

variable (d : Dev)

theorem Dev.toNext_unlost (h : d.lossWithin none (d.clksFor d.toBoundary) = none) :
    ∀ n : Nat, Dev.toNext n d = d.clocks (d.clksFor d.toBoundary)
  | 0 => rfl
  | n + 1 => by simp [Dev.toNext, h]

theorem Dev.evalHeld_idle (hs : d.mae.splices = []) (he : d.herd.evalDue = false) : d.evalHeld = d := by
  simp [Dev.evalHeld, hs, he]

theorem Dev.ticksTo_reached {k : Nat} (h : k ≤ d.mae.nextTick) : ∀ n : Nat, Dev.ticksTo k n d = d
  | 0 => rfl
  | n + 1 => by simp [Dev.ticksTo, h]

/-- The boundary reached with nothing else due on the way. -/
theorem Dev.toNext_flat (hs : d.settled = true) (hl : d.lossWithin none (d.clksFor d.toBoundary) = none) (n : Nat) :
    Dev.toNext n d = d.maeRun (d.clksFor d.toBoundary) := by
  rw [d.toNext_unlost hl, d.clocks_settled hs]

theorem Dev.emitTick_nextTick (k : Nat) : (d.emitTick k).mae.nextTick = k + 1 := rfl

/-- The next tick is emitted, and no other. -/
theorem Dev.sampleTick_next {k : Nat} (hr : d.mae.running = true) (hk : d.mae.nextTick = k) :
    d.sampleTick k = (d.toNext 4).emitTick k := by
  have h1 : d.mae.nextTick ≤ k := hk.le
  have h2 : d.mae.nextTick < k + 1 := by omega
  unfold Dev.sampleTick
  simp only [hr, h1, decide_true, Bool.and_self, if_true]
  rw [Dev.ticksTo, if_pos h2, hk]
  exact Dev.ticksTo_reached _ (by rw [Dev.emitTick_nextTick]) _

theorem Dev.flowTick_frame : d.flowTick = { d with flow := d.flowTick.flow } := by
  unfold Dev.flowTick
  split <;> rfl

/-- What a tick hands to the converters, where no evaluation of HERD is outstanding. -/
theorem Dev.emitTick_facts (k : Nat) (hs : d.mae.splices = []) (he : d.herd.evalDue = false) (hm : d.domOn .met = true) :
    (d.emitTick k).mae = { d.mae with nextTick := k + 1 }
    ∧ (∃ t : TickIn, (d.emitTick k).fe.ticks = d.fe.ticks ++ [t] ∧ t.cyc = d.mae.cyc ∧ t.tick = k ∧ t.clk = d.mae.modClk)
    ∧ (d.emitTick k).herd = { d.herd with evalDue := d.herdRuns } ∧ (d.emitTick k).regs = d.regs := by
  unfold Dev.emitTick
  rw [d.evalHeld_idle hs he, Dev.flowTick_frame]
  unfold Dev.feTick
  rw [if_pos hm]
  exact ⟨rfl, ⟨_, rfl, rfl, rfl, rfl⟩, rfl, rfl⟩

end Sys2Proof.Machine
end

section
/-! SUPPORT. R32: what the work at angle 0x0000 leaves: the angle and the cycle count, every unit but the MAE, the quantities
and the flow, the registers of the cycle count and of the power domains, and the events raised before. -/

namespace Sys2Proof.Machine

/-- Registers that no block writes in its work at angle 0x0000, but for the new die temperature. -/
def turnSpared : List Nat := [Reg.MAE_CYC_HI, Reg.PWR_DOM_STAT, Reg.MULE_CTRL, Reg.MET_CAL_DIE_T]

/-- The device without its registers, the events raised, its counter of free values, the MAE, the quantities and the flow. -/
def Dev.beside (d : Dev) : Dev := { d with regs := [], edges := [], free := 0, mae := {}, qty := {}, flow := {} }

/-- From `d` to `e` neither the mains time nor a register of `l` nor any other unit has changed, and no event is lost. -/
structure Dev.Turns (l : List Nat) (d e : Dev) : Prop where
  rd : ∀ a ∈ l, e.rd a = d.rd a
  cyc : e.mae.cyc = d.mae.cyc
  acc : e.mae.acc = d.mae.acc
  nextTick : e.mae.nextTick = d.mae.nextTick
  beside : e.beside = d.beside
  grows : d.Grows e

namespace Dev.Turns

variable {l : List Nat} {d e g : Dev}

theorem refl (d : Dev) : d.Turns l d := ⟨fun _ _ => rfl, rfl, rfl, rfl, rfl, .of_eq rfl⟩

theorem trans (h : d.Turns l e) (k : e.Turns l g) : d.Turns l g :=
  ⟨fun a ha => (k.rd a ha).trans (h.rd a ha), k.cyc.trans h.cyc, k.acc.trans h.acc, k.nextTick.trans h.nextTick,
    k.beside.trans h.beside, h.grows.trans k.grows⟩

theorem mono {m : List Nat} (h : d.Turns l e) (hm : m ⊆ l) : d.Turns m e :=
  ⟨fun a ha => h.rd a (hm ha), h.cyc, h.acc, h.nextTick, h.beside, h.grows⟩

theorem wr (a v : Nat) (h : a ∉ l) : d.Turns l (d.wr a v) :=
  ⟨fun _ hb => Dev.rd_wr_ne d v (ne_of_mem_of_not_mem hb h), rfl, rfl, rfl, rfl, .of_eq rfl⟩

theorem setF (f : Field) (v : Nat) (h : f.reg ∉ l) : d.Turns l (d.setF f v) := wr _ _ h

theorem raise (n : Nat) : d.Turns l (d.raise n) := ⟨fun _ _ => rfl, rfl, rfl, rfl, rfl, .raise n⟩

theorem raiseIf (c : Bool) (n : Nat) : d.Turns l (d.raiseIf c n) := by cases c; exacts [refl d, raise n]

theorem level (n : Nat) (b : Bool) (h : (eventRaw n).reg ∉ l) : d.Turns l (d.level n b) := (setF _ _ h).trans (raiseIf _ _)

theorem mae (m : Mae) (hc : m.cyc = d.mae.cyc := by rfl) (ha : m.acc = d.mae.acc := by rfl)
    (hn : m.nextTick = d.mae.nextTick := by rfl) : d.Turns l { d with mae := m } :=
  ⟨fun _ _ => rfl, hc, ha, hn, rfl, .of_eq rfl⟩

theorem qty (q : Qty) : d.Turns l { d with qty := q } := ⟨fun _ _ => rfl, rfl, rfl, rfl, rfl, .of_eq rfl⟩

theorem flow (w : Flow) : d.Turns l { d with flow := w } := ⟨fun _ _ => rfl, rfl, rfl, rfl, rfl, .of_eq rfl⟩

theorem fresh : d.Turns l d.fresh.2 := ⟨fun _ _ => rfl, rfl, rfl, rfl, rfl, .of_eq rfl⟩

theorem wrU (a w v : Nat) (h : a ∉ l) : d.Turns l (d.wrU a w v) := by
  refine trans ?_ (wr a _ h)
  unfold Dev.fitU
  split
  exacts [refl d, fresh]

theorem wrS (a w : Nat) (v : Int) (h : a ∉ l) : d.Turns l (d.wrS a w v) := by
  refine trans ?_ (wr a _ h)
  unfold Dev.fitS
  split
  exacts [refl d, fresh]

theorem ite {c : Prop} [Decidable c] (h : d.Turns l e) : d.Turns l (if c then e else d) := by
  split
  exacts [h, refl d]

theorem foldl {α : Type} (xs : List α) (op : Dev → α → Dev) (h : ∀ x (d : Dev), x ∈ xs → d.Turns l (op d x)) :
    ∀ d : Dev, d.Turns l (xs.foldl op d) := by
  induction xs with
  | nil => exact refl
  | cons x t ih => exact fun d => (h x d (by simp)).trans (ih (fun y d hy => h y d (by simp [hy])) _)

theorem upto (n : Nat) (op : Nat → Dev → Dev) (h : ∀ i < n, ∀ d : Dev, d.Turns l (op i d)) (d : Dev) :
    d.Turns l (Machine.forUpto n op d) :=
  foldl _ _ (fun i d hi => h i (by simpa using hi) d) d

theorem f (h : d.Turns l e) {f : Field} (hf : f.reg ∈ l) : e.f f = d.f f := Dev.f_of_rd (h.rd _ hf)

/-- No work comes to wait. -/
theorem calm (h : d.Turns l e) (hm : Reg.MULE_CTRL ∈ l) : e.calm = d.calm := by
  have hb : e.boot = d.boot := (congrArg Dev.boot h.beside :)
  have hu : e.mule = d.mule := (congrArg Dev.mule h.beside :)
  have hh : e.herd = d.herd := (congrArg Dev.herd h.beside :)
  have hp : e.ports = d.ports := (congrArg Dev.ports h.beside :)
  have hw : e.pwr = d.pwr := (congrArg Dev.pwr h.beside :)
  have hc : e.watch = d.watch := (congrArg Dev.watch h.beside :)
  have ho : e.on Fld.MULE_CTRL_EN = d.on Fld.MULE_CTRL_EN := by
    unfold Dev.on
    rw [h.f hm]
  simp only [Dev.calm, hb, hu, hh, hp, hw, hc, ho]

theorem domOn (h : d.Turns l e) (hm : Reg.PWR_DOM_STAT ∈ l) (x : Dom) : e.domOn x = d.domOn x := by
  unfold Dev.domOn Dev.domStat
  rw [h.f hm]

end Dev.Turns

variable (d : Dev)

/-! ### The MAE's own operations (R33, R39–R48) -/

theorem Dev.setFreq_turns (freq : Nat) : d.Turns turnSpared (d.setFreq freq) :=
  .trans (.wr _ _ (by decide)) (.wr _ _ (by decide))

theorem Dev.setSlew_turns (s : Int) : d.Turns turnSpared (d.setSlew s) :=
  .trans (.trans (.mae _) (.setF _ _ (by decide))) (.level _ _ (by decide))

theorem Dev.setMaeState_turns (st : Nat) : d.Turns turnSpared (d.setMaeState st) := by
  unfold Dev.setMaeState
  exact .trans (.trans (.trans (.trans (.trans (.setF _ _ (by decide)) (.mae _)) (.level _ _ (by decide)))
    (.level _ _ (by decide))) (.level _ _ (by decide))) (.level _ _ (by decide))

theorem Dev.setMae_turns (st : Nat) : d.Turns turnSpared (d.setMae st) :=
  (d.setSlew_turns 0).trans (Dev.setMaeState_turns _ st)

theorem Dev.follow_turns (n : Nat) : d.Turns turnSpared (d.follow n) := by
  unfold Dev.follow
  split
  · exact .refl d
  · exact .trans (.setF _ _ (by decide)) (.raise _)

theorem Dev.setDet_turns (n : Fin 3) (t : RefDet) : d.Turns turnSpared (d.setDet n t) := .mae _

theorem Dev.enterSynth_turns : d.Turns turnSpared d.enterSynth := (d.setMae_turns _).trans (Dev.setFreq_turns _ _)

theorem Dev.acquireOn_turns (n : Nat) : d.Turns turnSpared (d.acquireOn n) := by
  have h := (d.follow_turns n).trans (Dev.setMae_turns _ maeAcquire)
  unfold Dev.acquireOn
  dsimp only
  split
  · exact h.trans (Dev.setFreq_turns _ _)
  · exact h

theorem Dev.loseRef_turns (n : Fin 3) : d.Turns turnSpared (d.loseRef n) := by
  have h := (d.setDet_turns n (d.det n).lose).trans (.raise Ev.MAE_REF_LOST)
  unfold Dev.loseRef
  dsimp only
  split
  · exact (h.trans (Dev.follow_turns _ _)).trans (Dev.setMae_turns _ _)
  · exact (((h.trans (.mae _)).trans (Dev.setMae_turns _ _)).trans (.setF _ _ (by decide))).trans (.wr _ _ (by decide))

theorem Dev.refLost_turns (n : Fin 3) : d.Turns turnSpared (d.refLost n) := by
  unfold Dev.refLost
  split
  · exact d.loseRef_turns n
  · exact d.setDet_turns _ _

/-! ### The MAE at angle 0x0000 (R39, R40, R42–R44, R53) -/

theorem Dev.rmsLosses_turns : d.Turns turnSpared d.rmsLosses := by
  have lose : ∀ (c : Dev → Fin 3 → Bool) (xs : List (Fin 3)) (e : Dev),
      e.Turns turnSpared (xs.foldl (fun e n => if c e n then e.refLost n else e) e) := fun c xs e =>
    .foldl _ _ (fun n e _ => .ite (e.refLost_turns n)) e
  exact (lose _ _ d).trans (lose _ _ _)

theorem quietMask_spared : ∀ m < 4, Reg.MAE_QWM_LO m ∉ turnSpared ∧ Reg.MAE_QWM_HI m ∉ turnSpared := by decide

theorem Dev.commitQwm_turns : d.Turns turnSpared d.commitQwm := by
  unfold Dev.commitQwm
  refine .trans (.upto 4 _ (fun m hm e => ?_) d) (.mae _)
  obtain ⟨hl, hh⟩ := quietMask_spared m hm
  split
  · exact .trans (.wr _ _ hl) (.wr _ _ hh)
  · exact .refl e

theorem Dev.applyRefSettings_turns : d.Turns turnSpared d.applyRefSettings := by
  have follows : ∀ (e : Dev) (sel : Nat), e.Turns turnSpared (if sel = 3 then e else e.follow sel) := fun e sel => by
    split
    exacts [.refl e, e.follow_turns sel]
  unfold Dev.applyRefSettings
  extract_lets sel zc ofs changed m e
  have h : d.Turns turnSpared e := .mae _
  clear_value e m changed
  refine h.trans ?_
  split
  · exact .refl e
  · split
    · exact (follows _ _).trans (Dev.setMae_turns _ _)
    · split
      · exact follows _ _
      · split
        · exact e.acquireOn_turns _
        · exact .refl e

theorem Dev.coastStep_turns : d.Turns turnSpared d.coastStep := by
  unfold Dev.coastStep
  dsimp only
  exact .ite (.trans (.setF Fld.MAE_STATUS_COAST_LEFT _ (by decide)) (.ite (Dev.enterSynth_turns _)))

theorem Dev.returnLower_turns : d.Turns turnSpared d.returnLower := by
  unfold Dev.returnLower
  refine .trans (.mae _) (.ite ?_)
  split
  · exact (Dev.follow_turns _ _).trans (Dev.setMae_turns _ _)
  · exact .refl _

theorem Dev.maeZero_turns : d.Turns turnSpared d.maeZero := by
  unfold Dev.maeZero
  dsimp only
  exact .trans (.trans (.trans (.trans (.trans (.trans d.rmsLosses_turns (.ite (.wr _ _ (by decide))))
    (Dev.commitQwm_turns _)) (Dev.applyRefSettings_turns _)) (.ite (Dev.coastStep_turns _)))
    (.trans (.ite (Dev.setFreq_turns _ _)) (Dev.returnLower_turns _))) (.mae _)

/-! ### The other blocks at angle 0x0000 (R122, R153, R169, R170) -/

theorem outletRegs_spared : ∀ k < 4, Reg.ENERGY_CL_STAT k ∉ turnSpared ∧ Reg.ENERGY_FB_CYC k ∉ turnSpared
    ∧ Reg.ENERGY_RCAB_NOW k ∉ turnSpared ∧ Reg.FLOW_LEAK_STAT k ∉ turnSpared := by decide

theorem Dev.rcabZero_turns {k : Nat} (hk : k < 4) : d.Turns turnSpared (d.rcabZero k) := by
  obtain ⟨hs, hf, hr, -⟩ := outletRegs_spared k hk
  unfold Dev.rcabZero
  refine .ite ?_
  exact .trans (.trans (.trans (.trans (.trans (.wrS _ _ _ hs) (.setF (Fld.ENERGY_CL_STAT_FALLBACK k) _ hs)) (.raiseIf _ _))
    (.raiseIf _ _)) (.ite (.wr _ _ hf))) (.wrU _ _ _ hr)

theorem Dev.energyZero_turns : d.Turns turnSpared d.energyZero :=
  .trans (.upto 4 _ (fun _ hk e => e.rcabZero_turns hk) d) (.qty _)

theorem Dev.leakStart_turns {k : Nat} (hk : k < 4) : d.Turns turnSpared (d.leakStart k) := by
  obtain ⟨-, -, -, hl⟩ := outletRegs_spared k hk
  unfold Dev.leakStart
  split
  · exact .trans (.flow _) (.setF (Fld.FLOW_LEAK_STAT_WIN_LEFT k) _ hl)
  · exact .trans (.flow _) (.setF (Fld.FLOW_LEAK_STAT_WIN_LEFT k) _ hl)

theorem Dev.flowZero_turns : d.Turns turnSpared d.flowZero := by
  unfold Dev.flowZero
  refine .ite (.upto 4 _ (fun k hk e => ?_) d)
  obtain ⟨-, -, -, hl⟩ := outletRegs_spared k hk
  split
  · split
    · exact .setF (Fld.FLOW_LEAK_STAT_WIN_LEFT k) _ hl
    · exact e.leakStart_turns hk
  · exact e.leakStart_turns hk

theorem calNow_spared : ∀ n < 16, Reg.MET_CAL_GC_NOW n ∉ turnSpared ∧ Reg.MET_CAL_PD_NOW n ∉ turnSpared := by decide

/-- R153: after the new temperature is taken, the calibration leaves it. -/
theorem Dev.calZero_turns (t : Int) (hm : d.domOn .met = true) :
    (d.wr Reg.MET_CAL_DIE_T (unsgn 16 t + d.mae.cyc.toNat % 65536 * 65536)).Turns turnSpared (d.calZero t) := by
  unfold Dev.calZero
  rw [if_pos hm]
  refine .trans (.trans (.trans (.setF Fld.MET_CAL_TC_STAT_NPTS_USED _ (by decide)) (.raiseIf _ _))
    (.upto 16 _ (fun n hn e => ?_) _)) (.raise _)
  obtain ⟨hg, hp⟩ := calNow_spared n hn
  exact .trans (.setF (Fld.MET_CAL_GC_NOW_GC n) _ hg) (.setF (Fld.MET_CAL_PD_NOW_PD n) _ hp)

theorem unsgn_lt (w : Nat) (i : Int) : unsgn w i < 2 ^ w := by
  have h := Int.emod_lt_of_pos i (b := 2 ^ w) (by positivity)
  have h0 := Int.emod_nonneg i (b := 2 ^ w) (by positivity)
  unfold unsgn
  zify
  omega

/-- The work at angle 0x0000 with MET on, which takes the new die temperature. -/
theorem Dev.onZero_turns (t : Int) (hm : d.domOn .met = true) :
    d.Turns [Reg.MAE_CYC_HI, Reg.PWR_DOM_STAT, Reg.MULE_CTRL] (Dev.onZero t d)
    ∧ (Dev.onZero t d).f Fld.MET_CAL_DIE_T_T = unsgn 16 t := by
  have before := d.energyZero_turns.trans (Dev.maeZero_turns _)
  have took := Dev.calZero_turns _ t ((before.domOn (by decide) .met).trans hm)
  have after : Dev.Turns turnSpared _ (Dev.onZero t d) :=
    took.trans (.trans (Dev.flowZero_turns _) (.ite (.wr Reg.MULE_SINCE _ (by decide))))
  constructor
  · exact ((before.mono (by decide)).trans (.wr _ _ (by decide))).trans (after.mono (by decide))
  · refine (after.f (f := Fld.MET_CAL_DIE_T_T) (by decide)).trans ((Dev.f_wr_same _ _ Fld.MET_CAL_DIE_T_T).trans ?_)
    have hu := unsgn_lt 16 t
    simp only [bits, show Fld.MET_CAL_DIE_T_T.lo = 0 from rfl, show Fld.MET_CAL_DIE_T_T.width = 16 from rfl]
    omega

end Sys2Proof.Machine
end

section
/-! SUPPORT. R32: the carry out of the angle counts the cycle, and what follows it leaves the count. -/

namespace Sys2Proof.Machine

variable (d : Dev)

/-! ### The follow-up work and the MAE -/

/-- The follow-up work changes nothing of the MAE beside its registers and what the capture units remember. -/
theorem Dev.After.maeBesideCaptures {d e : Dev} (h : d.After e) :
    { e.mae with capMissed := Vector.replicate 4 false } = { d.mae with capMissed := Vector.replicate 4 false } :=
  (congrArg Dev.mae h.units :)

theorem Dev.After.cyc {d e : Dev} (h : d.After e) : e.mae.cyc = d.mae.cyc := (congrArg Mae.cyc h.maeBesideCaptures :)

theorem Dev.After.acc {d e : Dev} (h : d.After e) : e.mae.acc = d.mae.acc := (congrArg Mae.acc h.maeBesideCaptures :)

theorem Dev.After.nextTick {d e : Dev} (h : d.After e) : e.mae.nextTick = d.mae.nextTick :=
  (congrArg Mae.nextTick h.maeBesideCaptures :)

theorem Dev.After.det {d e : Dev} (h : d.After e) (n : Nat) : e.det n = d.det n := by
  have hd : e.mae.det = d.mae.det := (congrArg Mae.det h.maeBesideCaptures :)
  unfold Dev.det
  rw [hd]

theorem Dev.After.slew {d e : Dev} (h : d.After e) : e.mae.slew = d.mae.slew := (congrArg Mae.slew h.maeBesideCaptures :)

/-! ### The count (R32) -/

/-- The mains time after the carry. -/
def Dev.counted (d : Dev) : Dev :=
  { d with mae.acc := d.mae.acc % 2 ^ 40, mae.cyc := d.mae.cyc + 1, mae.nextTick := 0 }

/-- Beside the mains time, the count changes CYC_HI and LAST_CYC_CLK only. -/
theorem Dev.maeCount_turns : d.counted.Turns [Reg.PWR_DOM_STAT, Reg.MULE_CTRL] d.maeCount := by
  have h := Dev.Turns.wr (l := [Reg.PWR_DOM_STAT, Reg.MULE_CTRL]) (d := d.counted) Reg.MAE_LAST_CYC_CLK
    (d.mae.modClk - d.mae.cycStartClk) (by decide)
  refine (h.trans (.mae { d.counted.mae with cycStartClk := d.mae.modClk })).trans ?_
  unfold Dev.maeCount
  exact .ite (.trans (.wr _ _ (by decide)) (.raise _))

theorem Dev.maeCount_calm : d.maeCount.calm = d.calm := d.maeCount_turns.calm (by decide)

theorem Dev.maeCount_domOn (x : Dom) : d.maeCount.domOn x = d.domOn x := d.maeCount_turns.domOn (by decide) x

theorem cyc_carries (c : Word) : c + 1 = 0 ↔ c = 0xFFFFFFFF := by bv_omega

/-- CYC_HI counts the carries of the cycle count. -/
theorem Dev.maeCount_cycHi : d.maeCount.rd Reg.MAE_CYC_HI
    = if d.mae.cyc = 0xFFFFFFFF then (d.rd Reg.MAE_CYC_HI + 1) % 65536 else d.rd Reg.MAE_CYC_HI := by
  have h : (d.wr Reg.MAE_LAST_CYC_CLK (d.mae.modClk - d.mae.cycStartClk)).rd Reg.MAE_CYC_HI = d.rd Reg.MAE_CYC_HI :=
    Dev.rd_wr_ne d _ (by decide)
  have hc := cyc_carries d.mae.cyc
  unfold Dev.maeCount
  dsimp only
  split <;> rename_i hz
  · rw [if_pos (hc.1 hz), Dev.rd_raise, Dev.rd_wr_same]
    have : (d.rd Reg.MAE_CYC_HI + 1) % 65536 % 2 ^ 32 = (d.rd Reg.MAE_CYC_HI + 1) % 65536 := by omega
    exact h ▸ this
  · rw [if_neg (mt hc.2 hz)]
    exact h

theorem Dev.maeCount_wrap (h : d.mae.cyc = 0xFFFFFFFF) : Ev.MAE_CYC_WRAP ∈ d.maeCount.edges := by
  have hz := (cyc_carries _).2 h
  unfold Dev.maeCount
  dsimp only
  rw [if_pos (by exact hz)]
  simp

/-! ### A cycle start -/

/-- With every tick of the cycle emitted, the carry follows in the first clock that reaches it, and angle 0x0000 after it. -/
theorem Dev.cycleStart_carry (t : Int) (hr : d.mae.running = true) (hw : d.mae.slew = 0) (hs : d.settled = true)
    (hp : d.mae.splices = []) (hl : d.lossWithin none (d.clksFor d.toBoundary) = none) (he : d.herd.evalDue = false)
    (hn : d.mae.nextTick = 256) :
    d.cycleStart t = Dev.onZero t (d.maeRun (d.clksFor d.toBoundary)).maeCount := by
  have hi : (d.maeRun (d.clksFor d.toBoundary)).evalHeld = d.maeRun (d.clksFor d.toBoundary) := by
    rw [d.maeRun_flat hw]
    exact Dev.evalHeld_idle _ hp he
  unfold Dev.cycleStart
  rw [if_pos hr, Dev.ticksTo_reached _ hn.ge, d.toNext_flat hs hl, hi]
  rfl

/-- The count reaches the next cycle at an angle below one clock's increment. -/
theorem Dev.maeCount_boundary (hw : d.mae.slew = 0) (hn : d.mae.nextTick = 256) (ha : d.mae.acc < 2 ^ 40)
    (hi : 0 < d.rd Reg.MAE_INC) : (d.maeRun (d.clksFor d.toBoundary)).maeCount.mae.acc < d.rd Reg.MAE_INC := by
  have hb : d.mae.acc + d.toBoundary = 2 ^ 40 := by
    unfold Dev.toBoundary
    rw [hn, if_neg (by decide)]
    omega
  obtain ⟨h1, h2⟩ := d.acc_boundary hw hi
  have hr := d.rd_lt Reg.MAE_INC
  rw [Dev.maeCount_turns _ |>.acc]
  unfold Dev.counted
  dsimp only
  omega

/-- R32: what a cycle start leaves. -/
theorem Dev.cycleStart_facts (t : Int) (hr : d.mae.running = true) (hw : d.mae.slew = 0) (hs : d.settled = true)
    (hp : d.mae.splices = []) (hl : d.lossWithin none (d.clksFor d.toBoundary) = none) (he : d.herd.evalDue = false)
    (hn : d.mae.nextTick = 256) (ha : d.mae.acc < 2 ^ 40) (hi : 0 < d.rd Reg.MAE_INC) (hm : d.domOn .met = true) :
    (d.cycleStart t).calm = d.calm ∧ (d.cycleStart t).domOn .met = true
    ∧ (d.cycleStart t).mae.cyc = d.mae.cyc + 1 ∧ (d.cycleStart t).mae.nextTick = 0
    ∧ (d.cycleStart t).mae.acc < d.rd Reg.MAE_INC
    ∧ (d.cycleStart t).rd Reg.MAE_CYC_HI
        = (if d.mae.cyc = 0xFFFFFFFF then (d.rd Reg.MAE_CYC_HI + 1) % 65536 else d.rd Reg.MAE_CYC_HI)
    ∧ (d.mae.cyc = 0xFFFFFFFF → Ev.MAE_CYC_WRAP ∈ (d.cycleStart t).edges)
    ∧ (d.cycleStart t).f Fld.MET_CAL_DIE_T_T = unsgn 16 t := by
  rw [d.cycleStart_carry t hr hw hs hp hl he hn]
  have hacc := d.maeCount_boundary hw hn ha hi
  have hrun := d.maeRun_flat hw (d.clksFor d.toBoundary)
  generalize d.maeRun _ = g at hacc hrun
  have hcyc : g.mae.cyc = d.mae.cyc := by rw [hrun]
  have hcalm : g.calm = d.calm := by rw [hrun]; rfl
  have hmet : g.maeCount.domOn .met = true := by rw [g.maeCount_domOn, hrun]; exact hm
  have hhi : g.rd Reg.MAE_CYC_HI = d.rd Reg.MAE_CYC_HI := by rw [hrun]; rfl
  obtain ⟨turns, hdie⟩ := g.maeCount.onZero_turns t hmet
  refine ⟨?_, ?_, ?_, ?_, ?_, ?_, fun hc => ?_, hdie⟩
  · rw [turns.calm (by decide), g.maeCount_calm, hcalm]
  · rw [turns.domOn (by decide), hmet]
  · rw [turns.cyc, g.maeCount_turns.cyc, ← hcyc]
    rfl
  · rw [turns.nextTick, g.maeCount_turns.nextTick]
    rfl
  · rw [turns.acc]
    exact hacc
  · rw [turns.rd _ (by decide), g.maeCount_cycHi, hcyc, hhi]
  · exact turns.grows _ (g.maeCount_wrap (hcyc.trans hc))

/-- R34: the tick is emitted in the first clock in which the angle has reached it. -/
theorem Dev.sampleTick_facts {k : Nat} (hk : k < 256) (hr : d.mae.running = true) (hw : d.mae.slew = 0)
    (he : d.herd.evalDue = false) (hs : d.settled = true) (hp : d.mae.splices = [])
    (hl : d.lossWithin none (d.clksFor d.toBoundary) = none) (hm : d.domOn .met = true) (hn : d.mae.nextTick = k)
    (ha : d.mae.acc ≤ k * 2 ^ 32) (hi : 0 < d.rd Reg.MAE_INC) :
    (d.sampleTick k).mae.nextTick = k + 1 ∧ k * 2 ^ 32 ≤ (d.sampleTick k).mae.acc
    ∧ (d.mae.acc < k * 2 ^ 32 → (d.sampleTick k).mae.acc < k * 2 ^ 32 + d.rd Reg.MAE_INC)
    ∧ (d.sampleTick k).mae.cyc = d.mae.cyc
    ∧ (∃ t : TickIn, (d.sampleTick k).fe.ticks = d.fe.ticks ++ [t] ∧ t.cyc = d.mae.cyc ∧ t.tick = k
        ∧ t.clk = (d.sampleTick k).mae.modClk)
    ∧ (d.sampleTick k).herd = { d.herd with evalDue := d.herdRuns } ∧ (d.sampleTick k).regs = d.regs := by
  have hb : d.mae.acc + d.toBoundary = k * 2 ^ 32 := by
    unfold Dev.toBoundary
    rw [hn, if_pos hk]
    omega
  obtain ⟨h1, h2⟩ := d.acc_boundary hw hi
  rw [hb] at h1 h2
  obtain ⟨em, ht, eh, er⟩ := Dev.emitTick_facts (d.maeRun (d.clksFor d.toBoundary)) k (by rw [d.maeRun_flat hw]; exact hp)
    (by rw [d.maeRun_flat hw]; exact he) (by rw [d.maeRun_flat hw]; exact hm)
  rw [d.sampleTick_next hr hn, d.toNext_flat hs hl, em, eh, er]
  rw [d.maeRun_flat hw] at h1 h2 ht ⊢
  exact ⟨rfl, h1, fun _ => h2, rfl, ht, rfl, rfl⟩

/-- Settles O18: the accumulator stops in the first clock that reaches the tick, or carries out; what is due at angle 0x0000
leaves the cycle count, CYC_HI and the event of its carry. -/
theorem sampleTicksAndCycleStarts : Obligations.SampleTicksAndCycleStarts := by
  constructor
  · intro s k hr hw he hs hp hl hm hn ha hi
    exact effects_run rfl (Dev.sampleTick_facts (s.dev.answer .none) k.isLt hr hw he hs hp hl hm hn ha hi)
  · intro s t hc hr hw hs hp hl he hn ha hi hm
    obtain ⟨calm, met, cyc, tick, acc, high, wrap, die⟩ :=
      Dev.cycleStart_facts (s.dev.answer .none) t hr hw hs hp hl he hn ha hi hm
    refine yields_run (f := (Dev.cycleStart · t)) rfl (calm.trans hc) fun e hA hF => ?_
    refine ⟨hA.cyc.trans cyc, hA.nextTick.trans tick, hA.acc.trans_lt acc, (hA.rd (by decide)).trans high, fun h => ?_,
      (hA.f (by decide)).trans die⟩
    rw [hF]
    exact Dev.finish_pends _ (calm.trans hc) ((Bool.and_true _).trans met) (wrap h)

end Sys2Proof.Machine
end

section
/-! SUPPORT. R37, R42, R45–R47: a crossing of the reference followed in LOCKED, in the present clock. -/

namespace Sys2Proof.Machine

variable (d : Dev)

/-! ### No time passes -/

theorem Dev.passBut_zero {spare : Option (Fin 3)} (hw : d.mae.slew = 0) (hl : d.lossWithin spare 0 = none)
    (ha : d.mae.acc < 2 ^ 40) (t : Int) : d.passBut spare 0 t = d := by
  have h0 := d.clocks_zero hw
  unfold Dev.passBut
  split
  · unfold Dev.advance
    simp only [Nat.zero_min, hl]
    split
    · rw [if_pos (Nat.zero_le _), h0]
    · rename_i hn
      have hb : d.toBoundary ≠ 0 := by
        unfold Dev.toBoundary
        rw [if_neg hn]
        omega
      rw [if_pos (Nat.pos_of_ne_zero (mt (d.clksFor_eq_zero _).1 hb)), h0]
  · rfl

/-! ### References -/

theorem Dev.det_setDet (n : Fin 3) (t : RefDet) (m : Fin 3) :
    (d.setDet n t).det m.val = if m = n then t else d.det m.val := by
  unfold Dev.det Dev.setDet
  by_cases h : m = n
  · subst h
    simp
  · have hv : n.val ≠ m.val := fun e => h (Fin.ext e.symm)
    simp [h, hv]

/-- A reference that has just crossed is not lost in this clock. -/
theorem Dev.lossDist_crossed {n : Nat} (h : (d.det n).span = 0) : d.lossDist n ≠ some 0 := by
  unfold Dev.lossDist
  simp only [h]
  have hp := Nat.mod_lt (d.mae.acc + 2 ^ 40 - (d.expected n + d.mae.crossWin + 1) * 2 ^ 24 % 2 ^ 40) (y := 2 ^ 40) (by decide)
  split_ifs <;> simp only [ne_eq, reduceCtorEq, not_false_eq_true, Option.some.injEq] <;> omega

/-- What the time left for a crossing is told from. -/
theorem Dev.lossDist_congr {d e : Dev} {m : Fin 3} (hv : (e.det m.val).valid = (d.det m.val).valid)
    (hs : (e.det m.val).span = (d.det m.val).span) (hst : e.maeState = d.maeState)
    (hr : e.f Fld.MAE_STATUS_REF_ACT = d.f Fld.MAE_STATUS_REF_ACT) (ha : e.mae.acc = d.mae.acc)
    (hc : e.mae.crossWin = d.mae.crossWin) (hz : e.mae.zcOfs = d.mae.zcOfs) (ho : e.mae.refOfs = d.mae.refOfs) :
    e.lossDist m.val = d.lossDist m.val := by
  unfold Dev.lossDist Dev.watched Dev.followed Dev.following Dev.expected
  rw [hv, hs, hst, hr, ha, hc, hz, ho]

/-! ### The crossing -/

/-- The MAE is in LOCKED on reference `n`, its last crossing at `l`, with no slew in force, nothing outstanding, and no
reference to be lost in this clock. -/
structure Dev.LockedOn (d : Dev) (n : Fin 3) (l : Nat) : Prop where
  running : d.mae.running = true
  flat : d.mae.slew = 0
  noEval : d.herd.evalDue = false
  noSplice : d.mae.splices = []
  unlost : d.lossWithin none 0 = none
  acc : d.mae.acc < 2 ^ 40
  state : d.maeState = maeLocked
  act : d.f Fld.MAE_STATUS_REF_ACT = n.val
  last : (d.det n.val).last = some l
  interval : intervalOk (d.mae.modClk - l) = true

/-- R38: the phase error of a crossing of reference `n` now. -/
def Dev.phaseErr (d : Dev) (n : Nat) : Int := wrapAu ((d.expected n : Int) - (d.mae.acc / 2 ^ 24 : Nat))

/-- R46: the intervals that FREQ is taken from, once the crossing after `l` is accepted. -/
def Dev.meanOver (d : Dev) (n l : Nat) : List Nat :=
  (((d.mae.modClk - l) :: (d.det n).ivals).take 8).take (2 ^ d.f Fld.MAE_CTRL_FREQ_AVG)

/-- An accepted crossing of reference `n` in LOCKED, the one before at `l`: FREQ is taken. -/
def Dev.measured (d : Dev) (n : Fin 3) (l : Nat) : Dev :=
  (d.acceptCrossing n d.mae.modClk 0).setFreq (freqOf (d.meanOver n.val l))

/-- A refused crossing of reference `n`: it has no previous one, and no run of crossings (R37). -/
def Dev.uncrossed (d : Dev) (n : Fin 3) : Dev := d.setDet n { d.det n.val with last := none, run := 0 }

theorem Dev.uncrossed_det (n m : Fin 3) :
    (d.uncrossed n).det m.val = if m = n then { d.det n.val with last := none, run := 0 } else d.det m.val :=
  d.det_setDet n _ m

namespace Dev.LockedOn

variable {d : Dev} {n : Fin 3} {l : Nat} (h : d.LockedOn n l)
include h

theorem zeroCrossing_now {t : Elapse} (ht : t.clks = 0) :
    d.zeroCrossing n t 0 = Dev.lossesNow 3 (d.crossing (Dev.onZero t.dieT) n 0) := by
  unfold Dev.zeroCrossing
  rw [if_pos h.running, ht, Nat.zero_min]
  dsimp only
  rw [d.passBut_zero h.flat h.unlost h.acc,
    d.passBut_zero h.flat (Dev.lossWithin_spare n h.unlost) h.acc, d.evalHeld_idle h.noSplice h.noEval]

theorem angle_now (rate : Nat) : (d.mae.acc + 2 ^ 40 - 0 * rate) % 2 ^ 40 / 2 ^ 24 = d.mae.acc / 2 ^ 24 := by
  have := h.acc
  omega

/-- R37, R46, R47: a crossing within the window and at or above VREF.MIN is accepted; any other leaves no previous crossing
and is otherwise ignored. -/
theorem crossing_eq (z : Dev → Dev) : d.crossing z n 0
    = if d.refOver n.val (d.f Fld.MAE_VREF_MIN) && decide ((d.phaseErr n.val).natAbs ≤ d.mae.crossWin) then
        (d.measured n l).phase z (d.phaseErr n.val)
      else d.uncrossed n := by
  unfold Dev.crossing
  extract_lets t tc rate θ e act followed freqOk rmsOk winOk limit span late was accepted limited k iv taken _ _ refused _
  have hf : followed = true := by simp [followed, act, h.act, Dev.following, h.state]
  have hq : freqOk = true := by
    simp only [freqOk, t, h.last]
    exact h.interval
  have he : e = d.phaseErr n.val := by simp only [e, θ, h.angle_now, Dev.phaseErr]
  have hw : winOk = decide ((d.phaseErr n.val).natAbs ≤ d.mae.crossWin) := by simp [winOk, hf, h.state, he]
  have hl : late = false := by simp [late, h.state, maeLocked, maeAcquire]
  have h1 : limited = accepted := by simp [limited, hl]
  have hi : iv = d.meanOver n.val l := by
    simp only [iv, k, h1, accepted, Dev.acceptCrossing, Dev.det_setDet, if_true, h.last, Dev.meanOver]
    rfl
  have h2 : taken = accepted.setFreq (freqOf (d.meanOver n.val l)) := by
    have hne : d.meanOver n.val l ≠ [] := by simp [Dev.meanOver]
    simp [taken, t, h.last, hi, hne, h1]
  rw [hf, hq, hw, he, h2]
  simp only [Bool.true_and, if_true]
  rfl

end Dev.LockedOn

/-! ### The slew after an accepted crossing (R41, R47) -/

theorem Dev.setSlew_mae (x : Int) :
    (d.setSlew x).mae = { d.mae with slew := x, slewLeft := if x = 0 then 0 else 2 ^ 40 } := by
  simp [Dev.setSlew, Dev.level]

theorem Dev.rd_setSlew (x : Int) {a : Nat} (hs : a ≠ Reg.MAE_STATUS) (hr : a ≠ (eventRaw Ev.MAE_SLEWING).reg) :
    (d.setSlew x).rd a = d.rd a := by
  unfold Dev.setSlew Dev.level
  rw [Dev.rd_raiseIf]
  exact (Dev.rd_setF_ne _ _ _ hr).trans (Dev.rd_setF_ne _ _ _ hs)

/-- A field of MAE.STATUS beside SLEWING. -/
theorem Dev.f_setSlew (x : Int) {g : Field} (hg : g.reg = Reg.MAE_STATUS)
    (hd : g.lo + g.width ≤ Fld.MAE_STATUS_SLEWING.lo ∨ Fld.MAE_STATUS_SLEWING.lo + 1 ≤ g.lo) : (d.setSlew x).f g = d.f g := by
  unfold Dev.setSlew Dev.level
  rw [Dev.f_raiseIf]
  exact (Dev.f_setF_ne _ _ g _ (by rw [hg]; decide)).trans (Dev.f_setF_disj _ Fld.MAE_STATUS_SLEWING g _ hg (by decide) hd)

theorem Dev.slewLimit_of_f {d e : Dev} (h : e.f Fld.MAE_SLEW_LIMIT_SLEW_LIMIT = d.f Fld.MAE_SLEW_LIMIT_SLEW_LIMIT) :
    e.slewLimit = d.slewLimit := by
  unfold Dev.slewLimit
  rw [h]

/-- The device at an accepted crossing with phase error `e`, before it is slewed. -/
def Dev.phased (d : Dev) (e : Int) : Dev :=
  let d := d.wr Reg.MAE_PHASE_ERR (unsgn 16 e)
  { d with mae.lockRun := if e.natAbs ≤ d.f Fld.MAE_LOCK_CFG_LOCK_TOL then d.mae.lockRun + 1 else 0 }

/-- R47: beside ACQUIRE, a phase error within SLEW_LIMIT is slewed and changes no state. -/
theorem Dev.phase_slews (z : Dev → Dev) {e : Int} (hs : d.maeState ≠ maeAcquire) (he : e.natAbs ≤ d.slewLimit) :
    d.phase z e = { (d.phased e).setSlew (slewFor ((d.phased e).rd Reg.MAE_INC) e) with mae.confirm := [] } := by
  have hst : (d.phased e).maeState = d.maeState := Dev.f_wr_ne d _ _ (by decide)
  have hlt : (d.phased e).slewLimit = d.slewLimit := Dev.slewLimit_of_f (Dev.f_wr_ne d _ _ (by decide))
  unfold Dev.phase
  extract_lets written tol errs m counted entered
  have hp : entered = d.phased e := by
    have hc : counted = d.phased e := rfl
    simp [entered, hc, hst, hs]
  clear_value entered
  subst hp
  exact if_pos (hlt ▸ he)

section
variable {d : Dev} (z : Dev → Dev) {e : Int} (hs : d.maeState ≠ maeAcquire) (he : e.natAbs ≤ d.slewLimit)
include hs he

theorem Dev.phase_mae : (d.phase z e).mae = { (d.phased e).mae with
    slew := slewFor ((d.phased e).rd Reg.MAE_INC) e
    slewLeft := if slewFor ((d.phased e).rd Reg.MAE_INC) e = 0 then 0 else 2 ^ 40
    confirm := [] } := by
  rw [d.phase_slews z hs he]
  dsimp only
  rw [Dev.setSlew_mae]

theorem Dev.rd_phase {a : Nat} (hp : a ≠ Reg.MAE_PHASE_ERR) (hst : a ≠ Reg.MAE_STATUS)
    (hr : a ≠ (eventRaw Ev.MAE_SLEWING).reg) : (d.phase z e).rd a = d.rd a := by
  rw [d.phase_slews z hs he]
  exact ((d.phased e).rd_setSlew _ hst hr).trans (d.rd_wr_ne _ hp)

/-- Log entry 12: PHASE_ERR holds the error as a 16-bit number. -/
theorem Dev.rd_phase_err : (d.phase z e).rd Reg.MAE_PHASE_ERR = unsgn 16 e := by
  rw [d.phase_slews z hs he]
  refine ((d.phased e).rd_setSlew _ (by decide) (by decide)).trans ((d.rd_wr_same _ _).trans ?_)
  have := unsgn_lt 16 e
  omega

theorem Dev.f_phase {g : Field} (hg : g.reg = Reg.MAE_STATUS)
    (hd : g.lo + g.width ≤ Fld.MAE_STATUS_SLEWING.lo ∨ Fld.MAE_STATUS_SLEWING.lo + 1 ≤ g.lo) : (d.phase z e).f g = d.f g := by
  rw [d.phase_slews z hs he]
  exact ((d.phased e).f_setSlew _ hg hd).trans (d.f_wr_ne _ g (by rw [hg]; decide))

/-- R47: S is the one that INC and the phase error give. -/
theorem Dev.phase_slew : (d.phase z e).mae.slew = slewFor ((d.phase z e).rd Reg.MAE_INC) e := by
  rw [Dev.phase_mae z hs he, Dev.rd_phase z hs he (by decide) (by decide) (by decide)]
  exact congrArg (slewFor · e) (d.rd_wr_ne _ (by decide))

theorem Dev.phase_turns : d.Turns turnSpared (d.phase z e) := by
  rw [d.phase_slews z hs he]
  exact .trans (.trans (.trans (.wr _ _ (by decide)) (.mae _)) (Dev.setSlew_turns _ _)) (.mae _)

end

/-! ### The accepted crossing as a whole -/

theorem Dev.measured_f {g : Field} (n : Fin 3) (l : Nat) (hf : g.reg ≠ Reg.MAE_FREQ) (hi : g.reg ≠ Reg.MAE_INC) :
    (d.measured n l).f g = d.f g := (Dev.f_wr_ne _ _ g hi).trans (Dev.f_wr_ne _ _ g hf)

theorem Dev.measured_turns (n : Fin 3) (l : Nat) : d.Turns turnSpared (d.measured n l) :=
  (d.setDet_turns n _).trans (Dev.setFreq_turns _ _)

theorem Dev.measured_freq (n : Fin 3) (l : Nat) : (d.measured n l).rd Reg.MAE_FREQ = freqOf (d.meanOver n.val l) % 2 ^ 32 :=
  (Dev.rd_wr_ne _ _ (by decide)).trans (Dev.rd_wr_same _ _ _)

theorem Dev.measured_slewLimit (n : Fin 3) (l : Nat) : (d.measured n l).slewLimit = d.slewLimit :=
  Dev.slewLimit_of_f (d.measured_f n l (by decide) (by decide))

namespace Dev.LockedOn

variable {d : Dev} {n : Fin 3} {l : Nat} (h : d.LockedOn n l)
include h

theorem measured_locked : (d.measured n l).maeState = maeLocked := (d.measured_f n l (by decide) (by decide)).trans h.state

theorem measured_beside : (d.measured n l).maeState ≠ maeAcquire := by
  rw [h.measured_locked]
  decide

/-- No other reference is lost by the change of this one's previous crossing. -/
theorem unlost_of {e : Dev} (hn : e.lossDist n.val ≠ some 0)
    (hm : ∀ m : Fin 3, m ≠ n → e.lossDist m.val = d.lossDist m.val) : e.lossWithin none 0 = none := by
  rw [Dev.lossWithin_zero]
  intro m _
  by_cases hmn : m = n
  · rw [hmn]
    exact hn
  · rw [hm m hmn]
    exact (d.lossWithin_zero none).1 h.unlost m (by simp)

theorem accepted_det (z : Dev → Dev) {e : Int} (he : e.natAbs ≤ (d.measured n l).slewLimit) (m : Fin 3) :
    ((d.measured n l).phase z e).det m.val = (d.acceptCrossing n d.mae.modClk 0).det m.val := by
  unfold Dev.det
  rw [Dev.phase_mae z h.measured_beside he]
  rfl

/-- The accepted crossing is the previous one of the next. -/
theorem accepted_last (z : Dev → Dev) {e : Int} (he : e.natAbs ≤ (d.measured n l).slewLimit) :
    (((d.measured n l).phase z e).det n.val).last = some d.mae.modClk := by
  rw [h.accepted_det z he, Dev.acceptCrossing, Dev.det_setDet, if_pos rfl]

theorem accepted_unlost (z : Dev → Dev) {e : Int} (he : e.natAbs ≤ (d.measured n l).slewLimit) :
    ((d.measured n l).phase z e).lossWithin none 0 = none := by
  have hs := h.measured_beside
  have hdet := h.accepted_det z he
  refine h.unlost_of (Dev.lossDist_crossed _ ?_) fun m hmn => ?_
  · rw [hdet, Dev.acceptCrossing, Dev.det_setDet, if_pos rfl]
    exact Nat.zero_mul _
  · have hd : ((d.measured n l).phase z e).det m.val = d.det m.val := by
      rw [hdet, Dev.acceptCrossing, Dev.det_setDet, if_neg hmn]
    refine Dev.lossDist_congr (by rw [hd]) (by rw [hd]) ?_ ?_ ?_ ?_ ?_ ?_
    · exact (Dev.f_phase z hs he rfl (by decide)).trans (d.measured_f n l (by decide) (by decide))
    · exact (Dev.f_phase z hs he rfl (by decide)).trans (d.measured_f n l (by decide) (by decide))
    all_goals
      rw [Dev.phase_mae z hs he]
      rfl

theorem refused_unlost : (d.uncrossed n).lossWithin none 0 = none := by
  have same : ∀ m : Fin 3, (d.uncrossed n).lossDist m.val = d.lossDist m.val := fun m => by
    refine Dev.lossDist_congr ?_ ?_ rfl rfl rfl rfl rfl rfl
    all_goals
      rw [d.uncrossed_det]
      split <;> simp_all
  exact h.unlost_of (by rw [same]; exact (d.lossWithin_zero none).1 h.unlost n (by simp)) fun m _ => same m

variable {t : Elapse} (ht : t.clks = 0)
include ht

/-- An accepted crossing in the present clock. -/
theorem zeroCrossing_accepted (hv : d.refOver n.val (d.f Fld.MAE_VREF_MIN) = true)
    (hw : (d.phaseErr n.val).natAbs ≤ d.mae.crossWin) (hs : (d.phaseErr n.val).natAbs ≤ d.slewLimit) :
    d.zeroCrossing n t 0 = (d.measured n l).phase (Dev.onZero t.dieT) (d.phaseErr n.val) := by
  rw [h.zeroCrossing_now ht, h.crossing_eq, hv, decide_eq_true hw]
  exact Dev.lossesNow_none _ (h.accepted_unlost _ (by rwa [d.measured_slewLimit])) 3

/-- A refused crossing in the present clock. -/
theorem zeroCrossing_refused
    (hx : d.refOver n.val (d.f Fld.MAE_VREF_MIN) = false ∨ d.mae.crossWin < (d.phaseErr n.val).natAbs) :
    d.zeroCrossing n t 0 = d.uncrossed n := by
  have hg : (d.refOver n.val (d.f Fld.MAE_VREF_MIN) && decide ((d.phaseErr n.val).natAbs ≤ d.mae.crossWin)) = false := by
    rcases hx with hx | hx
    · rw [hx, Bool.false_and]
    · rw [decide_eq_false (by omega), Bool.and_false]
  rw [h.zeroCrossing_now ht, h.crossing_eq, hg]
  exact Dev.lossesNow_none _ h.refused_unlost 3

end Dev.LockedOn

/-- Settles O19: the gates of a crossing in LOCKED accept or refuse it, and neither loses another reference. -/
theorem crossingsInLocked : Obligations.CrossingsInLocked := by
  intro s n t l err hc hr hw he hs ht hl ha hi hst hact hlast hlt h42 h68 herr
  have h : (s.dev.answer .none).LockedOn n l :=
    ⟨hr, hw, he, hs, hl, ha, hst, hact, hlast, by simp [intervalOk, h42, h68]⟩
  obtain rfl : err = (s.dev.answer .none).phaseErr n.val := herr
  constructor
  · intro hv hwin hslew
    have hz := h.zeroCrossing_accepted ht hv hwin hslew
    have hb := h.measured_beside
    have hsl := (Dev.measured_slewLimit _ n l).symm ▸ hslew
    have turns := ((s.dev.answer .none).measured_turns n l).trans (Dev.phase_turns (Dev.onZero t.dieT) hb hsl)
    refine yields_run (f := (Dev.zeroCrossing · n t 0)) rfl (hz ▸ (turns.calm (by decide)).trans hc) fun e hA _ => ?_
    simp only [hz] at hA
    refine ⟨?_, ?_, ?_, ?_, ?_, ?_⟩
    · rw [hA.rd (by decide), Dev.rd_phase_err _ hb hsl]
    · rw [hA.det, h.accepted_last _ hsl]
      rfl
    · rw [hA.rd (by decide), Dev.rd_phase _ hb hsl (by decide) (by decide) (by decide), Dev.measured_freq]
      rfl
    · exact (hA.f (by decide)).trans ((Dev.f_phase _ hb hsl rfl (by decide)).trans h.measured_locked)
    · rw [hA.slew, hA.rd (by decide), Dev.phase_slew _ hb hsl]
    · rw [hA.cyc, turns.cyc]
      rfl
  · intro hx
    have hz := h.zeroCrossing_refused ht hx
    refine yields_run (f := (Dev.zeroCrossing · n t 0)) rfl (hz ▸ hc) fun e hA _ => ?_
    simp only [hz] at hA
    rw [hA.det, Dev.uncrossed_det, if_pos rfl]
    exact ⟨rfl, rfl, hA.acc, hA.cyc, fun a _ hf => hA.rd hf⟩

end Sys2Proof.Machine
end

section
/-! SUPPORT. The registers that accesses to the memories and what HERD, MULE and the UART do after a command write (R73, R74,
R78, R182–R191, R403): every other register stays as it was. -/

namespace Sys2Proof.Machine

/-- The registers that this work writes. -/
def upkeepRegs : List Nat :=
  [Reg.MEMCTL_NONOWN_ADDR, Reg.MEMCTL_NONOWN_INFO, Reg.MEMCTL_ERR_ADDR, Reg.MEMCTL_ERR_INFO]
  ++ (List.range 32).map Reg.MEMCTL_ECC_CNT
  ++ (List.range 16).flatMap (fun n => [Reg.HERD_MISS_CYC n, Reg.HERD_MISS_INFO n])
  ++ [Fld.HERD_MISS_WR_IDX.reg, Reg.HERD_MISS_CNT, Reg.MULE_ERR_INFO]
  ++ (List.range 64).map Reg.MULE_FRAME ++ (List.range 16).map Reg.MEMCTL_BANK_OWN
  ++ (List.range 2).flatMap (fun x => [Reg.UART_DMA_CFG x, Reg.UART_DMA_PTR x])

def isUpkeep (a : Nat) : Bool := upkeepRegs.contains a

/-- Every register but those reads in `e` as in `d`. -/
def Dev.Upkeep (d e : Dev) : Prop := ∀ a, isUpkeep a = false → e.rd a = d.rd a

namespace Dev.Upkeep

variable {d e g : Dev}

theorem of_regs (h : e.regs = d.regs) : d.Upkeep e := fun a _ => Dev.rd_of_regs h a

theorem refl (d : Dev) : d.Upkeep d := of_regs rfl

theorem trans (h : d.Upkeep e) (k : e.Upkeep g) : d.Upkeep g := fun a ha => (k a ha).trans (h a ha)

theorem wr (a v : Nat) (h : isUpkeep a = true) : d.Upkeep (d.wr a v) :=
  fun _ hb => Dev.rd_wr_ne d v (by rintro rfl; simp [h] at hb)

theorem setF (f : Field) (v : Nat) (h : isUpkeep f.reg = true) : d.Upkeep (d.setF f v) := wr _ _ h

theorem raise (n : Nat) : d.Upkeep (d.raise n) := of_regs rfl

theorem raiseIf (c : Bool) (n : Nat) : d.Upkeep (d.raiseIf c n) := of_regs (d.raiseIf_regs c n)

theorem putCode (b w : Nat) (c : Codeword) : d.Upkeep (d.putCode b w c) := of_regs rfl

theorem mem (m : Mem) : d.Upkeep { d with mem := m } := of_regs rfl

theorem herd (h : Herd) : d.Upkeep { d with herd := h } := of_regs rfl

theorem mule (m : Mule) : d.Upkeep { d with mule := m } := of_regs rfl

theorem ports (p : Ports) : d.Upkeep { d with ports := p } := of_regs rfl

theorem foldl {α : Type} (l : List α) (op : Dev → α → Dev) (h : ∀ x (d : Dev), d.Upkeep (op d x)) :
    ∀ d : Dev, d.Upkeep (l.foldl op d) := by
  induction l with
  | nil => exact refl
  | cons x t ih => exact fun d => (h x d).trans (ih _)

end Dev.Upkeep

variable (d : Dev)

/-! ### Memories (R181–R191) -/

theorem bankCounter_upkeep : ∀ b < 32, isUpkeep (Reg.MEMCTL_ECC_CNT b) = true := by decide

theorem Dev.nonOwner_upkeep (g b w : Nat) : d.Upkeep (d.nonOwner g b w) :=
  .trans (.trans (.wr _ _ (by decide)) (.wr _ _ (by decide))) (.raise _)

theorem Dev.eccRecord_upkeep (g b w : Nat) (cls : EccClass) (σ : Nat) (rmw : Bool) : d.Upkeep (d.eccRecord g b w cls σ rmw) :=
  .trans (.trans (.wr _ _ (by decide)) (.wr _ _ (by decide))) (.raiseIf _ _)

theorem Dev.corrected_upkeep (g : Nat) {b : Nat} (w : Nat) (cls : EccClass) (σ : Nat) (rmw : Bool) (h : b < 32) :
    d.Upkeep (d.corrected g b w cls σ rmw) := by
  have hc := (Dev.Upkeep.setF (d := d) (Fld.MEMCTL_ECC_CNT_CE b) (satInc 16 (d.f (Fld.MEMCTL_ECC_CNT_CE b)))
    (bankCounter_upkeep b h)).trans (Dev.eccRecord_upkeep _ g b w cls σ rmw)
  unfold Dev.corrected
  dsimp only
  split
  · exact ((hc.trans (.raise _)).trans (.mem _)).trans (.raise _)
  · exact hc.trans (.raise _)

theorem Dev.uncorrectable_upkeep (g : Nat) {b : Nat} (w : Nat) (cls : EccClass) (σ : Nat) (rmw : Bool) (h : b < 32) :
    d.Upkeep (d.uncorrectable g b w cls σ rmw) :=
  .trans (.trans (.setF (Fld.MEMCTL_ECC_CNT_UE b) _ (bankCounter_upkeep b h)) (Dev.eccRecord_upkeep _ g b w cls σ rmw))
    (.trans (.raise _) (.raiseIf _ _))

theorem Dev.memRead_upkeep (g : Nat) {b : Nat} (w : Nat) (h : b < 32) : d.Upkeep (d.memRead g b w).2 := by
  unfold Dev.memRead Dev.readRow
  split
  · dsimp only
    split
    · exact .refl d
    · exact (Dev.Upkeep.putCode _ _ _).trans (Dev.corrected_upkeep _ g w _ _ _ h)
    · exact (Dev.Upkeep.putCode _ _ _).trans (Dev.corrected_upkeep _ g w _ _ _ h)
    · exact d.uncorrectable_upkeep g w _ _ _ h
    · exact d.uncorrectable_upkeep g w _ _ _ h
  · exact d.nonOwner_upkeep g b w

theorem Dev.memWrite_upkeep (g b w x : Nat) : d.Upkeep (d.memWrite g b w x).2 := by
  unfold Dev.memWrite
  split
  · exact .putCode _ _ _
  · exact d.nonOwner_upkeep g b w

theorem bankOwner_upkeep : ∀ b < 16, isUpkeep (Reg.MEMCTL_BANK_OWN b) = true := by decide

theorem Dev.drained_upkeep (g b : Nat) : d.Upkeep (d.drained g b) := by
  unfold Dev.drained Dev.handoverDone
  split
  · rename_i h
    simp only [Bool.and_eq_true, decide_eq_true_eq] at h
    split
    · exact .trans (.setF (Fld.MEMCTL_BANK_OWN_IN_TRANSIT b) _ (bankOwner_upkeep b h.1)) (.raise _)
    · exact .refl d
  · exact .refl d

/-! ### What HERD and MULE tell each other (R73, R74, R78) -/

theorem frameReg_upkeep : ∀ f < 64, isUpkeep (Reg.MULE_FRAME f) = true := by decide

theorem missRegs_upkeep : ∀ n < 16, isUpkeep (Reg.HERD_MISS_CYC n) = true ∧ isUpkeep (Reg.HERD_MISS_INFO n) = true := by decide

theorem Dev.ctxRelease_upkeep (n : Nat) : d.Upkeep (d.ctxRelease n) := by
  unfold Dev.ctxRelease
  split
  · rename_i f hf
    exact .setF (Fld.MULE_FRAME_HOLD f) _ (frameReg_upkeep f (d.frameOf_lt hf))
  · exact .refl d

theorem Dev.ctxHold_upkeep (n k : Nat) : d.Upkeep (d.ctxHold n k) := by
  unfold Dev.ctxHold
  split
  · rename_i f hf
    exact .setF (Fld.MULE_FRAME_HOLD f) _ (frameReg_upkeep f (d.frameOf_lt hf))
  · exact .refl d

theorem Dev.releaseHolds_upkeep (i : Nat) : d.Upkeep (d.releaseHolds i) := by
  unfold Dev.releaseHolds
  refine .trans (.herd _) (.foldl _ _ (fun h e => ?_) _)
  split
  · exact e.ctxRelease_upkeep _
  · exact .refl e

theorem Dev.endOneshot_upkeep (i : Nat) : d.Upkeep (d.endOneshot i) := by
  have h := d.memRead_upkeep 7 (b := 21) (4 * i + 1) (by decide)
  unfold Dev.endOneshot
  dsimp only
  split <;> rename_i he <;> rw [he] at h
  · split
    · exact (h.trans (.putCode _ _ _)).trans (.herd _)
    · exact h
  · exact h

theorem Dev.missed_upkeep (i cause : Nat) : d.Upkeep (d.missed i cause) := by
  have ht : d.Upkeep ((d.releaseHolds i).setTask { ((d.releaseHolds i).task i).close with lastCause := cause }) :=
    (d.releaseHolds_upkeep i).trans (.herd _)
  unfold Dev.missed
  dsimp only
  generalize (d.releaseHolds i).setTask _ = e at ht ⊢
  obtain ⟨hc, hi⟩ := missRegs_upkeep (e.f Fld.HERD_MISS_WR_IDX) (bits_lt _ _ _)
  exact ht.trans (.trans (.trans (.trans (.trans (.trans (.trans (.wr _ _ hc) (.wr _ _ hi)) (.setF _ _ (by decide)))
    (.raiseIf _ _)) (.wr _ _ (by decide))) (.raise _)) (Dev.endOneshot_upkeep _ _))

theorem Dev.ctxMissed_upkeep (i : Nat) : d.Upkeep (d.ctxMissed i) := by
  unfold Dev.ctxMissed
  dsimp only
  split
  · exact d.missed_upkeep i 4
  · exact .trans (.herd _) (Dev.missed_upkeep _ i 4)

theorem Dev.unitsDone_upkeep : d.Upkeep d.unitsDone := by
  unfold Dev.unitsDone
  refine .foldl _ _ (fun u e => ?_) d
  split
  · exact .trans (.herd _) (.foldl _ _ (fun p g => g.releaseHolds_upkeep _) _)
  · exact .refl e

theorem Dev.muleReports_upkeep : d.Upkeep d.muleReports := by
  unfold Dev.muleReports
  refine .trans (.mule _) (.foldl _ _ (fun p e => ?_) _)
  unfold Dev.herdContext
  dsimp only
  split
  · exact (e.ctxHold_upkeep _ _).trans (.herd _)
  · exact .foldl _ _ (fun h g => g.ctxMissed_upkeep _) e

theorem Dev.pageErr_upkeep (acct cause src : Nat) : d.Upkeep (d.pageErr acct cause src) :=
  .trans (.trans (.wr _ _ (by decide)) (.raiseIf _ _)) (.raise _)

theorem Dev.askContexts_upkeep (i : Nat) : ∀ (cs : List Nat) (d : Dev), d.mule.store ≠ .ready → d.Upkeep (Dev.askContexts i cs d)
  | [], d, _ => .refl d
  | c :: cs, d, h => by
    unfold Dev.askContexts
    split
    · exact Dev.askContexts_upkeep i cs d h
    · split
      · exact .trans (.herd _) (Dev.askContexts_upkeep i cs _ h)
      · rw [d.ctxAsk_notReady c h]
        exact (d.pageErr_upkeep _ _ _).trans (Dev.ctxMissed_upkeep _ i)

theorem Dev.askWaiting_upkeep : ∀ (n : Nat) (d : Dev), d.mule.store ≠ .ready → d.Upkeep (Dev.askWaiting n d)
  | 0, d, _ => .refl d
  | n + 1, d, h => by
    unfold Dev.askWaiting
    split
    · rename_i i c rest _
      split
      · have hc := Dev.askContexts_upkeep i [c] { d with herd.asks := rest } h
        have hs := Dev.askContexts_store i [c] { d with herd.asks := rest }
        exact (Dev.Upkeep.trans (.herd _) hc).trans (Dev.askWaiting_upkeep n _ (by rw [hs]; exact h))
      · exact .refl d
    · exact .refl d

/-! ### The UART (R403) -/

theorem uartRegs_upkeep : ∀ x < 2, isUpkeep (Reg.UART_DMA_CFG x) = true ∧ isUpkeep (Reg.UART_DMA_PTR x) = true := by decide

theorem Dev.uartStop_upkeep {x : Nat} (h : x < 2) : d.Upkeep (d.uartStop x) :=
  .setF (Fld.UART_DMA_CFG_EN x) _ (uartRegs_upkeep x h).1

theorem Dev.uartRing_upkeep : ∀ (n : Nat) (d : Dev), d.Upkeep (Dev.uartRing n d)
  | 0, d => .refl d
  | n + 1, d => by
    unfold Dev.uartRing
    dsimp only
    split
    · split
      · exact d.uartStop_upkeep (by decide)
      · rename_i b w _
        have h := (d.drained_upkeep 6 b).trans (Dev.memWrite_upkeep _ 6 b w (leNat (d.ports.uart.rx.take 4)))
        split <;> rename_i he <;> rw [he] at h
        · exact ((h.trans (.ports _)).trans (.setF (Fld.UART_DMA_PTR_PTR 0) _ (by decide))).trans (Dev.uartRing_upkeep n _)
        · exact h.trans (Dev.uartStop_upkeep _ (by decide))
    · exact .refl d

theorem Dev.uartDmaByte_upkeep : d.Upkeep d.uartDmaByte.2 := by
  unfold Dev.uartDmaByte
  dsimp only
  split
  · split
    · exact d.uartStop_upkeep (by decide)
    · rename_i b w hw
      have h := (d.drained_upkeep 6 b).trans (Dev.memRead_upkeep _ 6 w (d.uartWord_bank hw))
      split <;> rename_i he <;> rw [he] at h
      · exact h.trans (.setF (Fld.UART_DMA_PTR_PTR 1) _ (by decide))
      · exact h.trans (Dev.uartStop_upkeep _ (by decide))
  · exact .refl d

theorem Dev.uartSend_upkeep : d.Upkeep d.uartSend := by
  unfold Dev.uartSend
  split
  · split
    · exact .ports _
    · have h := d.uartDmaByte_upkeep
      split <;> rename_i he <;> rw [he] at h
      · exact h.trans (.ports _)
      · exact h
  · exact .refl d

theorem Dev.uartGo_upkeep : d.Upkeep d.uartGo := by
  unfold Dev.uartGo
  split
  · exact .trans (.trans (.ports _) (Dev.uartSend_upkeep _)) (Dev.uartRing_upkeep 4 _)
  · exact .refl d

end Sys2Proof.Machine
end

section
/-! SUPPORT. Where the follow-up work of a command ends held up (`Dev.HeldUp`), with a state request waiting and SYS in
check mode, it has written upkeep and follow-up registers only. -/

namespace Sys2Proof.Machine

/-- The registers that the follow-up work may have written where it ends so. -/
def isWork (a : Nat) : Bool := isUpkeep a || follows a

/-- If `e` is held up, then so was `d`, and from `d` to `e` only registers of the follow-up work have changed. -/
structure Dev.BackKeeps (d e : Dev) : Prop where
  back : d.Back e
  rd : e.HeldUp → ∀ a, isWork a = false → e.rd a = d.rd a

namespace Dev.BackKeeps

variable {d e g : Dev}

theorem trans (h : d.BackKeeps e) (k : e.BackKeeps g) : d.BackKeeps g :=
  ⟨h.back.trans k.back, fun hg a ha => (k.rd hg a ha).trans (h.rd (k.back.held hg) a ha)⟩

/-- Work that is not done where its end is held up. -/
theorem of_eq (hb : d.Back e) (h : e.HeldUp → e = d) : d.BackKeeps e := ⟨hb, fun he a _ => by rw [h he]⟩

theorem upkeep (hb : d.Back e) (h : d.Upkeep e) : d.BackKeeps e :=
  ⟨hb, fun _ a ha => h a (by simp only [isWork, Bool.or_eq_false_iff] at ha; exact ha.1)⟩

theorem after (h : d.After e) : d.BackKeeps e :=
  ⟨.after h, fun _ a ha => h.rd (by simp only [isWork, Bool.or_eq_false_iff] at ha; exact ha.2)⟩

end Dev.BackKeeps

variable (d : Dev)

/-! ### Work that does not end held up -/

theorem Dev.bootTry_heldUp (h : d.bootTry.HeldUp) : d.bootTry = d := by
  have hp := (d.bootTry_back.held h).phase
  unfold Dev.bootTry at h ⊢
  split
  · rename_i hr
    rw [if_pos hr, hp] at h
    exact absurd h d.bootCheck_moves
  · rfl

theorem Dev.appBootDue_heldUp (h : d.appBootDue.HeldUp) : d.appBootDue = d := by
  have hr := (d.appBootDue_back.held h).rom
  simp [Dev.appBootDue, Dev.appBoot, hr]

theorem Dev.muleTryRestore_heldUp (h : d.muleTryRestore.HeldUp) : d.muleTryRestore = d := by
  have hs := (d.muleTryRestore_back.held h).store
  simp [Dev.muleTryRestore, hs]

theorem Dev.txAbort_heldUp (h : d.txAbort.HeldUp) : d.txAbort = d := by
  unfold Dev.txAbort at h ⊢
  split
  · rename_i hq
    rw [if_pos hq] at h
    exact absurd h (Dev.txEnd_moves _)
  · rfl

theorem Dev.txHeld_heldUp (h : d.txHeld.HeldUp) : d.txHeld = d := by
  have hw := (d.txHeld_back.held h).word
  unfold Dev.txHeld at h ⊢
  split <;> rename_i hx
  · rfl
  · rename_i x
    simp only [hx, Option.any_some, Bool.and_eq_true] at h hw
    obtain ⟨v, hv⟩ := Option.isSome_iff_exists.1 hw.1
    simp only [hv] at h ⊢
    split <;> rename_i he
    · rfl
    · rw [he] at h
      exact absurd h (Dev.txClose_moves _ (Dev.readsOn_moves (Dev.txFail_readsOn _ _)))
    · rw [he] at h
      exact absurd h (Dev.txClose_moves _ (Dev.readsOn_moves (Dev.txWrites_readsOn _ _
        (Dev.readsOn_setTx _ fun y hy => Dev.txStep_readsOn _ y hy))))

theorem Dev.askWaiting_backKeeps (n : Nat) : d.BackKeeps (Dev.askWaiting n d) := by
  refine ⟨d.askWaiting_back n, fun h a ha => ?_⟩
  have hs := ((d.askWaiting_back n).held h).store
  exact (Dev.BackKeeps.upkeep (d.askWaiting_back n) (Dev.askWaiting_upkeep n d (by simp [hs]))).rd h a ha

/-! ### Work that its own end shows not to have been done -/

theorem Dev.wakeCheck_checking (h : d.wakeCheck.watch.checkMode = true) : d.wakeCheck = d := by
  unfold Dev.wakeCheck Dev.leaveCheck at h ⊢
  split
  · split
    · rename_i h1 h2
      rw [if_pos h1, if_pos h2, (Dev.sysStart_works _ _).watch] at h
      cases h
    · rfl
  · rfl

/-! ### The whole follow-up work -/

theorem Dev.finish_heldUp (h : d.finish.HeldUp) (hp : d.finish.pwr.pend ≠ none) (hm : d.finish.watch.checkMode = true)
    {a : Nat} (ha : isWork a = false) : d.finish.rd a = d.rd a := by
  have front : d.BackKeeps (Dev.askWaiting 8 ((d.bootTry.appBootDue.muleReports).unitsDone)).muleTryRestore.txHeld :=
    .trans (.trans (.trans (.trans (.trans (.trans (.of_eq d.bootTry_back d.bootTry_heldUp)
      (.of_eq (Dev.appBootDue_back _) (Dev.appBootDue_heldUp _)))
      (.upkeep (.works (Dev.muleReports_works _)) (Dev.muleReports_upkeep _)))
      (.upkeep (.works (Dev.unitsDone_works _)) (Dev.unitsDone_upkeep _))) (Dev.askWaiting_backKeeps _ 8))
      (.of_eq (Dev.muleTryRestore_back _) (Dev.muleTryRestore_heldUp _))) (.of_eq (Dev.txHeld_back _) (Dev.txHeld_heldUp _))
  have back : ∀ e : Dev, e.BackKeeps e.voteSync.mspiRefresh.errRefresh.dropCheck.txAbort.uartGo := fun e =>
    .trans (.trans (.after e.beforeSettle_after) (.of_eq (Dev.txAbort_back _) (Dev.txAbort_heldUp _)))
      (.upkeep (.works (Dev.uartGo_works _)) (Dev.uartGo_upkeep _))
  have last : ∀ e : Dev, e.wakeCheck.pendStart.upBegin.settle.pwr.pend ≠ none →
      e.wakeCheck.pendStart.upBegin.settle.watch.checkMode = true → e.BackKeeps e.wakeCheck.pendStart.upBegin.settle :=
    fun e he hc => by
      have ha := e.wakeCheck.pendStart.upBegin_after.trans (Dev.settle_after _)
      rw [ha.request] at he
      rw [ha.mode] at hc
      rw [e.wakeCheck.pendStart_waits he] at ha hc ⊢
      rw [e.wakeCheck_checking hc] at ha ⊢
      exact .after ha
  exact ((front.trans (back _)).trans (last _ hp hm)).rd h a ha

end Sys2Proof.Machine
end

section
/-! SUPPORT. SPLICE_EVALUATION of a splice that a task falls due twice in: its TICK has been brought forward since its due time
was found, so that its next due time, one PERIOD of cycles later, still lies before TO (R63, R79). -/

namespace Sys2Proof.Machine

/-- A splice from 0x400 of cycle 0 to 0x300 of cycle 1, less than a cycle. -/
def nearCycle : Splice := ⟨0, 0x400, 1, 0x300⟩

/-- Task 0, armed, due at tick 5 of cycle 0. -/
def dueAtFive : HTask := { idx := 0, armed := true, due := some (0, 5) }

/-- Its descriptor: PERIOD 1, TICK 0, EVT_RAISE of a USR event. -/
def tickZero : Desc := descOf 1 (6 * 2 ^ 16 + 2 ^ 23) 0 (Ev.HERD_USR 0)

/-- HERD runs with the one task, the splice to be evaluated, in a device that is held up. -/
def retimedDev : Dev :=
  let d : Dev :=
    { (((((Dev.reset.setDom .sys 3).setDom .per 3).setDom .met 3).setF Fld.MEMCTL_CLEAR_BUSY 1).setF Fld.HERD_CTRL_EN 1) with
      mae := { running := true, splices := [nearCycle] }
      herd := { tasks := [dueAtFive] }
      mule := { store := .failed }
      boot := { rom := true, appDue := true }
      ports := { host := { tx := some { i2c := false, addr := 0, held := some 0, next := some .held } } }
      watch := { checkMode := true }
      pwr.pend := some .idle }
  [1, 6 * 2 ^ 16 + 2 ^ 23, 0, Ev.HERD_USR 0].zipIdx.foldl (fun d p => d.putCode 21 p.2 (encodeWord 21 p.2 p.1)) d

def retimedState : State := { dev := retimedDev, pending := [] }

def retimedEnd : Dev := (retimedDev.answer .none).spliceEvals.finish

theorem retimedState_exec : exec .spliceEvaluation retimedState = .next { retimedState with dev := retimedEnd } := rfl

theorem retimedEnd_heldUp : retimedEnd.HeldUp :=
  ⟨by decide +kernel, by decide +kernel, by decide +kernel, by decide +kernel, by decide +kernel, by decide +kernel⟩

theorem retimedEnd_waits : retimedEnd.pwr.pend ≠ none ∧ retimedEnd.watch.checkMode = true := by decide +kernel

/-- LATE_CNT has gone up by two. -/
theorem retimedEnd_late : retimedEnd.rd Reg.HERD_LATE_CNT = 2 := by decide +kernel

/-- Refutes O24 at SPLICE_EVALUATION: the task falls due LATE at tick 5 of cycle 0 and again, before TO, at tick 0 of cycle 1,
its present TICK; LATE_CNT goes up by two.  `Effects` shows the command's own work only through the follow-up work, which has
left the counter alone (`Dev.finish_heldUp`). -/
theorem not_enableAndSplice : ¬ Obligations.EnableAndSplice := by
  intro h
  obtain ⟨-, -, hs⟩ := h
  obtain ⟨e, he, -, -, hl, -⟩ := hs retimedState dueAtFive tickZero nearCycle 0 5 (by decide) rfl rfl rfl rfl rfl (by decide)
    rfl rfl rfl rfl (by decide) (by decide) (by decide) (by decide) (by decide) (by decide) (by decide) rfl rfl (by decide)
  have hd : retimedEnd = e.finish := next_dev (retimedState_exec ▸ he)
  have h0 : retimedState.dev.rd Reg.HERD_LATE_CNT = 0 := by decide
  obtain ⟨hp, hm⟩ := retimedEnd_waits
  have hk := Dev.finish_heldUp e (hd ▸ retimedEnd_heldUp) (hd ▸ hp) (hd ▸ hm) (a := Reg.HERD_LATE_CNT) (by decide)
  rw [← hd, retimedEnd_late, hl, h0] at hk
  exact absurd hk (by decide)

end Sys2Proof.Machine
end

section
/-! SUPPORT. HERD's state store (R59, R62, R64, R74): the record of a task after a write of a record, after the end of an
occurrence and after a release of holds, and what the reads of the task RAM that go with them leave as it was. -/

namespace Sys2Proof.Machine

/-! ### Task records -/

theorem find_putTask (t : HTask) (i : Nat) : ∀ l : List HTask,
    (putTask t l).find? (·.idx == i) = if i = t.idx then some t else l.find? (·.idx == i)
  | [] => by
    by_cases h : i = t.idx
    · simp [putTask, h]
    · simp [putTask, h, Ne.symm h]
  | u :: us => by
    have ih := find_putTask t i us
    unfold putTask
    by_cases h : i = t.idx
    · subst h
      rw [if_pos rfl] at ih ⊢
      split
      · simp
      · split
        · simp
        · rename_i hne
          simp [Ne.symm hne, ih]
    · rw [if_neg h] at ih ⊢
      split
      · simp [Ne.symm h]
      · split
        · rename_i he
          simp [he ▸ Ne.symm h, Ne.symm h]
        · simp [List.find?_cons, ih]

variable (d : Dev)

/-- The record of a task after a write of a record. -/
theorem Dev.task_setTask (t : HTask) (i : Nat) : (d.setTask t).task i = if i = t.idx then t else d.task i := by
  unfold Dev.task Dev.setTask
  dsimp only
  split
  · rename_i ht
    rw [List.find?_filter]
    by_cases h : i = t.idx
    · subst h
      rw [if_pos rfl, List.find?_eq_none.2 (by simp), ht]
      rfl
    · rw [if_neg h]
      congr 2
      funext u
      by_cases hu : u.idx = i
      · simp [hu, h]
      · simp [hu]
  · rw [find_putTask]
    split <;> rfl

theorem Dev.task_setTask_ne (t : HTask) {i : Nat} (h : i ≠ t.idx) : (d.setTask t).task i = d.task i := by
  rw [d.task_setTask, if_neg h]

@[simp] theorem Dev.task_idx (i : Nat) : (d.task i).idx = i := by
  unfold Dev.task
  cases h : d.herd.tasks.find? (·.idx == i) with
  | none => rfl
  | some t => simpa using List.find?_some h

theorem Dev.task_of_tasks {d e : Dev} (h : e.herd.tasks = d.herd.tasks) (i : Nat) : e.task i = d.task i := by
  simp only [Dev.task, h]

/-- A task with a record is listed. -/
theorem Dev.task_mem {i : Nat} (h : d.task i ≠ { idx := i }) : d.task i ∈ d.herd.tasks := by
  unfold Dev.task at h ⊢
  cases hf : d.herd.tasks.find? (·.idx == i) with
  | none => simp [hf] at h
  | some t => exact List.mem_of_find?_eq_some hf

theorem Dev.mem_of_armed {i : Nat} (h : (d.task i).armed = true) : d.task i ∈ d.herd.tasks :=
  d.task_mem fun e => by simp [e] at h

theorem Dev.mem_of_open {i : Nat} (h : (d.task i).open = true) : d.task i ∈ d.herd.tasks :=
  d.task_mem fun e => by simp [e, HTask.open] at h

@[simp] theorem HTask.close_idx (t : HTask) : t.close.idx = t.idx := rfl

theorem HTask.close_of_not_open {t : HTask} (h : t.open = false) : t.waiting = false ∧ t.moved = none ∧ t.search = none := by
  simpa [HTask.open, and_assoc] using h

/-! ### What goes with the end of an occurrence beside the records -/

/-- The registers that the release of holds and a read of the task RAM write. -/
def sideRegs : List Nat :=
  [Reg.MEMCTL_ERR_ADDR, Reg.MEMCTL_ERR_INFO] ++ (List.range 32).map Reg.MEMCTL_ECC_CNT ++ (List.range 64).map Reg.MULE_FRAME

def isSide (a : Nat) : Bool := sideRegs.contains a

/-- From `d` to `e` only those registers, the memories and HERD's records have changed, and no event is lost. -/
structure Dev.Side (d e : Dev) : Prop where
  rd : ∀ a, isSide a = false → e.rd a = d.rd a
  mae : e.mae = d.mae
  due : e.herd.evalDue = d.herd.evalDue
  grows : d.Grows e

namespace Dev.Side

variable {d e g : Dev}

theorem refl (d : Dev) : d.Side d := ⟨fun _ _ => rfl, rfl, rfl, .of_eq rfl⟩

theorem trans (h : d.Side e) (k : e.Side g) : d.Side g :=
  ⟨fun a ha => (k.rd a ha).trans (h.rd a ha), k.mae.trans h.mae, k.due.trans h.due, h.grows.trans k.grows⟩

theorem wr (a v : Nat) (h : isSide a = true) : d.Side (d.wr a v) :=
  ⟨fun _ hb => Dev.rd_wr_ne d v (by rintro rfl; simp [h] at hb), rfl, rfl, .of_eq rfl⟩

theorem setF (f : Field) (v : Nat) (h : isSide f.reg = true) : d.Side (d.setF f v) := wr _ _ h

theorem raise (n : Nat) : d.Side (d.raise n) := ⟨fun _ _ => rfl, rfl, rfl, .raise n⟩

theorem raiseIf (c : Bool) (n : Nat) : d.Side (d.raiseIf c n) := by cases c; exacts [refl d, raise n]

theorem putCode (b w : Nat) (c : Codeword) : d.Side (d.putCode b w c) := ⟨fun _ _ => rfl, rfl, rfl, .of_eq rfl⟩

theorem mem (m : Mem) : d.Side { d with mem := m } := ⟨fun _ _ => rfl, rfl, rfl, .of_eq rfl⟩

theorem herd (h : Herd) (hd : h.evalDue = d.herd.evalDue := by rfl) : d.Side { d with herd := h } :=
  ⟨fun _ _ => rfl, rfl, hd, .of_eq rfl⟩

theorem setTask (t : HTask) : d.Side (d.setTask t) := herd _

theorem f (h : d.Side e) (g : Field) (hg : isSide g.reg = false) : e.f g = d.f g := Dev.f_of_rd (h.rd _ hg)

theorem domOn (h : d.Side e) (x : Dom) : e.domOn x = d.domOn x := by
  simp only [Dev.domOn, Dev.domStat, h.f (Dev.domField x) (by cases x <;> decide)]

end Dev.Side

/-! ### Reads of the task RAM (R66, R188, R189) -/

theorem bankCounter_side : ∀ b < 32, isSide (Reg.MEMCTL_ECC_CNT b) = true := by decide

/-- From `d` to `e` only registers and the mark of CE_THR have changed, and no event is lost. -/
structure Dev.Notes (d e : Dev) : Prop where
  herd : e.herd = d.herd
  mae : e.mae = d.mae
  sram : e.mem.sram = d.mem.sram
  undef : e.mem.undef = d.mem.undef
  grows : d.Grows e

namespace Dev.Notes

variable {d e g : Dev}

theorem refl (d : Dev) : d.Notes d := ⟨rfl, rfl, rfl, rfl, .of_eq rfl⟩

theorem trans (h : d.Notes e) (k : e.Notes g) : d.Notes g :=
  ⟨k.herd.trans h.herd, k.mae.trans h.mae, k.sram.trans h.sram, k.undef.trans h.undef, h.grows.trans k.grows⟩

theorem wr (a v : Nat) : d.Notes (d.wr a v) := ⟨rfl, rfl, rfl, rfl, .of_eq rfl⟩

theorem setF (f : Field) (v : Nat) : d.Notes (d.setF f v) := wr _ _

theorem raise (n : Nat) : d.Notes (d.raise n) := ⟨rfl, rfl, rfl, rfl, .raise n⟩

theorem raiseIf (c : Bool) (n : Nat) : d.Notes (d.raiseIf c n) := by cases c; exacts [refl d, raise n]

theorem marked (d : Dev) : d.Notes { d with mem.ceThrDone := true } := ⟨rfl, rfl, rfl, rfl, .of_eq rfl⟩

theorem codeword (h : d.Notes e) (b w : Nat) : e.codeword b w = d.codeword b w := by
  simp only [Dev.codeword, h.sram, h.undef]

theorem task (h : d.Notes e) (i : Nat) : e.task i = d.task i := Dev.task_of_tasks (by rw [h.herd]) i

end Dev.Notes

theorem Dev.eccRecord_side (g b w : Nat) (cls : EccClass) (σ : Nat) (rmw : Bool) : d.Side (d.eccRecord g b w cls σ rmw) :=
  .trans (.trans (.wr _ _ (by decide)) (.wr _ _ (by decide))) (.raiseIf _ _)

theorem Dev.eccRecord_notes (g b w : Nat) (cls : EccClass) (σ : Nat) (rmw : Bool) : d.Notes (d.eccRecord g b w cls σ rmw) :=
  .trans (.trans (.wr _ _) (.wr _ _)) (.raiseIf _ _)

/-- R189: what a correction leaves beside its counter and its record. -/
theorem Dev.corrected_frame (g : Nat) {b : Nat} (w : Nat) (cls : EccClass) (σ : Nat) (rmw : Bool) (h : b < 32) :
    d.Side (d.corrected g b w cls σ rmw) ∧ d.Notes (d.corrected g b w cls σ rmw) := by
  have hs := (Dev.Side.setF (d := d) (Fld.MEMCTL_ECC_CNT_CE b) (satInc 16 (d.f (Fld.MEMCTL_ECC_CNT_CE b)))
    (bankCounter_side b h)).trans ((Dev.eccRecord_side _ g b w cls σ rmw).trans (.raise Ev.MEMCTL_CE))
  have hn := (Dev.Notes.setF (d := d) (Fld.MEMCTL_ECC_CNT_CE b) (satInc 16 (d.f (Fld.MEMCTL_ECC_CNT_CE b)))).trans
    ((Dev.eccRecord_notes _ g b w cls σ rmw).trans (.raise Ev.MEMCTL_CE))
  unfold Dev.corrected
  dsimp only
  split
  · exact ⟨(hs.trans (.mem _)).trans (.raise _), (hn.trans (.marked _)).trans (.raise _)⟩
  · exact ⟨hs, hn⟩

theorem Dev.uncorrectable_frame (g : Nat) {b : Nat} (w : Nat) (cls : EccClass) (σ : Nat) (rmw : Bool) (h : b < 32) :
    d.Side (d.uncorrectable g b w cls σ rmw) ∧ d.Notes (d.uncorrectable g b w cls σ rmw) :=
  ⟨.trans (.trans (.setF (Fld.MEMCTL_ECC_CNT_UE b) _ (bankCounter_side b h)) (Dev.eccRecord_side _ g b w cls σ rmw))
      (.trans (.raise _) (.raiseIf _ _)),
    .trans (.trans (.setF (Fld.MEMCTL_ECC_CNT_UE b) _) (Dev.eccRecord_notes _ g b w cls σ rmw))
      (.trans (.raise _) (.raiseIf _ _))⟩

theorem xorCols_lt {n : Nat} (x : Nat) : ∀ (cs : List Nat) (i : Nat), (∀ c ∈ cs, c < 2 ^ n) → xorCols x i cs < 2 ^ n
  | [], _, _ => by simp [xorCols]
  | c :: cs, i, h => by
    have ih := xorCols_lt x cs (i + 1) fun c hc => h c (by simp [hc])
    refine Nat.xor_lt_two_pow ?_ ih
    split
    · exact h c (by simp)
    · positivity

theorem checkBits_lt (b w x : Nat) : checkBits b w x < 2 ^ 7 :=
  Nat.xor_lt_two_pow (Nat.xor_lt_two_pow (xorCols_lt _ _ _ (by decide)) (xorCols_lt _ _ _ (by decide))) (by decide)

/-- R186: the data bits and the check bits of a codeword. -/
theorem encodeWord_bits (b w x : Nat) : bits (encodeWord b w x).toNat 0 32 = x % 2 ^ 32
    ∧ bits (encodeWord b w x).toNat 32 7 = checkBits b w (x % 2 ^ 32) := by
  have hc := checkBits_lt b w (x % 2 ^ 32)
  simp only [encodeWord, BitVec.toNat_ofNat, bits]
  omega

theorem syndrome_encodeWord (b w x : Nat) : syndrome b w (encodeWord b w x) = 0 := by
  simp [syndrome, encodeWord_bits]

theorem Dev.memPeek_of_codeword {d e : Dev} {b w : Nat} (h : e.codeword b w = d.codeword b w) : e.memPeek b w = d.memPeek b w := by
  simp only [Dev.memPeek, h]

/-- A word whose codeword has been computed reads as its data. -/
theorem Dev.memPeek_of_encodeWord {b w x : Nat} (h : d.codeword b w = encodeWord b w x) : d.memPeek b w = some (x % 2 ^ 32) := by
  simp [Dev.memPeek, h, syndrome_encodeWord, encodeWord_bits, classify]

theorem Dev.memPeek_putCode_same {b w : Nat} (x : Nat) (h : w < 8192) :
    (d.putCode b w (encodeWord b w x)).memPeek b w = some (x % 2 ^ 32) :=
  Dev.memPeek_of_encodeWord _ (by simp [Dev.codeword_putCode, h])

theorem Dev.memPeek_putCode_ne {b w w' : Nat} (c : Codeword) (h : w < 8192) (h' : w' < 8192) (hn : w' ≠ w) :
    (d.putCode b w c).memPeek b w' = d.memPeek b w' :=
  Dev.memPeek_of_codeword (by simp [Dev.codeword_putCode, h, h', hn])

/-- `e` is what HERD's looks into its task RAM have made of `d`: each word reads as before. -/
structure Dev.Looks (d e : Dev) : Prop where
  side : d.Side e
  herd : e.herd = d.herd
  peek : ∀ w < 8192, e.memPeek 21 w = d.memPeek 21 w

theorem Dev.Looks.refl : d.Looks d := ⟨.refl d, rfl, fun _ _ => rfl⟩

theorem Dev.Looks.trans {d e g : Dev} (h : d.Looks e) (k : e.Looks g) : d.Looks g :=
  ⟨h.side.trans k.side, k.herd.trans h.herd, fun w hw => (k.peek w hw).trans (h.peek w hw)⟩

theorem Dev.Looks.task {d e : Dev} (h : d.Looks e) (i : Nat) : e.task i = d.task i := Dev.task_of_tasks (by rw [h.herd]) i

theorem Dev.Looks.peekDesc {d e : Dev} (h : d.Looks e) {i : Nat} (hi : i < 1024) : e.peekDesc i = d.peekDesc i := by
  simp only [Dev.peekDesc, h.peek (4 * i) (by omega), h.peek (4 * i + 1) (by omega), h.peek (4 * i + 2) (by omega),
    h.peek (4 * i + 3) (by omega)]

/-- A correction writes back the word that was read. -/
theorem Dev.corrected_looks {w x : Nat} (cls : EccClass) (σ : Nat) (hw : w < 8192) (hp : d.memPeek 21 w = some (x % 2 ^ 32)) :
    d.Looks ((d.putCode 21 w (encodeWord 21 w x)).corrected 7 21 w cls σ false) := by
  obtain ⟨hs, hn⟩ := (d.putCode 21 w (encodeWord 21 w x)).corrected_frame 7 w cls σ false (b := 21) (by decide)
  refine ⟨(Dev.Side.putCode 21 w _).trans hs, hn.herd, fun w' hw' => ?_⟩
  rw [Dev.memPeek_of_codeword (hn.codeword 21 w')]
  by_cases h : w' = w
  · rw [h, hp, d.memPeek_putCode_same x hw]
  · exact d.memPeek_putCode_ne _ hw hw' h

/-- R189: HERD reads a word of its task RAM; the outcome is what the word stands for, and each word reads as before. -/
theorem Dev.memRead_task {w : Nat} (hw : w < 8192) :
    (d.memRead 7 21 w).1 = d.memPeek 21 w ∧ d.Looks (d.memRead 7 21 w).2 := by
  have hx : bits (d.codeword 21 w).toNat 0 32 < 2 ^ 32 := bits_lt _ _ _
  have bad : ∀ cls σ, d.Looks (d.uncorrectable 7 21 w cls σ false) := fun cls σ => by
    obtain ⟨hs, hn⟩ := d.uncorrectable_frame 7 w cls σ false (b := 21) (by decide)
    exact ⟨hs, hn.herd, fun _ _ => Dev.memPeek_of_codeword (hn.codeword _ _)⟩
  have ho : d.owns 7 21 = true := rfl
  rw [Dev.memRead, if_pos ho]
  unfold Dev.readRow
  dsimp only
  split <;> rename_i hc
  · exact ⟨by simp [Dev.memPeek, hc], .refl d⟩
  · rename_i i
    have hi : i < 32 := by
      unfold classify at hc
      split at hc
      · cases hc
      · split at hc
        · rename_i hf
          cases hc
          exact (List.findIdx?_eq_some_iff_getElem.1 hf).1
        · split_ifs at hc
    have hlt : bits (d.codeword 21 w).toNat 0 32 ^^^ 2 ^ i < 2 ^ 32 :=
      Nat.xor_lt_two_pow hx (Nat.pow_lt_pow_right (by decide) hi)
    have hp : d.memPeek 21 w = some (bits (d.codeword 21 w).toNat 0 32 ^^^ 2 ^ i) := by simp [Dev.memPeek, hc]
    exact ⟨hp.symm, d.corrected_looks _ _ hw (by rw [hp, Nat.mod_eq_of_lt hlt])⟩
  · have hp : d.memPeek 21 w = some (bits (d.codeword 21 w).toNat 0 32) := by simp [Dev.memPeek, hc]
    exact ⟨hp.symm, d.corrected_looks _ _ hw (by rw [hp, Nat.mod_eq_of_lt hx])⟩
  · exact ⟨by simp [Dev.memPeek, hc], bad .addr _⟩
  · exact ⟨by simp [Dev.memPeek, hc], bad .unc _⟩

/-- The same at any word, where only the rest of the device is asked for. -/
theorem Dev.memRead_side (w : Nat) : d.Side (d.memRead 7 21 w).2 ∧ (d.memRead 7 21 w).2.herd = d.herd := by
  have fixed : ∀ x cls σ, d.Side ((d.putCode 21 w (encodeWord 21 w x)).corrected 7 21 w cls σ false)
      ∧ ((d.putCode 21 w (encodeWord 21 w x)).corrected 7 21 w cls σ false).herd = d.herd := fun x cls σ => by
    obtain ⟨hs, hn⟩ := (d.putCode 21 w (encodeWord 21 w x)).corrected_frame 7 w cls σ false (b := 21) (by decide)
    exact ⟨(Dev.Side.putCode 21 w _).trans hs, hn.herd⟩
  have bad : ∀ cls σ, d.Side (d.uncorrectable 7 21 w cls σ false) ∧ (d.uncorrectable 7 21 w cls σ false).herd = d.herd :=
    fun cls σ => ⟨(d.uncorrectable_frame 7 w cls σ false (by decide)).1, (d.uncorrectable_frame 7 w cls σ false (by decide)).2.herd⟩
  have ho : d.owns 7 21 = true := rfl
  rw [Dev.memRead, if_pos ho]
  unfold Dev.readRow
  dsimp only
  split
  · exact ⟨.refl d, rfl⟩
  · exact fixed _ _ _
  · exact fixed _ _ _
  · exact bad .addr _
  · exact bad .unc _

theorem Dev.memReadMany_task : ∀ (xs : List Nat) (d : Dev) (w : Nat), w + xs.length ≤ 8192 →
    (∀ k (h : k < xs.length), d.memPeek 21 (w + k) = some xs[k]) →
    ∃ e, d.memReadMany 7 21 w xs.length = (some xs, e) ∧ d.Looks e
  | [], d, _, _, _ => ⟨d, rfl, .refl d⟩
  | x :: xs, d, w, hw, hp => by
    rw [List.length_cons] at hw
    obtain ⟨hr, hl⟩ := d.memRead_task (w := w) (by omega)
    rw [show d.memPeek 21 w = some x from hp 0 (by simp)] at hr
    obtain ⟨e, he, hk⟩ := Dev.memReadMany_task xs (d.memRead 7 21 w).2 (w + 1) (by omega) fun k h => by
      rw [hl.peek _ (by omega), show w + 1 + k = w + (k + 1) by omega, hp (k + 1) (by simp [h])]
      rfl
    refine ⟨e, ?_, hl.trans hk⟩
    rw [List.length_cons, Dev.memReadMany, show d.memRead 7 21 w = (some x, (d.memRead 7 21 w).2) from Prod.ext hr rfl]
    simp only [he]

/-- R66: a descriptor that can be read is read as it stands. -/
theorem Dev.readDesc_some {i : Nat} {x : Desc} (hi : i < 1024) (h : d.peekDesc i = some x) :
    ∃ e, d.readDesc i = (some x, e) ∧ d.Looks e := by
  unfold Dev.peekDesc at h
  split at h
  · rename_i w0 w1 w2 w3 h0 h1 h2 h3
    obtain ⟨e, he, hl⟩ := Dev.memReadMany_task [w0, w1, w2, w3] d (4 * i) (by simp; omega) fun k hk => by
      simp only [List.length_cons, List.length_nil] at hk
      interval_cases k <;> assumption
    refine ⟨e, ?_, hl⟩
    rw [Dev.readDesc, show d.memReadMany 7 21 (4 * i) 4 = (some [w0, w1, w2, w3], e) from he]
    simpa using h
  · cases h

/-! ### Holds, ends of occurrences, reports (R73, R74, R78) -/

theorem frameReg_side : ∀ f < 64, isSide (Reg.MULE_FRAME f) = true := by decide

theorem Dev.ctxRelease_side (n : Nat) : d.Side (d.ctxRelease n) ∧ (d.ctxRelease n).herd = d.herd
    ∧ (d.ctxRelease n).edges = d.edges := by
  unfold Dev.ctxRelease
  split
  · rename_i f hf
    exact ⟨.setF (Fld.MULE_FRAME_HOLD f) _ (frameReg_side f (d.frameOf_lt hf)), Dev.setF_herd _ _ _, Dev.setF_edges _ _ _⟩
  · exact ⟨.refl d, rfl, rfl⟩

theorem Dev.releases_side : ∀ (l : List HHold) (d : Dev),
    let e := l.foldl (fun d h => if h.held then d.ctxRelease h.ctx else d) d
    d.Side e ∧ e.herd = d.herd ∧ e.edges = d.edges
  | [], d => ⟨.refl d, rfl, rfl⟩
  | h :: l, d => by
    rw [List.foldl_cons]
    obtain ⟨hs, hh, he⟩ := Dev.releases_side l (if h.held then d.ctxRelease h.ctx else d)
    have h1 : d.Side (if h.held then d.ctxRelease h.ctx else d) ∧ (if h.held then d.ctxRelease h.ctx else d).herd = d.herd
        ∧ (if h.held then d.ctxRelease h.ctx else d).edges = d.edges := by
      split
      · exact d.ctxRelease_side h.ctx
      · exact ⟨.refl d, rfl, rfl⟩
    exact ⟨h1.1.trans hs, hh.trans h1.2.1, he.trans h1.2.2⟩

/-- R78: a release of holds touches the frames' hold counts and HERD's lists of holds and requests. -/
theorem Dev.releaseHolds_frame (i : Nat) : d.Side (d.releaseHolds i) ∧ (d.releaseHolds i).herd.tasks = d.herd.tasks
    ∧ (d.releaseHolds i).herd.running = d.herd.running ∧ (d.releaseHolds i).edges = d.edges := by
  unfold Dev.releaseHolds
  dsimp only
  obtain ⟨hs, hh, he⟩ := Dev.releases_side (d.herd.holds.filter (·.task == i))
    { d with herd.holds := d.herd.holds.filter (·.task != i), herd.asks := d.herd.asks.filter (·.1 != i) }
  exact ⟨.trans (.herd _) hs, by rw [hh], by rw [hh], he⟩

theorem Dev.releaseHolds_task (i j : Nat) : (d.releaseHolds i).task j = d.task j :=
  Dev.task_of_tasks (d.releaseHolds_frame i).2.1 j

/-- R73: the end of an occurrence changes of the records at most whether the task is armed, and its next due time. -/
theorem Dev.endOneshot_frame (i : Nat) : d.Side (d.endOneshot i) ∧ (∀ j, j ≠ i → (d.endOneshot i).task j = d.task j)
    ∧ ∃ b c, (d.endOneshot i).task i = { d.task i with armed := b, due := c } := by
  obtain ⟨hs, hh⟩ := d.memRead_side (4 * i + 1)
  have ht := fun j => Dev.task_of_tasks (congrArg (·.tasks) hh) j
  unfold Dev.endOneshot
  dsimp only
  split <;> rename_i he <;> rw [he] at hs ht
  · split
    · rename_i e _
      refine ⟨(hs.trans (.putCode _ _ _)).trans (.setTask _), fun j hj => ?_, false, none, ?_⟩
      · rw [Dev.task_setTask_ne _ _ (by simpa using hj)]
        exact ht j
      · rw [Dev.task_setTask, if_pos (by simp)]
        exact congrArg (fun t : HTask => { t with armed := false, due := none }) (ht i)
    · exact ⟨hs, fun j _ => ht j, _, _, ht i⟩
  · exact ⟨hs, fun j _ => ht j, _, _, ht i⟩

/-- R74: the entry in the miss log, the count and the event of a report. -/
def Dev.missLog (d : Dev) (i cause : Nat) : Dev :=
  let n := d.f Fld.HERD_MISS_WR_IDX
  let d' := (d.wr (Reg.HERD_MISS_CYC n) d.reportTime.1.toNat).wr (Reg.HERD_MISS_INFO n)
    (i + cause * 2 ^ 10 + d.reportTime.2 * 2 ^ 14 + 2 ^ 22 + b2n (!d.mae.running) * 2 ^ 23)
  (((d'.setF Fld.HERD_MISS_WR_IDX (n + 1)).raiseIf (d.on (Fld.HERD_MISS_INFO_VALID n)) Ev.HERD_LOG_OVR).inc
    Reg.HERD_MISS_CNT).raise Ev.HERD_MISSED

/-- The record of a task that is reported. -/
def HTask.reported (t : HTask) (cause : Nat) : HTask := { t.close with lastCause := cause }

theorem Dev.missed_eq (i cause : Nat) :
    d.missed i cause
      = (((d.releaseHolds i).setTask ((d.task i).reported cause)).missLog i cause).endOneshot i := by
  rw [← d.releaseHolds_task i i]
  rfl

theorem Dev.missLog_notes (i cause : Nat) : d.Notes (d.missLog i cause) :=
  .trans (.trans (.trans (.trans (.trans (.wr _ _) (.wr _ _)) (.setF _ _)) (.raiseIf _ _)) (.wr _ _)) (.raise _)

theorem Dev.missLog_raises (i cause : Nat) : Ev.HERD_MISSED ∈ (d.missLog i cause).edges :=
  List.mem_append_right _ (List.mem_singleton.2 rfl)

/-- The registers of the miss log are told apart. -/
theorem missLog_regs : ∀ n < 16, Reg.HERD_MISS_CNT ≠ Reg.HERD_MISS_CYC n ∧ Reg.HERD_MISS_CNT ≠ Reg.HERD_MISS_INFO n
    ∧ Reg.HERD_MISS_WR ≠ Reg.HERD_MISS_CYC n ∧ Reg.HERD_MISS_WR ≠ Reg.HERD_MISS_INFO n
    ∧ Reg.HERD_MISS_CYC n ≠ Reg.HERD_MISS_INFO n
    ∧ isSide (Reg.HERD_MISS_CYC n) = false ∧ isSide (Reg.HERD_MISS_INFO n) = false := by decide

theorem Dev.missLog_cnt (i cause : Nat) :
    (d.missLog i cause).rd Reg.HERD_MISS_CNT = satInc 32 (d.rd Reg.HERD_MISS_CNT) := by
  obtain ⟨hc, hi, -⟩ := missLog_regs (d.f Fld.HERD_MISS_WR_IDX) (bits_lt _ _ _)
  have hlt : satInc 32 (d.rd Reg.HERD_MISS_CNT) < 2 ^ 32 := by unfold satInc; split <;> omega
  unfold Dev.missLog
  dsimp only
  rw [Dev.rd_raise, Dev.inc, Dev.rd_wr_same, Dev.rd_raiseIf, Dev.rd_setF_ne _ _ _ (by decide), Dev.rd_wr_ne _ _ hi,
    Dev.rd_wr_ne _ _ hc, Nat.mod_eq_of_lt hlt]

/-- R74: a report closes the occurrence, with its cause, and touches no other task. -/
theorem Dev.missed_task (i cause j : Nat) :
    (j ≠ i → (d.missed i cause).task j = d.task j)
    ∧ ((d.missed i cause).task i).open = false ∧ ((d.missed i cause).task i).lastCause = cause := by
  have ht : ∀ j, (((d.releaseHolds i).setTask ((d.task i).reported cause)).missLog i cause).task j
      = if j = i then (d.task i).reported cause else d.task j := fun j => by
    rw [(Dev.missLog_notes _ i cause).task, Dev.task_setTask,
      Dev.releaseHolds_task, show ((d.task i).reported cause).idx = i from d.task_idx i]
  obtain ⟨-, hne, b, c, hi⟩ := (((d.releaseHolds i).setTask ((d.task i).reported cause)).missLog i cause).endOneshot_frame i
  rw [Dev.missed_eq]
  refine ⟨fun h => ?_, ?_, ?_⟩
  · rw [hne j h, ht, if_neg h]
  · rw [hi, ht, if_pos rfl]
    rfl
  · rw [hi, ht, if_pos rfl]
    rfl

theorem Dev.missed_cnt (i cause : Nat) : (d.missed i cause).rd Reg.HERD_MISS_CNT = satInc 32 (d.rd Reg.HERD_MISS_CNT) := by
  rw [Dev.missed_eq, (Dev.endOneshot_frame _ i).1.rd _ (by decide), Dev.missLog_cnt, (Dev.Side.setTask _).rd _ (by decide),
    (d.releaseHolds_frame i).1.rd _ (by decide)]

theorem Dev.missed_grows (i cause : Nat) : d.Grows (d.missed i cause) ∧ Ev.HERD_MISSED ∈ (d.missed i cause).edges := by
  rw [Dev.missed_eq]
  have hs := (d.releaseHolds_frame i).1.trans (.setTask ((d.task i).reported cause))
  have hg := (Dev.missLog_notes ((d.releaseHolds i).setTask ((d.task i).reported cause)) i cause).grows
  have he := (Dev.endOneshot_frame (((d.releaseHolds i).setTask ((d.task i).reported cause)).missLog i cause) i).1.grows
  exact ⟨(hs.grows.trans hg).trans he, he _ (Dev.missLog_raises _ i cause)⟩

end Sys2Proof.Machine
end

section
/-! SUPPORT. R64, R67: a write of PART.LGL_BLOCKS and what it disarms. -/

namespace Sys2Proof.Machine

variable (d : Dev)

/-- The record of a task that is withdrawn (R64). -/
def HTask.withdrawn (t : HTask) : HTask := { t.close with armed := false, due := none, skip := false }

theorem HTask.withdrawn_withdrawn (t : HTask) : t.withdrawn.withdrawn = t.withdrawn := rfl

/-- R64: a task that is disarmed is withdrawn; no other record changes, and no event is raised. -/
theorem Dev.disarm_frame (i : Nat) : d.Side (d.disarm i) ∧ (d.disarm i).edges = d.edges
    ∧ ∀ j, (d.disarm i).task j = if j = i then (d.task j).withdrawn else d.task j := by
  obtain ⟨hs, -, -, he⟩ := d.releaseHolds_frame i
  refine ⟨hs.trans (.setTask _), he, fun j => ?_⟩
  unfold Dev.disarm
  dsimp only
  rw [Dev.task_setTask, Dev.releaseHolds_task, Dev.releaseHolds_task]
  by_cases h : j = i
  · rw [if_pos (by simpa using h), if_pos h, h]
    rfl
  · rw [if_neg (by simpa using h), if_neg h]

theorem Dev.disarms_frame : ∀ (l : List Nat) (d : Dev),
    let e := l.foldl (fun d i => d.disarm i) d
    d.Side e ∧ e.edges = d.edges ∧ ∀ j, e.task j = if j ∈ l then (d.task j).withdrawn else d.task j
  | [], d => ⟨.refl d, rfl, fun j => by simp⟩
  | i :: l, d => by
    obtain ⟨hs, he, ht⟩ := d.disarm_frame i
    obtain ⟨ks, ke, kt⟩ := Dev.disarms_frame l (d.disarm i)
    refine ⟨hs.trans ks, ke.trans he, fun j => ?_⟩
    rw [List.foldl_cons, kt, ht]
    by_cases h1 : j = i <;> by_cases h2 : j ∈ l <;> simp [h1, h2, HTask.withdrawn_withdrawn]

/-- The armed tasks whose partition changes where LGL_BLOCKS becomes `blocks`. -/
def Dev.partMoved (d : Dev) (blocks : Nat) : List Nat :=
  (d.herd.tasks.map (·.idx)).filter fun i =>
    (d.task i).armed && decide (i < partTasks (d.f Fld.HERD_PART_LGL_BLOCKS)) != decide (i < partTasks blocks)

theorem Dev.mem_partMoved (blocks i : Nat) : i ∈ d.partMoved blocks ↔ (d.task i).armed = true
    ∧ ¬(i < partTasks (d.f Fld.HERD_PART_LGL_BLOCKS) ↔ i < partTasks blocks) := by
  simp only [Dev.partMoved, List.mem_filter, List.mem_map, Bool.and_eq_true, bne_iff_ne, ne_eq, decide_eq_decide]
  exact ⟨fun h => h.2, fun h => ⟨⟨d.task i, d.mem_of_armed h.1, d.task_idx i⟩, h⟩⟩

theorem Dev.task_setF (f : Field) (v i : Nat) : (d.setF f v).task i = d.task i := Dev.task_of_tasks (by rw [Dev.setF_herd]) i

theorem Dev.partWrite_eq (blocks : Nat) : d.partWrite blocks
    = ((d.partMoved blocks).foldl (fun d i => d.disarm i) (d.setF Fld.HERD_PART_LGL_BLOCKS blocks)).raiseIf
        (!(d.partMoved blocks).isEmpty) Ev.HERD_DESC_ERR := by
  unfold Dev.partWrite Dev.partMoved
  simp only [Dev.task_setF, Dev.setF_herd]

theorem Dev.regWrite_part {r : Requester} (v : Nat) (h : r.legal = true) :
    d.regWrite r .herd 0x44 v = d.partWrite (bits v 0 6) := by
  simp [Dev.regWrite, Dev.pageWrite, Dev.writeHerd, h]

theorem Dev.task_raiseIf (c : Bool) (n i : Nat) : (d.raiseIf c n).task i = d.task i :=
  Dev.task_of_tasks (by rw [Dev.raiseIf_herd]) i

theorem Dev.raiseIf_edges (c : Bool) (n : Nat) : (d.raiseIf c n).edges = d.edges ++ if c then [n] else [] := by
  cases c <;> simp [Dev.raiseIf]

/-- What a write of LGL_BLOCKS leaves (R67). -/
theorem Dev.partWrite_frame (blocks : Nat) :
    (d.partWrite blocks).f Fld.HERD_PART_LGL_BLOCKS = blocks % 2 ^ 6
    ∧ (d.partWrite blocks).rd Reg.HERD_MISS_CNT = d.rd Reg.HERD_MISS_CNT
    ∧ (d.partWrite blocks).edges = d.edges ++ (if (d.partMoved blocks).isEmpty then [] else [Ev.HERD_DESC_ERR])
    ∧ ∀ j, (d.partWrite blocks).task j = if j ∈ d.partMoved blocks then (d.task j).withdrawn else d.task j := by
  obtain ⟨hs, he, ht⟩ := Dev.disarms_frame (d.partMoved blocks) (d.setF Fld.HERD_PART_LGL_BLOCKS blocks)
  rw [Dev.partWrite_eq]
  refine ⟨?_, ?_, ?_, fun j => ?_⟩
  · rw [Dev.f_raiseIf, hs.f _ (by decide), Dev.f_setF_same _ _ _ (by decide)]
    rfl
  · rw [Dev.rd_raiseIf, hs.rd _ (by decide), Dev.rd_setF_ne _ _ _ (by decide)]
  · rw [Dev.raiseIf_edges, he, Dev.setF_edges]
    cases (d.partMoved blocks).isEmpty <;> rfl
  · rw [Dev.task_raiseIf, ht, Dev.task_setF]

/-- Settles O25: the armed tasks that leave or enter the legal partition are withdrawn, with one DESC_ERR for all of them. -/
theorem partitionWriteDisarms : Obligations.PartitionWriteDisarms := by
  unfold Obligations.PartitionWriteDisarms
  intro s r blocks hw hl
  have hb : bits (Fld.HERD_PART_LGL_BLOCKS.word blocks.toNat) 0 6 = blocks.toNat := by
    have := blocks.isLt
    simp only [bits, Field.word, Fld.HERD_PART_LGL_BLOCKS]
    omega
  refine effects_write (p := .herd) 0x44 _ rfl hw (by decide) (by decide) (by decide) (.inl hl) ?_
  rw [Dev.regWrite_part _ _ hl, hb]
  obtain ⟨hf, hm, he, ht⟩ := (s.dev.answer .none).partWrite_frame blocks.toNat
  have hp : ∀ i, i ∈ (s.dev.answer .none).partMoved blocks.toNat ↔ (s.dev.task i).armed = true
      ∧ ¬(i < 32 * min (s.dev.f Fld.HERD_PART_LGL_BLOCKS) 32 ↔ i < 32 * min blocks.toNat 32) :=
    fun i => (s.dev.answer .none).mem_partMoved blocks.toNat i
  have ht : ∀ i, (((s.dev.answer .none).partWrite blocks.toNat).answer .done).task i
      = if i ∈ (s.dev.answer .none).partMoved blocks.toNat then (s.dev.task i).withdrawn else s.dev.task i := ht
  have none_iff : (∀ i, i ∉ (s.dev.answer .none).partMoved blocks.toNat)
      ↔ ((s.dev.answer .none).partMoved blocks.toNat).isEmpty = true := by
    rw [List.isEmpty_iff, List.eq_nil_iff_forall_not_mem]
  refine ⟨hf.trans (Nat.mod_eq_of_lt blocks.isLt), fun i ha hi => ?_, fun i hi => ?_, ?_, hm, fun ⟨i, hi⟩ => ?_, fun h => ?_, rfl⟩
  · rw [ht, if_pos ((hp i).2 ⟨ha, hi⟩)]
    exact ⟨rfl, rfl, rfl⟩
  · rw [ht, if_neg fun h => hi ((hp i).1 h)]
  · show List.count _ ((s.dev.answer .none).partWrite _).edges = _
    rw [he, List.count_append]
    cases ((s.dev.answer .none).partMoved blocks.toNat).isEmpty <;> rfl
  · have hne : ((s.dev.answer .none).partMoved blocks.toNat).isEmpty = false := by
      rw [Bool.eq_false_iff]
      exact fun h => none_iff.2 h i ((hp i).2 hi)
    show List.count _ ((s.dev.answer .none).partWrite _).edges = _
    rw [he, List.count_append, hne]
    rfl
  · show ((s.dev.answer .none).partWrite _).edges = _
    rw [he, none_iff.1 fun i hi => h i ((hp i).1 hi)]
    exact List.append_nil _

end Sys2Proof.Machine
end

section
/-! SUPPORT. R70, R73, R74, R80: reports of occurrences that have not been accepted, one by one and at the end of HERD. -/

namespace Sys2Proof.Machine

variable (d : Dev)

/-! ### The entry in the miss log (R74) -/

theorem tick_lt (m : Mae) : m.tick < 256 := by
  unfold Mae.tick Mae.angle
  omega

/-- R74: what a report writes into the miss log. -/
theorem Dev.missLog_entry (i cause : Nat) :
    let n := d.f Fld.HERD_MISS_WR_IDX
    (d.missLog i cause).rd (Reg.HERD_MISS_CYC n) = d.reportTime.1.toNat
    ∧ (d.missLog i cause).rd (Reg.HERD_MISS_INFO n)
      = (i + cause * 2 ^ 10 + d.reportTime.2 * 2 ^ 14 + 2 ^ 22 + b2n (!d.mae.running) * 2 ^ 23) % 2 ^ 32
    ∧ (d.missLog i cause).f Fld.HERD_MISS_WR_IDX = (n + 1) % 16 := by
  obtain ⟨c1, c2, c3, c4, c5, -⟩ := missLog_regs (d.f Fld.HERD_MISS_WR_IDX) (bits_lt _ _ _)
  have hreg : Fld.HERD_MISS_WR_IDX.reg = Reg.HERD_MISS_WR := rfl
  unfold Dev.missLog
  dsimp only
  refine ⟨?_, ?_, ?_⟩
  · rw [Dev.rd_raise, Dev.inc, Dev.rd_wr_ne _ _ c1.symm, Dev.rd_raiseIf, Dev.rd_setF_ne _ _ _ c3.symm,
      Dev.rd_wr_ne _ _ c5, Dev.rd_wr_same, Nat.mod_eq_of_lt d.reportTime.1.isLt]
  · rw [Dev.rd_raise, Dev.inc, Dev.rd_wr_ne _ _ c2.symm, Dev.rd_raiseIf, Dev.rd_setF_ne _ _ _ c4.symm, Dev.rd_wr_same]
  · rw [Dev.f_raise, Dev.inc, Dev.f_wr_ne _ _ _ (by decide), Dev.f_raiseIf, Dev.f_setF_same _ _ _ (by decide)]
    rfl

/-- The log as a report of a task leaves it. -/
theorem Dev.missed_entry (i cause : Nat) :
    let n := d.f Fld.HERD_MISS_WR_IDX
    (d.missed i cause).rd (Reg.HERD_MISS_CYC n) = d.reportTime.1.toNat
    ∧ (d.missed i cause).rd (Reg.HERD_MISS_INFO n)
      = (i + cause * 2 ^ 10 + d.reportTime.2 * 2 ^ 14 + 2 ^ 22 + b2n (!d.mae.running) * 2 ^ 23) % 2 ^ 32
    ∧ (d.missed i cause).f Fld.HERD_MISS_WR_IDX = (n + 1) % 16 := by
  have hs := (d.releaseHolds_frame i).1.trans (.setTask ((d.task i).reported cause))
  have he := (((d.releaseHolds i).setTask ((d.task i).reported cause)).missLog i cause).endOneshot_frame i |>.1
  obtain ⟨h1, h2, h3⟩ := ((d.releaseHolds i).setTask ((d.task i).reported cause)).missLog_entry i cause
  obtain ⟨-, -, -, -, -, n1, n2⟩ := missLog_regs (d.f Fld.HERD_MISS_WR_IDX) (bits_lt _ _ _)
  rw [hs.f Fld.HERD_MISS_WR_IDX (by decide)] at h1 h2 h3
  simp only [Dev.reportTime, hs.mae] at h1 h2 ⊢
  rw [Dev.missed_eq]
  exact ⟨(he.rd _ n1).trans h1, (he.rd _ n2).trans h2, (he.f _ (by decide)).trans h3⟩

theorem Dev.reportTime_tick : d.reportTime.2 < 256 := by
  unfold Dev.reportTime
  split
  · exact tick_lt d.mae
  · decide

theorem Dev.reportTime_running (h : d.mae.running = true) : d.reportTime = (d.mae.cyc, d.mae.tick) := by
  unfold Dev.reportTime
  rw [h]
  rfl

/-- The fields of an entry of the miss log. -/
theorem missInfo_fields {i cause tick : Nat} (stopped : Bool) (hi : i < 1024) (hc : cause < 16) (ht : tick < 256) :
    let v := (i + cause * 2 ^ 10 + tick * 2 ^ 14 + 2 ^ 22 + b2n stopped * 2 ^ 23) % 2 ^ 32
    bits v 0 10 = i ∧ bits v 10 4 = cause ∧ bits v 14 8 = tick ∧ bits v 22 1 = 1 ∧ bits v 23 1 = b2n stopped := by
  have hb : b2n stopped ≤ 1 := by cases stopped <;> decide
  unfold bits
  dsimp only
  omega

/-- R74: the entry that a report makes. -/
theorem Dev.missed_fields {i cause : Nat} (hi : i < 1024) (hc : cause < 16) :
    let e := d.missed i cause
    let n := d.f Fld.HERD_MISS_WR_IDX
    e.f (Fld.HERD_MISS_INFO_TASK n) = i ∧ e.f (Fld.HERD_MISS_INFO_CAUSE n) = cause
    ∧ e.f (Fld.HERD_MISS_INFO_VALID n) = 1 ∧ (e.f (Fld.HERD_MISS_INFO_NOTIME n) = 0 ↔ d.mae.running = true)
    ∧ (d.mae.running = true →
        e.rd (Reg.HERD_MISS_CYC n) = d.mae.cyc.toNat ∧ e.f (Fld.HERD_MISS_INFO_TICK n) = d.mae.tick)
    ∧ e.f Fld.HERD_MISS_WR_IDX = (n + 1) % 16 := by
  obtain ⟨hcyc, hinfo, hidx⟩ := d.missed_entry i cause
  obtain ⟨f1, f2, f3, f4, f5⟩ := missInfo_fields (!d.mae.running) hi hc d.reportTime_tick
  have field : ∀ lo w, (d.missed i cause).f ⟨Reg.HERD_MISS_INFO (d.f Fld.HERD_MISS_WR_IDX), lo, w⟩ = bits _ lo w :=
    fun lo w => congrArg (bits · lo w) hinfo
  refine ⟨(field 0 10).trans f1, (field 10 4).trans f2, (field 22 1).trans f4, ?_, fun h => ⟨?_, ?_⟩, hidx⟩
  · rw [show (d.missed i cause).f (Fld.HERD_MISS_INFO_NOTIME _) = _ from (field 23 1).trans f5]
    cases d.mae.running <;> decide
  · rw [hcyc, d.reportTime_running h]
  · rw [show (d.missed i cause).f (Fld.HERD_MISS_INFO_TICK _) = _ from (field 14 8).trans f3, d.reportTime_running h]

/-! ### Several reports (R80) -/

theorem satInc_eq {n : Nat} (h : n < 2 ^ 32) : satInc 32 n = min (2 ^ 32 - 1) (n + 1) := by
  unfold satInc
  split <;> omega

/-- R80: the tasks of a list are reported one after another. -/
theorem Dev.missedAll_frame (cause : Nat) : ∀ (l : List HTask) (d : Dev),
    let e := l.foldl (fun d t => d.missed t.idx cause) d
    d.Upkeep e ∧ d.Grows e ∧ e.rd Reg.HERD_MISS_CNT = min (2 ^ 32 - 1) (d.rd Reg.HERD_MISS_CNT + l.length)
    ∧ (∀ i, i ∉ l.map (·.idx) → e.task i = d.task i)
    ∧ ∀ i ∈ l.map (·.idx), (e.task i).open = false ∧ (e.task i).lastCause = cause
  | [], d => ⟨.refl d, .of_eq rfl, by have := d.rd_lt Reg.HERD_MISS_CNT; simp only [List.foldl_nil, List.length_nil]; omega,
      fun _ _ => rfl, fun _ h => by simp at h⟩
  | t :: l, d => by
    obtain ⟨hu, hg, hc, hk, hr⟩ := Dev.missedAll_frame cause l (d.missed t.idx cause)
    obtain ⟨ho, hl⟩ := (d.missed_task t.idx cause t.idx).2
    refine ⟨(d.missed_upkeep _ _).trans hu, (d.missed_grows _ _).1.trans hg, ?_, fun i hi => ?_, fun i hi => ?_⟩
    · rw [List.foldl_cons, hc, d.missed_cnt, satInc_eq (d.rd_lt _), List.length_cons]
      omega
    · rw [List.map_cons, List.mem_cons, not_or] at hi
      exact (hk i hi.2).trans ((d.missed_task t.idx cause i).1 hi.1)
    · by_cases h : i ∈ l.map (·.idx)
      · exact hr i h
      · obtain rfl : i = t.idx := by simpa [h] using hi
        rw [List.foldl_cons, hk _ h]
        exact ⟨ho, hl⟩

/-- R80: the end of HERD leaves no occurrence open. -/
theorem Dev.haltWaiting_frame :
    d.Upkeep d.haltWaiting ∧ d.Grows d.haltWaiting
    ∧ d.haltWaiting.rd Reg.HERD_MISS_CNT = min (2 ^ 32 - 1) (d.rd Reg.HERD_MISS_CNT + (d.herd.tasks.filter (·.open)).length)
    ∧ (∀ i, (d.haltWaiting.task i).open = false)
    ∧ ∀ i, (d.task i).open = true → (d.haltWaiting.task i).lastCause = 7 := by
  obtain ⟨hu, hg, hc, hk, hr⟩ := Dev.missedAll_frame 7 (d.herd.tasks.filter (·.open)) d
  have listed : ∀ i, (d.task i).open = true → i ∈ (d.herd.tasks.filter (·.open)).map (·.idx) := fun i h =>
    List.mem_map.2 ⟨d.task i, List.mem_filter.2 ⟨d.mem_of_open h, h⟩, d.task_idx i⟩
  refine ⟨hu, hg, hc, fun i => ?_, fun i h => (hr i (listed i h)).2⟩
  by_cases h : i ∈ (d.herd.tasks.filter (·.open)).map (·.idx)
  · exact (hr i h).1
  · rw [show d.haltWaiting.task i = d.task i from hk i h]
    exact Bool.eq_false_iff.2 fun ho => h (listed i ho)

/-! ### CTRL.EN (R80) -/

theorem herdCtrl_fields : fieldsAt .herd 0x40 = [⟨0, 1, .rw, 0, .no⟩, ⟨8, 8, .rw, 0x10, .no⟩, ⟨16, 6, .rw, 8, .no⟩] := by decide

/-- What a write of CTRL that clears EN leaves of it in an open page. -/
theorem Dev.afterWrite_herdCtrl (r : Requester) (h : d.locked .herd 0x40 = false) :
    bits (d.afterWrite r .herd 0x40 (d.withF Fld.HERD_CTRL_EN 0)) 0 1 = 0 := by
  have hv : bits (d.withF Fld.HERD_CTRL_EN 0) 0 1 = 0 := bits_setBits_same _ _ _ _
  unfold Dev.afterWrite fieldsAfter
  rw [herdCtrl_fields, h]
  simp only [List.map_cons, List.map_nil, FieldRow.next, Bool.false_eq_true, if_false, hv, sumN, List.foldl_cons,
    List.foldl_nil]
  unfold bits
  omega

/-- R80: the device with EN cleared by a write of CTRL that leaves `v`, and HALTED raised. -/
def Dev.herdOff (d : Dev) (v : Nat) : Dev := (d.wr Reg.HERD_CTRL v).level Ev.HERD_HALTED true

/-- R80: HERD is switched off, and what is open is reported. -/
theorem Dev.regWrite_herdOff (r : Requester) (h : d.locked .herd 0x40 = false) (hen : d.on Fld.HERD_CTRL_EN = true) :
    d.regWrite r .herd 0x40 (d.withF Fld.HERD_CTRL_EN 0)
      = { (d.herdOff (d.afterWrite r .herd 0x40 (d.withF Fld.HERD_CTRL_EN 0))).haltWaiting with herd.evalDue := false } := by
  have hb : bit (d.afterWrite r .herd 0x40 (d.withF Fld.HERD_CTRL_EN 0)) 0 = false := by
    have := d.afterWrite_herdCtrl r h
    rw [bits_one] at this
    revert this
    cases bit (d.afterWrite r .herd 0x40 (d.withF Fld.HERD_CTRL_EN 0)) 0 <;> decide
  unfold Dev.regWrite
  dsimp only
  rw [if_neg (by decide)]
  unfold Dev.pageWrite Dev.writeHerd Dev.herdEnable
  dsimp only
  rw [if_pos (by decide), hen, hb]
  rfl

theorem herdHalted_raw : eventRaw Ev.HERD_HALTED = ⟨Reg.EVT_RAW .herd, 6, 1⟩ := by decide

theorem Dev.herdOff_frame (v : Nat) : (d.herdOff v).herd = d.herd ∧ (d.herdOff v).rd Reg.HERD_MISS_CNT = d.rd Reg.HERD_MISS_CNT
    ∧ (d.herdOff v).f Fld.HERD_CTRL_EN = bits v 0 1 ∧ (d.herdOff v).on (eventRaw Ev.HERD_HALTED) = true
    ∧ (d.on (eventRaw Ev.HERD_HALTED) = false → Ev.HERD_HALTED ∈ (d.herdOff v).edges) := by
  unfold Dev.herdOff Dev.level Dev.setB
  refine ⟨?_, ?_, ?_, ?_, fun h => ?_⟩
  · rw [Dev.raiseIf_herd, Dev.setF_herd, Dev.wr_herd]
  · rw [Dev.rd_raiseIf, Dev.rd_setF_ne _ _ _ (by decide), Dev.rd_wr_ne _ _ (by decide)]
  · rw [Dev.f_raiseIf, Dev.f_setF_ne _ _ _ _ (by decide), show Reg.HERD_CTRL = Fld.HERD_CTRL_EN.reg from rfl, Dev.f_wr_same]
    unfold bits
    rw [show Fld.HERD_CTRL_EN.lo = 0 from rfl, show Fld.HERD_CTRL_EN.width = 1 from rfl]
    omega
  · rw [Dev.on, Dev.f_raiseIf, Dev.f_setF_same _ _ _ (by decide), herdHalted_raw]
    rfl
  · have hoff : (d.wr Reg.HERD_CTRL v).on (eventRaw Ev.HERD_HALTED) = false := by
      rw [Dev.on, Dev.f_wr_ne _ _ _ (by decide)]
      exact h
    rw [hoff, Dev.raiseIf_edges]
    exact List.mem_append_right _ (List.mem_singleton.2 rfl)

/-! ### DEFER_MAX (R70) -/

/-- R70: whether a task has waited as long as it may. -/
theorem Dev.deferExpiry_eq (i : Nat) : d.deferExpiry i
    = if (d.task i).waiting = true ∧ max 1 (d.f Fld.HERD_CTRL_DEFER_MAX) ≤ (d.task i).waited then d.missed i 1 else d := by
  unfold Dev.deferExpiry Dev.deferMax
  dsimp only
  simp only [Bool.and_eq_true, decide_eq_true_eq]

/-- Settles O23: each open occurrence that is reported is logged, counted and closed. -/
theorem missedReports : Obligations.MissedReports := by
  unfold Obligations.MissedReports
  refine ⟨fun s i hw hm => ?_, fun s i h => ?_, fun s r hw hl hen => ?_⟩
  · refine effects_run (f := fun d => d.deferExpiry i.val) rfl ?_
    have he := (s.dev.answer .none).deferExpiry_eq i.val
    rw [if_pos ⟨hw, hm⟩] at he
    dsimp only
    rw [he]
    obtain ⟨hne, ho, hc⟩ := (s.dev.answer .none).missed_task i.val 1 i.val
    obtain ⟨f1, f2, f3, f4, f5, f6⟩ := (s.dev.answer .none).missed_fields i.isLt (show 1 < 16 by decide)
    exact ⟨((s.dev.answer .none).missed_grows i.val 1).2, (s.dev.answer .none).missed_cnt i.val 1, ho, hc, f1, f2, f3, f4, f5, f6,
      fun j => ((s.dev.answer .none).missed_task i.val 1 j).1⟩
  · refine effects_run (f := fun d => d.deferExpiry i.val) rfl ?_
    have he := (s.dev.answer .none).deferExpiry_eq i.val
    rw [if_neg fun hn => h.elim (fun h => Bool.false_ne_true (h.symm.trans hn.1)) (Nat.not_lt.2 hn.2)] at he
    exact he
  · refine effects_write (p := .herd) 0x40 ((s.dev.answer .none).withF Fld.HERD_CTRL_EN 0) rfl hw (by decide) (by decide)
      (by decide) (.inr (by decide)) ?_
    rw [Dev.regWrite_herdOff (s.dev.answer .none) r hl hen]
    have hz := (s.dev.answer .none).afterWrite_herdCtrl r hl
    generalize (s.dev.answer .none).afterWrite r .herd 0x40 _ = v at hz
    obtain ⟨gh, gc, gen, gon, gup⟩ := (s.dev.answer .none).herdOff_frame v
    generalize (s.dev.answer .none).herdOff v = g at gh gc gen gon gup
    obtain ⟨hu, hg, hc, ho, hcause⟩ := g.haltWaiting_frame
    refine ⟨?_, ?_, fun h => hg _ (gup h), ho, rfl, ?_, fun i h => hcause i ?_⟩
    · exact (Dev.f_of_rd (hu Fld.HERD_CTRL_EN.reg (by decide))).trans (gen.trans hz)
    · rw [← gon]
      exact congrArg (· != 0) (Dev.f_of_rd (hu (eventRaw Ev.HERD_HALTED).reg (by decide)))
    · rw [gc, gh] at hc
      exact hc
    · rw [Dev.task_of_tasks (congrArg (·.tasks) gh)]
      exact h

end Sys2Proof.Machine
end

section
/-! SUPPORT. R74, R192, R199, R211, R453: the commands that clear counters or raise USR events. -/

namespace Sys2Proof.Machine

variable (d : Dev)

/-! ### Registers cleared one after another -/

/-- The device with the registers at `l` at 0. -/
def Dev.zeroed (d : Dev) (l : List Nat) : Dev := l.foldl (fun d a => d.wr a 0) d

theorem Dev.rd_zeroed (a : Nat) : ∀ (l : List Nat) (d : Dev), (d.zeroed l).rd a = if a ∈ l then 0 else d.rd a
  | [], _ => by simp [Dev.zeroed]
  | b :: l, d => by
    rw [Dev.zeroed, List.foldl_cons]
    refine (Dev.rd_zeroed a l (d.wr b 0)).trans ?_
    rw [Dev.rd_wr]
    by_cases h1 : a = b <;> by_cases h2 : a ∈ l <;> simp [h1, h2]

theorem Dev.units_zeroed : ∀ (l : List Nat) (d : Dev), (d.zeroed l).units = d.units
  | [], _ => rfl
  | b :: l, d => (Dev.units_zeroed l (d.wr b 0)).trans (d.units_wr b 0)

theorem Dev.calm_zeroed : ∀ (l : List Nat) (d : Dev), Reg.MULE_CTRL ∉ l → (d.zeroed l).calm = d.calm
  | [], _, _ => rfl
  | b :: l, d, h => by
    rw [List.mem_cons, not_or] at h
    exact (Dev.calm_zeroed l (d.wr b 0) h.2).trans (d.calm_wr (Ne.symm h.1) 0)

theorem Dev.zeroed_map (g : Nat → Nat) (l : List Nat) : l.foldl (fun d k => d.wr (g k) 0) d = d.zeroed (l.map g) := by
  rw [Dev.zeroed, List.foldl_map]

/-- A command whose write clears the registers at `l`: they read 0, no other register has changed but by the follow-up work,
and no unit. -/
theorem yields_zeroed {c : Instr} {s : State} {r : Requester} {p : Page} {a : Nat} (off : Nat) (l : List Nat) {Q : Dev → Prop}
    (hx : exec c s = s.run fun d => d.cmdWrite r a 1 .word) (hw : s.dev.writable r p = true)
    (ha : a = pageBase p + off) (ho : off < 0x1000) (h4 : off % 4 = 0)
    (hr : r.legal = true ∨ (fieldsAt p off).any (·.ty == .rwo) = false) (hc : s.dev.calm = true)
    (hz : (s.dev.answer .none).regWrite r p off 1 = (s.dev.answer .none).zeroed l)
    (hl : Reg.MULE_CTRL ∉ l) (hf : ∀ b ∈ l, follows b = false)
    (hQ : ∀ e : Dev, (∀ b ∈ l, e.rd b = 0) → s.dev.keeps e l → e.units = s.dev.units → Q e) : Yields c s Q := by
  refine yields_write (p := p) off 1 hx hw ha ho h4 hr (by rw [hz, Dev.calm_zeroed _ _ hl, Dev.calm_answer, hc]) fun e he _ => ?_
  rw [hz] at he
  have hrd : ∀ b, follows b = false → e.rd b = if b ∈ l then 0 else s.dev.rd b := fun b hb => by
    rw [he.rd hb, Dev.rd_answer, Dev.rd_zeroed, Dev.rd_answer]
  refine hQ e (fun b hb => ?_) (fun b hb h => ?_) ?_
  · rw [hrd b (hf b hb), if_pos hb]
  · rw [hrd b h, if_neg hb]
  · rw [he.units, Dev.units_answer, Dev.units_zeroed, Dev.units_answer]

/-! ### The counters -/

theorem Dev.regWrite_herdCntClr (r : Requester) :
    d.regWrite r .herd 0x7C 1 = d.zeroed ((List.range 7).map fun k => Reg.HERD_DISP_CNT + 4 * k) :=
  d.zeroed_map _ _

theorem Dev.regWrite_muleCntClr (r : Requester) :
    d.regWrite r .mule 0x9C 1 = d.zeroed ((List.range 7).map fun k => Reg.MULE_PAGEIN_CNT + 4 * k) :=
  d.zeroed_map _ _

theorem Dev.regWrite_memctlCntClr (r : Requester) :
    d.regWrite r .memctl 0x100 1 = { d.zeroed ((List.range 23).map Reg.MEMCTL_ECC_CNT) with mem.ceThrDone := false } :=
  congrArg (fun e : Dev => { e with mem.ceThrDone := false }) (d.zeroed_map Reg.MEMCTL_ECC_CNT (List.range 23))

theorem Dev.regWrite_collClr (r : Requester) : d.regWrite r .dpm 0x4C 1 = d.setF Fld.DPM_DPM_STAT_COLL_CNT 0 := rfl

/-- R74: HERD_CNT_CLR. -/
theorem herdCntClr_yields (s : State) (r : Requester) (hc : s.dev.calm = true) (hw : s.dev.writable r .herd = true) :
    Yields (.herdCntClr r) s fun e => (∀ k < 7, e.rd (Reg.HERD_DISP_CNT + 4 * k) = 0)
      ∧ s.dev.keeps e ((List.range 7).map fun k => Reg.HERD_DISP_CNT + 4 * k) ∧ e.units = s.dev.units :=
  yields_zeroed (p := .herd) 0x7C _ rfl hw (by decide) (by decide) (by decide) (.inr (by decide)) hc
    (Dev.regWrite_herdCntClr _ r) (by decide) (by decide) fun _ h0 hk hu =>
    ⟨fun k hk => h0 _ (List.mem_map.2 ⟨k, List.mem_range.2 hk, rfl⟩), hk, hu⟩

/-- R211: MULE_CNT_CLR. -/
theorem muleCntClr_yields (s : State) (r : Requester) (hc : s.dev.calm = true) (hw : s.dev.writable r .mule = true) :
    Yields (.muleCntClr r) s fun e => (∀ k < 7, e.rd (Reg.MULE_PAGEIN_CNT + 4 * k) = 0)
      ∧ s.dev.keeps e ((List.range 7).map fun k => Reg.MULE_PAGEIN_CNT + 4 * k) ∧ e.units = s.dev.units :=
  yields_zeroed (p := .mule) 0x9C _ rfl hw (by decide) (by decide) (by decide) (.inr (by decide)) hc
    (Dev.regWrite_muleCntClr _ r) (by decide) (by decide) fun _ h0 hk hu =>
    ⟨fun k hk => h0 _ (List.mem_map.2 ⟨k, List.mem_range.2 hk, rfl⟩), hk, hu⟩

/-- R192: MEMCTL_CNT_CLR. -/
theorem memctlCntClr_yields (s : State) (r : Requester) (hc : s.dev.calm = true) (hw : s.dev.writable r .memctl = true) :
    Yields (.memctlCntClr r) s fun e => (∀ b < 23, e.rd (Reg.MEMCTL_ECC_CNT b) = 0) ∧ e.mem.ceThrDone = false
      ∧ s.dev.keeps e ((List.range 23).map Reg.MEMCTL_ECC_CNT) ∧ e.mem.sram = s.dev.mem.sram := by
  have hz := (s.dev.answer .none).regWrite_memctlCntClr r
  have hl : Reg.MULE_CTRL ∉ (List.range 23).map Reg.MEMCTL_ECC_CNT := by decide
  have hf : ∀ b ∈ (List.range 23).map Reg.MEMCTL_ECC_CNT, follows b = false := by decide
  have hcalm := ((s.dev.answer .none).calm_zeroed _ hl).trans hc
  have hu := (s.dev.answer .none).units_zeroed ((List.range 23).map Reg.MEMCTL_ECC_CNT)
  have hrd : ∀ a, ((s.dev.answer .none).zeroed ((List.range 23).map Reg.MEMCTL_ECC_CNT)).rd a
      = if a ∈ (List.range 23).map Reg.MEMCTL_ECC_CNT then 0 else s.dev.rd a := fun a => Dev.rd_zeroed a _ _
  generalize (s.dev.answer .none).zeroed ((List.range 23).map Reg.MEMCTL_ECC_CNT) = g at hz hcalm hu hrd
  refine yields_write (p := .memctl) 0x100 1 rfl hw (by decide) (by decide) (by decide) (.inr (by decide))
    (by rw [hz]; exact hcalm) fun e he _ => ?_
  rw [hz] at he
  have hm : e.mem = { g.mem with ceThrDone := false } := congrArg (·.mem) he.units
  refine ⟨fun b hb => ?_, by rw [hm], fun a ha h => ?_, ?_⟩
  · have hmem : Reg.MEMCTL_ECC_CNT b ∈ (List.range 23).map Reg.MEMCTL_ECC_CNT := List.mem_map.2 ⟨b, List.mem_range.2 hb, rfl⟩
    exact (he.rd (hf _ hmem)).trans ((hrd _).trans (if_pos hmem))
  · exact (he.rd h).trans ((hrd a).trans (if_neg ha))
  · rw [hm]
    exact congrArg (·.mem.sram) hu

/-- R199: COLL_CLR. -/
theorem collClr_yields (s : State) (r : Requester) (hc : s.dev.calm = true) (hw : s.dev.writable r .dpm = true) :
    Yields (.collClr r) s fun e => e.f Fld.DPM_DPM_STAT_COLL_CNT = 0 ∧ s.dev.keeps e [Reg.DPM_DPM_STAT]
      ∧ e.units = s.dev.units := by
  refine yields_write (p := .dpm) 0x4C 1 rfl hw (by decide) (by decide) (by decide) (.inr (by decide)) ?_ fun e he _ => ?_
  · rw [Dev.regWrite_collClr, Dev.calm_setF _ (by decide)]
    exact hc
  · rw [Dev.regWrite_collClr] at he
    refine ⟨?_, fun a ha h => ?_, ?_⟩
    · rw [he.f (by decide), Dev.f_answer, Dev.f_setF_same _ _ _ (by decide)]
      rfl
    · rw [he.rd h, Dev.rd_answer, Dev.rd_setF_ne _ _ _ (fun he => ha (List.mem_singleton.2 he)), Dev.rd_answer]
    · rw [he.units, Dev.units_answer, Dev.units_setF, Dev.units_answer]

/-! ### USR events (R453) -/

/-- Events raised where a test holds: the device but for its list of events stays as it is. -/
theorem Dev.raises_eq (q : Nat → Bool) (ev : Nat → Nat) : ∀ (l : List Nat) (d : Dev),
    l.foldl (fun d n => d.raiseIf (q n) (ev n)) d = { d with edges := d.edges ++ (l.filter q).map ev }
  | [], d => by simp
  | n :: l, d => by
    rw [List.foldl_cons, Dev.raises_eq q ev l]
    cases h : q n <;> simp [Dev.raiseIf, Dev.raise, h]

theorem Dev.usrRaise_eq (mask : Nat) :
    d.usrRaise mask = { d with edges := d.edges ++ ((List.range 16).filter (bit mask)).map Ev.HERD_USR } :=
  Dev.raises_eq (bit mask) Ev.HERD_USR (List.range 16) d

theorem Dev.regWrite_usrRaise (r : Requester) (v : Nat) : d.regWrite r .herd 0x80 v = d.usrRaise (bits v 0 16) := rfl

/-- Settles O26: each clear writes 0 to its registers and does nothing else; USR_RAISE raises the events of its mask. -/
theorem counterClearsAndUsrEvents : Obligations.CounterClearsAndUsrEvents := by
  unfold Obligations.CounterClearsAndUsrEvents
  refine ⟨herdCntClr_yields, memctlCntClr_yields, muleCntClr_yields, collClr_yields, fun s r mask hw => ?_⟩
  refine effects_write (p := .herd) 0x80 mask.toNat rfl hw (by decide) (by decide) (by decide) (.inr (by decide)) ?_
  have hb : bits mask.toNat 0 16 = mask.toNat := by
    have := mask.isLt
    unfold bits
    omega
  rw [Dev.regWrite_usrRaise, Dev.usrRaise_eq, hb]
  exact ⟨rfl, rfl, rfl⟩

end Sys2Proof.Machine
end

section
/-! SUPPORT. R63, R66, R68, R69, R73, R453: one task in HERD's store falls due, is offered and is accepted by EVT_RAISE, all in
one evaluation. -/

namespace Sys2Proof.Machine

variable {d e : Dev} {t : HTask} {x : Desc}

/-! ### The one task -/

/-- HERD's store lists the one task `t`, whose descriptor reads `x`, and HERD has no hold and no unit at work. -/
structure Dev.Sole (d : Dev) (t : HTask) (x : Desc) : Prop where
  tasks : d.herd.tasks = [t]
  holds : d.herd.holds = []
  running : d.herd.running = []
  lt : t.idx < 1024
  desc : d.peekDesc t.idx = some x

theorem Dev.peekDesc_of_mem {d e : Dev} (h : e.mem = d.mem) (i : Nat) : e.peekDesc i = d.peekDesc i := by
  simp only [Dev.peekDesc, Dev.memPeek, Dev.codeword, h]

/-- What a descriptor that can be read says of its second word. -/
theorem Dev.peekDesc_word {i : Nat} (h : d.peekDesc i = some x) :
    (∃ w, d.memPeek 21 (4 * i + 1) = some w ∧ bit w 22 = x.oneshot) ∧ x.prio < 4 := by
  unfold Dev.peekDesc at h
  split at h
  · rename_i w0 w1 w2 w3 h0 h1 h2 h3
    cases h
    exact ⟨⟨w1, h1, rfl⟩, bits_lt _ _ _⟩
  · cases h

namespace Dev.Sole

theorem task (h : d.Sole t x) : d.task t.idx = t := by simp [Dev.task, h.tasks]

theorem looks (h : d.Sole t x) (k : d.Looks e) : e.Sole t x :=
  ⟨by rw [k.herd, h.tasks], by rw [k.herd, h.holds], by rw [k.herd, h.running], h.lt, (k.peekDesc h.lt).trans h.desc⟩

/-- The record of the task is written. -/
theorem setTask (h : d.Sole t x) {u : HTask} (hi : u.idx = t.idx) (hu : u ≠ { idx := u.idx }) : (d.setTask u).Sole u x where
  tasks := by
    simp only [Dev.setTask]
    rw [if_neg hu, h.tasks]
    simp [putTask, hi]
  holds := h.holds
  running := h.running
  lt := hi ▸ h.lt
  desc := (Dev.peekDesc_of_mem rfl _).trans (hi ▸ h.desc)

end Dev.Sole

/-! ### EVT_RAISE (R60, R453) -/

theorem Dev.Side.unitPowered (h : d.Side e) (arg : Nat) : e.unitPowered 6 arg = d.unitPowered 6 arg := by
  unfold Dev.unitPowered
  simp only [h.domOn]

theorem Dev.descQuiet_evt (d : Dev) (h : x.unit = 6) (k : Nat) : d.descQuiet x k = true := by simp [Dev.descQuiet, h]

/-- R60, R68: EVT_RAISE without contexts is eligible where its page is on. -/
theorem Dev.eligible_evt (d : Dev) (i k : Nat) (hu : x.unit = 6) (hn : x.nctx = 0) (hp : d.unitPowered 6 x.arg = true) :
    d.eligible i x k [] = true := by
  simp [Dev.eligible, d.descQuiet_evt hu, hu, hp, Dev.unitBusy, Dev.ctxsHeld, Desc.ctxs, hn]

/-! ### Falling due (R63, R66, R68) -/

/-- The record of a task whose occurrence of `due` waits. -/
def HTask.fallen (t : HTask) (x : Desc) (due : Word × Nat) : HTask :=
  { t with
    due := some (due.1 + BitVec.ofNat 32 x.period, x.tick), skip := false, waiting := true, waited := 0, moved := none
    search := none, wDue := due, prio := x.prio, late := false, deferred := false, ctxWait := false }

/-- The record of a task whose next due time is a PERIOD after cycle `c` (R63). -/
def HTask.advanced (t : HTask) (x : Desc) (c : Word) : HTask :=
  { t with due := some (c + BitVec.ofNat 32 x.period, x.tick), skip := false }

theorem Dev.fallDue_sole {due : Word × Nat} (h : d.Sole t x) (k : Nat) (ha : t.armed = true) (ho : t.open = false)
    (hs : t.skip = false) (hd : t.due = some due) (hp : x.period ≠ 0) (hu : x.unit = 6) (hw : d.unitPowered 6 x.arg = true) :
    (d.fallDue t.idx k false).Sole (t.fallen x due) x ∧ d.Side (d.fallDue t.idx k false) := by
  obtain ⟨e, he, hl⟩ := d.readDesc_some h.lt h.desc
  have hk := h.looks hl
  have hpow : ∀ u, (e.setTask u).unitPowered x.unit x.arg = true := fun u => by
    rw [hu, (hl.side.trans (.setTask u)).unitPowered, hw]
  have ht := hk.task
  have hadv : e.advanceDue t.idx x due.1 = e.setTask (t.advanced x due.1) := by
    unfold Dev.advanceDue
    rw [if_neg (by simpa using hp), ht]
    rfl
  have hk2 := hk.setTask (u := t.advanced x due.1) rfl fun hn => by simp [HTask.advanced] at hn
  have hnow : (e.setTask (t.advanced x due.1)).task t.idx = t.advanced x due.1 := hk2.task
  have hfall : d.fallDue t.idx k false = (e.setTask (t.advanced x due.1)).setTask (t.fallen x due) := by
    unfold Dev.fallDue
    simp only [h.task, hd, ho, ha, he, hs, hadv, Bool.not_true, Bool.false_eq_true, if_false]
    unfold Dev.place
    rw [if_neg (by rw [hpow]; decide), if_pos (Dev.descQuiet_evt _ hu k)]
    unfold Dev.startWait
    rw [hnow]
    rfl
  rw [hfall]
  exact ⟨hk2.setTask rfl fun hn => by simp [HTask.fallen] at hn, (hl.side.trans (.setTask _)).trans (.setTask _)⟩

/-- R78: the prefetch of a waiting task without contexts reads its descriptor. -/
theorem Dev.prefetch_sole (h : d.Sole t x) (ho : t.open = true) (hn : x.nctx = 0) :
    (d.prefetch t.idx).Sole t x ∧ d.Side (d.prefetch t.idx) := by
  obtain ⟨e, he, hl⟩ := d.readDesc_some h.lt h.desc
  have hp : d.prefetch t.idx = e := by
    unfold Dev.prefetch
    simp only [h.task, ho, Bool.true_or, if_true, he, Desc.ctxs, hn, List.take_zero, Dev.askContexts]
  rw [hp]
  exact ⟨h.looks hl, hl.side⟩

/-! ### Acceptance (R69, R73) -/

/-- The record of a task that has been accepted. -/
def HTask.accepted (t : HTask) (atLimit : Bool) : HTask :=
  { t.close with lastLate := t.late, lastDeferred := t.deferred, lastAtLimit := atLimit }

/-- R63: the record of a ONESHOT task at the end of its occurrence is that of a task that is not armed. -/
def HTask.ended (t : HTask) (oneshot : Bool) : HTask := if oneshot then { t with armed := false, due := none } else t

/-- R73: the end of an occurrence of a task whose descriptor can be read. -/
theorem Dev.endOneshot_desc {i : Nat} (hi : i < 1024) (h : d.peekDesc i = some x) :
    (d.endOneshot i).task i = (d.task i).ended x.oneshot ∧ (d.endOneshot i).herd.running = d.herd.running := by
  obtain ⟨⟨w, hw, hb⟩, -⟩ := d.peekDesc_word h
  obtain ⟨hr, hl⟩ := d.memRead_task (w := 4 * i + 1) (by omega)
  have hm : d.memRead 7 21 (4 * i + 1) = (some w, (d.memRead 7 21 (4 * i + 1)).2) := Prod.ext (hr.trans hw) rfl
  generalize (d.memRead 7 21 (4 * i + 1)).2 = g at hl hm
  unfold Dev.endOneshot
  simp only [hm, hb]
  unfold HTask.ended
  split
  · refine ⟨?_, congrArg (·.running) hl.herd⟩
    rw [Dev.task_setTask, if_pos (by simp)]
    exact congrArg (fun u : HTask => { u with armed := false, due := none }) (hl.task i)
  · exact ⟨hl.task i, congrArg (·.running) hl.herd⟩

/-- R73: EVT_RAISE accepts a task. -/
theorem Dev.accept_evt (d : Dev) (t : HTask) (hu : x.unit = 6) :
    d.accept t x
      = ({ ((d.setTask (t.accepted (t.waited == d.deferMax))).inc Reg.HERD_DISP_CNT).endOneshot t.idx with
          herd.running := (((d.setTask (t.accepted (t.waited == d.deferMax))).inc Reg.HERD_DISP_CNT).endOneshot
            t.idx).herd.running ++ [(6, t.idx)] } : Dev).herdRaise (bits x.arg 0 9) := by
  unfold Dev.accept
  rw [hu]
  rfl

theorem Dev.rd_inc (a : Nat) : (d.inc a).rd a = satInc 32 (d.rd a) := by
  have hlt : satInc 32 (d.rd a) < 2 ^ 32 := by unfold satInc; split <;> omega
  rw [Dev.inc, Dev.rd_wr_same, Nat.mod_eq_of_lt hlt]

theorem Dev.accept_frame (h : d.Sole t x) (hu : x.unit = 6) :
    (eventExists (bits x.arg 0 9) = true → bits x.arg 0 9 ∈ (d.accept t x).edges)
    ∧ (d.accept t x).rd Reg.HERD_DISP_CNT = satInc 32 (d.rd Reg.HERD_DISP_CNT)
    ∧ (d.accept t x).task t.idx = (t.accepted (t.waited == d.deferMax)).ended x.oneshot
    ∧ (d.accept t x).herd.running = d.herd.running ++ [(6, t.idx)]
    ∧ (d.accept t x).herd.evalDue = d.herd.evalDue := by
  rw [d.accept_evt t hu]
  generalize ht : t.accepted (t.waited == d.deferMax) = u
  have hui : u.idx = t.idx := by rw [← ht]; rfl
  have hi : ((d.setTask u).inc Reg.HERD_DISP_CNT).herd = (d.setTask u).herd := by rw [Dev.inc, Dev.wr_herd]
  have hm : ((d.setTask u).inc Reg.HERD_DISP_CNT).mem = d.mem := by
    rw [Dev.inc, Dev.wr_mem]
    rfl
  have hrd : ((d.setTask u).inc Reg.HERD_DISP_CNT).rd Reg.HERD_DISP_CNT = satInc 32 (d.rd Reg.HERD_DISP_CNT) := Dev.rd_inc _
  generalize (d.setTask u).inc Reg.HERD_DISP_CNT = g at hi hm hrd
  obtain ⟨hs, -⟩ := g.endOneshot_frame t.idx
  obtain ⟨htask, hrun⟩ := Dev.endOneshot_desc h.lt ((Dev.peekDesc_of_mem hm t.idx).trans h.desc)
  have hgt : g.task t.idx = u := by
    rw [Dev.task_of_tasks (congrArg (·.tasks) hi), Dev.task_setTask, if_pos hui.symm]
  unfold Dev.herdRaise
  refine ⟨fun hx => ?_, ?_, ?_, ?_, ?_⟩
  · rw [hx, Dev.raiseIf_edges]
    exact List.mem_append_right _ (List.mem_singleton.2 rfl)
  · rw [Dev.rd_raiseIf]
    exact (hs.rd _ (by decide)).trans hrd
  · rw [Dev.task_raiseIf, ← hgt]
    exact htask
  · rw [Dev.raiseIf_herd]
    exact congrArg (· ++ [(6, t.idx)]) (hrun.trans (congrArg (·.running) hi))
  · rw [Dev.raiseIf_herd]
    exact hs.due.trans (congrArg (·.evalDue) hi)

/-! ### The end of the evaluation (R60, R69) -/

theorem Dev.releasesOf_frame : ∀ (l : List (Nat × Nat)) (d : Dev),
    let e := l.foldl (fun d p => d.releaseHolds p.2) d
    d.Side e ∧ e.herd.tasks = d.herd.tasks ∧ e.herd.running = d.herd.running
  | [], d => ⟨.refl d, rfl, rfl⟩
  | p :: l, d => by
    obtain ⟨hs, ht, hr, -⟩ := d.releaseHolds_frame p.2
    obtain ⟨ks, kt, kr⟩ := Dev.releasesOf_frame l (d.releaseHolds p.2)
    exact ⟨hs.trans ks, kt.trans ht, kr.trans hr⟩

theorem Dev.unitComplete_frame (d : Dev) (u : Nat) : d.Side (d.unitComplete u) ∧ (d.unitComplete u).herd.tasks = d.herd.tasks
    ∧ (d.unitComplete u).herd.running = d.herd.running.filter (·.1 != u) := by
  obtain ⟨hs, ht, hr⟩ := Dev.releasesOf_frame (d.herd.running.filter (·.1 == u))
    { d with herd.running := d.herd.running.filter (·.1 != u) }
  exact ⟨.trans (.herd _) hs, ht, hr⟩

/-- R60: no task stays on a unit that is done within its evaluation. -/
theorem Dev.completeShort_frame (d : Dev) : d.Side d.completeShort ∧ d.completeShort.herd.tasks = d.herd.tasks
    ∧ d.completeShort.herd.running = ((d.herd.running.filter (·.1 != 2)).filter (·.1 != 6)).filter (·.1 != 7) := by
  obtain ⟨s2, t2, r2⟩ := d.unitComplete_frame 2
  obtain ⟨s6, t6, r6⟩ := (d.unitComplete 2).unitComplete_frame 6
  obtain ⟨s7, t7, r7⟩ := ((d.unitComplete 2).unitComplete 6).unitComplete_frame 7
  exact ⟨(s2.trans s6).trans s7, t7.trans (t6.trans t2), by rw [Dev.completeShort, r7, r6, r2]⟩

theorem rotReg_facts : ∀ p < 4, isSide (Reg.HERD_ROT p) = false ∧ Reg.HERD_DISP_CNT ≠ Reg.HERD_ROT p := by decide

/-- R68, R69, R73: the one waiting task is offered, is accepted by EVT_RAISE, and its priority rotates past it. -/
theorem Dev.dispatch_sole (h : d.Sole t x) (k : Nat) (ht : t.waiting = true) (hw : t.waited = 0)
    (hp : t.prio = x.prio) (hu : x.unit = 6) (hn : x.nctx = 0) (hpow : d.unitPowered 6 x.arg = true) :
    (eventExists (bits x.arg 0 9) = true → bits x.arg 0 9 ∈ (d.dispatch k).edges)
    ∧ (d.dispatch k).rd Reg.HERD_DISP_CNT = satInc 32 (d.rd Reg.HERD_DISP_CNT)
    ∧ (∃ b, (d.dispatch k).task t.idx = (t.accepted b).ended x.oneshot)
    ∧ (d.dispatch k).f (Fld.HERD_ROT_PTR x.prio) = (t.idx + 1) % 1024
    ∧ (d.dispatch k).herd.running = [] ∧ (d.dispatch k).herd.evalDue = d.herd.evalDue := by
  obtain ⟨g, hg, hl⟩ := d.readDesc_some h.lt h.desc
  have hk := h.looks hl
  have hel := g.eligible_evt (x := x) t.idx k hu hn (by rw [hl.side.unitPowered, hpow])
  have hrank : d.rank = [t] := by simp [Dev.rank, h.tasks, ht, Dev.rankInsert]
  have hmax : ¬ d.deferMax < t.waited := by rw [hw]; omega
  have hoff : d.dispatch k = ((g.accept t x).setF (Fld.HERD_ROT_PTR t.prio) ((t.idx + 1) % 1024)).completeShort := by
    unfold Dev.dispatch
    rw [hrank]
    unfold Dev.offers
    rw [if_neg (by decide), if_neg hmax, hg]
    dsimp only
    rw [if_pos hel]
    rfl
  obtain ⟨hev, hcnt, htask, hrun, hdue⟩ := Dev.accept_frame hk hu
  have hlt : x.prio < 4 := (d.peekDesc_word h.desc).2
  obtain ⟨n1, n2⟩ := rotReg_facts x.prio hlt
  obtain ⟨cs, ct, cr⟩ := Dev.completeShort_frame ((g.accept t x).setF (Fld.HERD_ROT_PTR t.prio) ((t.idx + 1) % 1024))
  rw [hoff]
  rw [hp] at cs ct cr ⊢
  refine ⟨fun hx => cs.grows _ ?_, ?_, ⟨t.waited == g.deferMax, ?_⟩, ?_, ?_, ?_⟩
  · rw [Dev.setF_edges]
    exact hev hx
  · rw [cs.rd _ (by decide), Dev.rd_setF_ne _ _ _ n2, hcnt, hl.side.rd _ (by decide)]
  · rw [Dev.task_of_tasks ct, Dev.task_setF, htask]
  · rw [cs.f _ n1, Dev.f_setF_same _ _ _ (by decide : 0 + 10 ≤ 32)]
    exact Nat.mod_mod _ _
  · rw [cr, Dev.setF_herd, hrun, hl.herd, h.running]
    rfl
  · rw [cs.due, Dev.setF_herd, hdue, hl.herd]

/-! ### The evaluation (R63, R69) -/

/-- R69: what an evaluation does at tick `k`, once it is no longer due. -/
def Dev.evaluated (d : Dev) (k : Nat) : Dev :=
  let d := (d.herdResume k).firstDues k
  let waiting := (d.herd.tasks.filter (·.waiting)).map (·.idx)
  let d := waiting.foldl (fun d i => d.setTask { d.task i with waited := min 255 (d.task i).waited + 1 }) d
  let moved := (d.herd.tasks.filter fun t => t.moved.isSome || t.search.isSome).map (·.idx)
  let d := moved.foldl (fun d i => d.meetMoved i k (k * 256 : Nat)) d
  let due := (d.herd.tasks.filter fun t => t.armed && t.due == some (d.mae.cyc, k)).map (·.idx)
  let d := due.foldl (fun d i => d.fallDue i k false) d
  let d := d.liveTasks.foldl (fun d i => d.prefetch i) d
  d.dispatch k

theorem Dev.herdEval_due (h : (d.herdRuns && d.herd.evalDue) = true) :
    d.herdEval = ({ d with herd.evalDue := false } : Dev).evaluated (d.mae.nextTick - 1) := by
  unfold Dev.herdEval
  rw [if_pos h]
  rfl

theorem Dev.herdEval_idle (h : (d.herdRuns && d.herd.evalDue) = false) : d.herdEval = d := by
  unfold Dev.herdEval
  rw [h]
  rfl

/-- An evaluation of the one task, armed and due and with nothing of it open: it starts with what falls due. -/
theorem Dev.evaluated_sole {k : Nat} (h : d.Sole t x) (hres : d.herd.resume = none) (ha : t.armed = true) (ho : t.open = false)
    (hd : t.due = some (d.mae.cyc, k)) :
    d.evaluated k = ((d.fallDue t.idx k false).liveTasks.foldl (fun d i => d.prefetch i) (d.fallDue t.idx k false)).dispatch k := by
  obtain ⟨hw, hm, hs⟩ := HTask.close_of_not_open ho
  have hfirst : (d.herdResume k).firstDues k = d := by
    simp [Dev.herdResume, hres, Dev.firstDues, Dev.armedTasks, h.tasks, ha, h.task, hd]
  simp [Dev.evaluated, hfirst, h.tasks, hw, hm, hs, ha, hd]

/-- The record of the task at the end. -/
theorem HTask.ended_fallen (t : HTask) (x : Desc) (due : Word × Nat) (b : Bool) (ha : t.armed = true) :
    let u := ((t.fallen x due).accepted b).ended x.oneshot
    u.open = false ∧ u.armed = (!x.oneshot)
      ∧ u.due = (if x.oneshot then none else some (due.1 + BitVec.ofNat 32 x.period, x.tick))
      ∧ u.lastLate = false ∧ u.lastDeferred = false := by
  unfold HTask.ended
  cases x.oneshot
  · exact ⟨rfl, ha, rfl, rfl, rfl⟩
  · exact ⟨rfl, rfl, rfl, rfl, rfl⟩

/-- R63, R69, R73: the one task falls due, is offered and is accepted in one evaluation. -/
theorem Dev.evaluated_accepts {k : Nat} (h : d.Sole t x) (hres : d.herd.resume = none) (ha : t.armed = true) (ho : t.open = false)
    (hs : t.skip = false) (hd : t.due = some (d.mae.cyc, k)) (hp : x.period ≠ 0) (hu : x.unit = 6) (hn : x.nctx = 0)
    (hw : d.unitPowered 6 x.arg = true) :
    (eventExists (bits x.arg 0 9) = true → bits x.arg 0 9 ∈ (d.evaluated k).edges)
    ∧ (d.evaluated k).rd Reg.HERD_DISP_CNT = satInc 32 (d.rd Reg.HERD_DISP_CNT)
    ∧ (∃ b, (d.evaluated k).task t.idx = ((t.fallen x (d.mae.cyc, k)).accepted b).ended x.oneshot)
    ∧ (d.evaluated k).f (Fld.HERD_ROT_PTR x.prio) = (t.idx + 1) % 1024
    ∧ (d.evaluated k).herd.running = [] ∧ (d.evaluated k).herd.evalDue = d.herd.evalDue := by
  rw [Dev.evaluated_sole h hres ha ho hd]
  obtain ⟨hf, sf⟩ := Dev.fallDue_sole h k ha ho hs hd hp hu hw
  obtain ⟨hi, hopen, hwait, hwaited, hprio⟩ : (t.fallen x (d.mae.cyc, k)).idx = t.idx
      ∧ (t.fallen x (d.mae.cyc, k)).open = true ∧ (t.fallen x (d.mae.cyc, k)).waiting = true
      ∧ (t.fallen x (d.mae.cyc, k)).waited = 0 ∧ (t.fallen x (d.mae.cyc, k)).prio = x.prio := ⟨rfl, rfl, rfl, rfl, rfl⟩
  generalize t.fallen x (d.mae.cyc, k) = u at hf hi hopen hwait hwaited hprio ⊢
  generalize d.fallDue t.idx k false = g at hf sf ⊢
  have hlive : g.liveTasks = [t.idx] := by simp [Dev.liveTasks, hf.tasks, hopen, hi]
  obtain ⟨hpre, sp⟩ := Dev.prefetch_sole hf hopen hn
  rw [hlive, List.foldl_cons, List.foldl_nil]
  rw [hi] at hpre sp
  have side := sf.trans sp
  rw [← side.rd Reg.HERD_DISP_CNT (by decide), ← side.due]
  have := Dev.dispatch_sole hpre k hwait hwaited hprio hu hn ((side.unitPowered x.arg).trans hw)
  rwa [hi] at this

/-- Settles O22: the task falls due, is offered first and only, and is accepted. -/
theorem taskFallsDueAndIsAccepted : Obligations.TaskFallsDueAndIsAccepted := by
  unfold Obligations.TaskFallsDueAndIsAccepted
  refine ⟨fun s t x hr he hres hrun hh htasks hlt ha ho hs hd hx hp hu hn hw => ?_, fun s h => ?_⟩
  · refine effects_run (f := Dev.herdEval) rfl ?_
    have hdue : ((s.dev.answer .none).herdRuns && (s.dev.answer .none).herd.evalDue) = true := Bool.and_eq_true_iff.2 ⟨hr, he⟩
    rw [Dev.herdEval_due hdue]
    have hsole : ({ s.dev.answer .none with herd.evalDue := false } : Dev).Sole t x := ⟨htasks, hh, hrun, hlt, hx⟩
    obtain ⟨hev, hcnt, ⟨b, htask⟩, hrot, hno, hoff⟩ :=
      Dev.evaluated_accepts (k := (s.dev.answer .none).mae.nextTick - 1) hsole hres ha ho hs hd hp hu hn hw
    generalize ({ s.dev.answer .none with herd.evalDue := false } : Dev).evaluated _ = e at hev hcnt htask hrot hno hoff ⊢
    obtain ⟨h1, h2, h3, h4, h5⟩ := HTask.ended_fallen t x (s.dev.mae.cyc, s.dev.mae.nextTick - 1) b ha
    exact ⟨hev, hcnt, htask ▸ h1, htask ▸ h2, htask ▸ h3, htask ▸ h4, htask ▸ h5, hrot, hno, hoff⟩
  · exact effects_run (f := Dev.herdEval) rfl (Dev.herdEval_idle h)

end Sys2Proof.Machine
end

section
/-! SUPPORT. What the follow-up work of a command does to occurrences.  Where, after it, the boot ROM is at its start with the
application still to boot, MULE's restore has failed and a host word is held both ways (`Dev.Halted`), it was so before it, and
the work has opened no occurrence. -/

namespace Sys2Proof.Machine

/-- A state from which the boot ROM, MULE and the host port do not move by themselves, whatever the last answer
(`Dev.HeldUp` asks for none). -/
structure Dev.Halted (d : Dev) : Prop where
  rom : d.boot.rom = true
  phase : d.boot.phase = .start
  due : d.boot.appDue = true
  word : d.ports.host.tx.any (fun x => x.held.isSome && x.next == some .held) = true
  store : d.mule.store = .failed

/-- What is open in `e` was open in `d`. -/
def Dev.Shuts (d e : Dev) : Prop := ∀ i, (e.task i).open = true → (d.task i).open = true

namespace Dev.Shuts

variable {d e g : Dev}

theorem refl (d : Dev) : d.Shuts d := fun _ h => h

theorem trans (h : d.Shuts e) (k : e.Shuts g) : d.Shuts g := fun i hi => h i (k i hi)

theorem of_tasks (h : e.herd.tasks = d.herd.tasks) : d.Shuts e := fun i hi => by rwa [Dev.task_of_tasks h] at hi

theorem of_herd (h : e.herd = d.herd) : d.Shuts e := of_tasks (by rw [h])

/-- A record is written that is open only if the one before it was. -/
theorem setTask (t : HTask) (h : t.open = true → (d.task t.idx).open = true) : d.Shuts (d.setTask t) := fun i hi => by
  rw [Dev.task_setTask] at hi
  split at hi
  · rename_i he
    exact he ▸ h hi
  · exact hi

theorem foldl {α : Type} (op : Dev → α → Dev) (h : ∀ x (d : Dev), d.Shuts (op d x)) : ∀ (l : List α) (d : Dev), d.Shuts (l.foldl op d)
  | [], d => refl d
  | x :: l, d => (h x d).trans (foldl op h l _)

end Dev.Shuts

/-- If `e` is halted, then so was `d`, and what is open in `e` was open in `d`. -/
structure Dev.BackShuts (d e : Dev) : Prop where
  held : e.Halted → d.Halted
  shuts : e.Halted → d.Shuts e

namespace Dev.BackShuts

variable {d e g : Dev}

theorem trans (h : d.BackShuts e) (k : e.BackShuts g) : d.BackShuts g :=
  ⟨h.held ∘ k.held, fun hg => (h.shuts (k.held hg)).trans (k.shuts hg)⟩

/-- Work that is not done where its end is halted. -/
theorem of_eq (h : e.Halted → e = d) : d.BackShuts e := ⟨fun k => h k ▸ k, fun k => h k ▸ .refl _⟩

theorem same (hb : e.boot = d.boot) (hh : e.ports.host = d.ports.host) (hs : e.mule.store = d.mule.store) (h : d.Shuts e) :
    d.BackShuts e :=
  ⟨fun k => ⟨hb ▸ k.rom, hb ▸ k.phase, hb ▸ k.due, hh ▸ k.word, hs ▸ k.store⟩, fun _ => h⟩

theorem works (h : d.Works e) (hs : d.Shuts e) : d.BackShuts e := same h.boot h.host h.store hs

theorem after (h : d.After e) : d.BackShuts e :=
  same (show e.units.boot = d.units.boot by rw [h.units]) (congrArg (·.host) h.ports)
    (show e.units.mule.store = d.units.mule.store by rw [h.units]) (.of_herd (show e.units.herd = d.units.herd by rw [h.units]))

end Dev.BackShuts

variable (d : Dev)

/-! ### The boot ROM (R409–R413, R417) -/

/-- The boot ROM runs and is at its start. -/
def Dev.AtStart (d : Dev) : Prop := d.boot.rom = true ∧ d.boot.phase = .start

theorem Dev.bootEnd_notAtStart : ¬ d.bootEnd.AtStart := fun h => by simpa [d.bootEnd_rom] using h.1

theorem Dev.bootLeave_notAtStart (h : d.boot.phase ≠ .start) : ¬ d.bootLeave.AtStart := by
  unfold Dev.bootLeave
  split
  · exact Dev.bootEnd_notAtStart _
  · exact fun k => h k.2

theorem Dev.bootWrite_notAtStart (f : BootFind) (h : d.boot.phase ≠ .start) : ¬ (d.bootWrite f).AtStart := by
  unfold Dev.bootWrite
  split
  · split
    · exact Dev.bootEnd_notAtStart _
    · exact Dev.bootEnd_notAtStart _
    · exact Dev.bootLeave_notAtStart _ (by simp)
  · exact fun k => h k.2

theorem Dev.bootFound_notAtStart (f : BootFind) : ¬ (d.bootFound f).AtStart := Dev.bootWrite_notAtStart _ f (by simp)

theorem Dev.bootCheck_notAtStart : ¬ d.bootCheck.AtStart := by
  unfold Dev.bootCheck
  dsimp only
  generalize (if d.on Fld.SYSCTL_BOOT_STAT_COLD then d.otpLoad.clearBanks.clearDone else d) = g
  split
  · exact Dev.bootFound_notAtStart _ _
  · split
    · split
      · exact Dev.bootFound_notAtStart _ _
      · exact Dev.bootLeave_notAtStart _ (by simp)
    · exact Dev.bootFound_notAtStart _ _

theorem Dev.bootTry_atStart (h : d.bootTry.AtStart) : d.bootTry = d := by
  unfold Dev.bootTry at h ⊢
  split
  · rename_i hr
    rw [if_pos hr] at h
    split at h <;> rename_i hp
    · exact absurd h d.bootCheck_notAtStart
    · exact absurd h (d.bootWrite_notAtStart _ (by simp [hp]))
    · exact absurd h (d.bootLeave_notAtStart (by simp [hp]))
  · rfl

/-- R417: while an APP_BOOT stays due, at most the application core has been reset. -/
theorem Dev.appBoot_due (h : d.appBoot.boot.appDue = true) : d.appBoot = d ∨ d.appBoot = d.acReset := by
  have begun : ∀ g : Dev, g.boot.appDue = false → g.boot.appDue = true → g = d ∨ g = d.acReset := fun g hg h => by
    rw [hg] at h
    cases h
  unfold Dev.appBoot at h ⊢
  dsimp only at h ⊢
  split
  · exact .inl rfl
  · rename_i h1
    rw [if_neg h1] at h
    split
    · exact .inr rfl
    · rename_i h2
      rw [if_neg h2] at h
      refine begun _ ?_ h
      split
      · exact Dev.appBootEnd_due _ _
      · split
        · exact Dev.appBootEnd_due _ _
        · split
          · exact Dev.loaderStart_due _ _ _
          · exact (Dev.appBootEnd_due _ _).trans (congrArg (·.appDue) (Dev.appStart_boot _))

theorem Dev.appBootDue_backShuts : d.BackShuts d.appBootDue := by
  have reset : d.BackShuts d.acReset := .same rfl rfl rfl (.of_herd rfl)
  unfold Dev.appBootDue
  split
  · have both : d.appBoot.Halted → d.BackShuts d.appBoot := fun h => by
      rcases d.appBoot_due h.due with he | he <;> rw [he]
      · exact .of_eq fun _ => rfl
      · exact reset
    exact ⟨fun h => (both h).held h, fun h => (both h).shuts h⟩
  · exact .of_eq fun _ => rfl

/-! ### Reports (R73, R78, R225) -/

theorem Dev.missed_shuts (i cause : Nat) : d.Shuts (d.missed i cause) := fun j h => by
  obtain ⟨hne, hno, -⟩ := d.missed_task i cause j
  by_cases hj : j = i
  · subst hj
    rw [hno] at h
    cases h
  · rwa [hne hj] at h

theorem Dev.ctxMissed_shuts (i : Nat) : d.Shuts (d.ctxMissed i) := by
  unfold Dev.ctxMissed
  dsimp only
  split
  · exact d.missed_shuts i 4
  · exact .trans (.setTask _ fun h => by simpa [HTask.open] using h) (Dev.missed_shuts _ i 4)

theorem Dev.ctxHold_herd (n k : Nat) : (d.ctxHold n k).herd = d.herd := by
  unfold Dev.ctxHold
  split
  · exact Dev.setF_herd _ _ _
  · rfl

theorem Dev.herdContext_shuts (c : Nat) (ok : Bool) : d.Shuts (d.herdContext c ok) := by
  unfold Dev.herdContext
  dsimp only
  split
  · exact .trans (.of_herd (d.ctxHold_herd _ _)) (.of_tasks rfl)
  · exact .foldl _ (fun h g => g.ctxMissed_shuts _) _ d

theorem Dev.muleReports_shuts : d.Shuts d.muleReports :=
  .trans (.of_herd rfl) (.foldl _ (fun (p : Nat × Bool) g => g.herdContext_shuts p.1 p.2) _ _)

theorem Dev.unitsDone_shuts : d.Shuts d.unitsDone := by
  refine .foldl _ (fun u g => ?_) _ d
  split
  · exact .of_tasks (g.unitComplete_frame u).2.1
  · exact .refl g

theorem Dev.pageErr_herd (acct cause src : Nat) : (d.pageErr acct cause src).herd = d.herd := by
  unfold Dev.pageErr
  dsimp only
  rw [Dev.raise_herd, Dev.raiseIf_herd, Dev.wr_herd]

theorem Dev.askContexts_shuts (i : Nat) : ∀ (cs : List Nat) (d : Dev), d.mule.store ≠ .ready → d.Shuts (Dev.askContexts i cs d)
  | [], d, _ => .refl d
  | c :: cs, d, h => by
    unfold Dev.askContexts
    split
    · exact Dev.askContexts_shuts i cs d h
    · split
      · exact .trans (.of_tasks rfl) (Dev.askContexts_shuts i cs _ h)
      · rw [d.ctxAsk_notReady c h]
        exact .trans (.of_herd (d.pageErr_herd _ _ _)) (Dev.ctxMissed_shuts _ i)

theorem Dev.askWaiting_shuts : ∀ (n : Nat) (d : Dev), d.mule.store ≠ .ready → d.Shuts (Dev.askWaiting n d)
  | 0, d, _ => .refl d
  | n + 1, d, h => by
    unfold Dev.askWaiting
    split
    · rename_i i c rest _
      split
      · have hc := Dev.askContexts_shuts i [c] { d with herd.asks := rest } h
        have hs := Dev.askContexts_store i [c] { d with herd.asks := rest }
        exact (Dev.Shuts.trans (.of_tasks rfl) hc).trans (Dev.askWaiting_shuts n _ (by rw [hs]; exact h))
      · exact .refl d
    · exact .refl d

theorem Dev.askWaiting_backShuts (n : Nat) : d.BackShuts (Dev.askWaiting n d) := by
  by_cases h : d.mule.store = .ready
  · have not : ¬ (Dev.askWaiting n d).Halted := fun k => by simpa [Dev.askWaiting_store, h] using k.store
    exact .of_eq fun k => absurd k not
  · exact .works (Dev.askWaiting_works n d h) (Dev.askWaiting_shuts n d h)

/-! ### The UART (R403) -/

theorem Dev.drained_herd (g b : Nat) : (d.drained g b).herd = d.herd := by
  unfold Dev.drained Dev.handoverDone
  split
  · split
    · rw [Dev.raise_herd, Dev.setF_herd]
    · rfl
  · rfl

theorem Dev.nonOwner_herd (g b w : Nat) : (d.nonOwner g b w).herd = d.herd := by
  unfold Dev.nonOwner
  dsimp only
  rw [Dev.raise_herd, Dev.wr_herd, Dev.wr_herd]

theorem Dev.memWrite_herd (g b w x : Nat) : (d.memWrite g b w x).2.herd = d.herd := by
  unfold Dev.memWrite
  split
  · rfl
  · exact d.nonOwner_herd g b w

theorem Dev.memRead_herd (g : Nat) {b : Nat} (w : Nat) (h : b < 32) : (d.memRead g b w).2.herd = d.herd := by
  unfold Dev.memRead
  split
  · unfold Dev.readRow
    dsimp only
    split
    · rfl
    · exact (Dev.corrected_frame _ g w _ _ false h).2.herd
    · exact (Dev.corrected_frame _ g w _ _ false h).2.herd
    · exact (d.uncorrectable_frame g w _ _ false h).2.herd
    · exact (d.uncorrectable_frame g w _ _ false h).2.herd
  · exact d.nonOwner_herd g b w

theorem Dev.uartRing_herd : ∀ (n : Nat) (d : Dev), (Dev.uartRing n d).herd = d.herd
  | 0, _ => rfl
  | n + 1, d => by
    unfold Dev.uartRing
    dsimp only
    split
    · split
      · exact Dev.setF_herd _ _ _
      · rename_i b w _
        have h := (Dev.memWrite_herd (d.drained 6 b) 6 b w (leNat (d.ports.uart.rx.take 4))).trans (d.drained_herd 6 b)
        split <;> rename_i he <;> rw [he] at h
        · rw [Dev.uartRing_herd n, Dev.setF_herd]
          exact h
        · exact (Dev.setF_herd _ _ _).trans h
    · rfl

theorem Dev.uartDmaByte_herd : d.uartDmaByte.2.herd = d.herd := by
  unfold Dev.uartDmaByte
  dsimp only
  split
  · split
    · exact Dev.setF_herd _ _ _
    · rename_i b w hw
      have h := (Dev.memRead_herd (d.drained 6 b) 6 w (d.uartWord_bank hw)).trans (d.drained_herd 6 b)
      split <;> rename_i he <;> rw [he] at h
      · exact (Dev.setF_herd _ _ _).trans h
      · exact (Dev.setF_herd _ _ _).trans h
  · rfl

theorem Dev.uartSend_herd : d.uartSend.herd = d.herd := by
  unfold Dev.uartSend
  split
  · split
    · rfl
    · have h := d.uartDmaByte_herd
      split <;> rename_i he <;> rw [he] at h <;> exact h
  · rfl

theorem Dev.uartGo_herd : d.uartGo.herd = d.herd := by
  unfold Dev.uartGo
  split
  · exact (Dev.uartRing_herd 4 _).trans (Dev.uartSend_herd _)
  · rfl

/-! ### A host word that is read (R388) -/

/-- R24: what the host ports reach, they may read and write alike. -/
theorem reach_host_read {r : Requester} (hr : r = .hspi ∨ r = .i2ct) (t : Target) : reach r t false = reach r t true := by
  rcases hr with rfl | rfl <;> cases t <;> rfl

/-- A read of the DPM that must wait changes nothing. -/
theorem Dev.sramRead_held {r : Requester} (hl : r.isLc = false) (ha : r.isAc = false) (w : Nat) :
    (d.sramRead r 20 w none).1 = .wait → (d.sramRead r 20 w none).2 = d := by
  unfold Dev.sramRead Dev.bankGate
  by_cases hc : d.clearing
  · simp [hc]
  · have hg : ((decide (20 < 22) && d.clearing) || d.inTransit r 20) = false := by simp [hc, Dev.inTransit]
    simp only [hg, hl, ha, Bool.or_self, Bool.and_false, Bool.false_eq_true, if_false]
    split <;> simp

theorem Dev.pageAccessRead_served (r : Requester) (p : Page) (off a : Nat) (size : Size) :
    (d.pageAccessRead r p off a size).1 ≠ .wait := by
  unfold Dev.pageAccessRead
  split
  · simp
  · split <;> simp

theorem Dev.hostRead_held (x : HostTx) (a : Nat) :
    (d.busRead x.req a .word none).1 = .wait → (d.busRead x.req a .word none).2 = d := by
  unfold Dev.busRead
  split
  · simp
  · rename_i t _
    have hp := d.reachGate_passed (r := x.req) (t := t) (a := a) (w := false)
    split <;> rename_i hg <;> rw [hg] at hp
    · simp
    · exact fun _ => (hp (by simp)).1
    · obtain ⟨he, hr⟩ := hp (by simp)
      simp only at he
      subst he
      dsimp only
      rcases reach_host x.req_eq (reach_host_read x.req_eq t ▸ hr) with ⟨w, rfl⟩ | ⟨p, off, rfl⟩
      · have hs := Dev.sramRead_held ‹Dev› x.req_group.1 x.req_group.2 w
        split
        · simp
        · exact hs
      · have hs := Dev.pageAccessRead_served ‹Dev› x.req p off a .word
        split
        · simp
        · exact fun h => absurd h hs

/-- R388: a word that is read and held changes nothing. -/
theorem Dev.hostWord_read_held (x : HostTx) (a : Nat) :
    (d.hostWord x.req a none none).1 = .held → (d.hostWord x.req a none none).2 = d := by
  unfold Dev.hostWord
  split
  · simp
  · split
    · simp
    · rename_i b _
      have hw := d.hostRead_held x b
      have hb : (decide (a < 0x2000) && d.portB none (a / 4) (none : Option Word).isSome) = false := by
        simp [Dev.portB]
      dsimp only
      rw [hb]
      simp only [Bool.false_eq_true, if_false]
      split
      · simp
      · rename_i p _ _ he
        rw [he] at hw
        intro h
        cases p
        · simp_all
        · simp_all [Resp.host]
        · exact hw rfl

/-! ### The transaction in progress (R383, R388) -/

/-- No write word is held while a read word is, and none is where one may still be started. -/
def Dev.reading (d : Dev) : Prop := ∀ x, d.ports.host.tx = some x →
  (x.next = some .held → x.held = none) ∧ (x.next = none → x.fail.isSome = true ∨ x.held = none)

theorem Dev.reading_not_halted {d : Dev} (h : d.reading) : ¬ d.Halted := fun k => by
  have hw := k.word
  rw [Option.any_eq_true] at hw
  obtain ⟨x, hx, hn⟩ := hw
  simp only [Bool.and_eq_true, beq_iff_eq] at hn
  simp [(h x hx).1 hn.2] at hn

theorem Dev.reading_of_host {d e : Dev} (h : d.reading) (hh : e.ports.host = d.ports.host) : e.reading := fun x hx =>
  h x (by rwa [hh] at hx)

theorem Dev.reading_setTx {f : HostTx → HostTx} (h : ∀ x, d.ports.host.tx = some x →
    ((f x).next = some .held → (f x).held = none) ∧ ((f x).next = none → (f x).fail.isSome = true ∨ (f x).held = none)) :
    (d.setTx f).reading := by
  intro x hx
  rw [Dev.setTx_tx, Option.map_eq_some_iff] at hx
  obtain ⟨y, hy, rfl⟩ := hx
  exact h y hy

theorem Dev.txFail_reading (code : Nat) : (d.txFail code).reading := d.reading_setTx (by simp)

theorem Dev.txStep_reading : d.txStep.reading := by
  have h := d.reading_setTx (f := fun x => { x with addr := nextHost x.addr, next := none, held := none }) (by simp)
  unfold Dev.txStep
  dsimp only
  generalize Dev.setTx _ _ = e at h ⊢
  split
  · split <;> exact h
  · exact h

theorem Dev.txStart_reading (h : d.reading) : (Dev.txStart none d).reading := by
  unfold Dev.txStart
  split
  · exact h
  · rename_i x hx
    have hw := d.hostWord_read_held x x.addr
    split
    · exact h
    · rename_i hs
      split
      rename_i t e he
      rw [he] at hw
      by_cases ht : t = .held
      · obtain rfl : e = d := hw ht
        refine e.reading_setTx fun y hy => ?_
        obtain rfl : x = y := Option.some.inj (hx.symm.trans hy)
        have hheld := (h x hx).2
        simp_all
      · exact e.reading_setTx fun y _ => by simp [ht]

theorem Dev.txRead_reading (h : d.reading) (late : Bool) : (d.txRead late).2.reading := by
  unfold Dev.txRead
  split
  · split
    · exact d.txFail_reading _
    · exact d.txStep_reading
  · exact d.txFail_reading _
  · exact d.txFail_reading _
  · exact h

theorem Dev.reading_setN (h : d.reading) (n : Nat) : (d.setTx fun x => { x with n := n }).reading :=
  d.reading_setTx fun x hx => h x hx

theorem Dev.i2cWords_reading : ∀ (n : Nat) (d : Dev), d.reading → (Dev.i2cWords none n d).2.reading
  | 0, d, h => d.reading_setN h 0
  | n + 1, d, h => by
    have hs := d.txStart_reading h
    unfold Dev.i2cWords
    dsimp only
    split
    · exact Dev.reading_setN _ hs (n + 1)
    · exact Dev.i2cWords_reading n _ (Dev.txRead_reading _ hs false)

theorem Dev.hostData_host (ws : List (Nat × Word)) : (d.hostData ws).2.ports.host = d.ports.host := by
  unfold Dev.hostData
  dsimp only
  generalize d.ports.host.tx.any (·.coll) = c
  suffices h : ∀ (l : List (Nat × Word)) (p : List Word × Dev), (l.foldl (fun p w =>
      if c && w.1 < 0x2000 then (p.1 ++ [p.2.fresh.1], p.2.fresh.2) else (p.1 ++ [w.2], p.2)) p).2.ports.host = p.2.ports.host from
    h ws ([], d)
  intro l
  induction l with
  | nil => exact fun _ => rfl
  | cons w l ih =>
    intro p
    rw [List.foldl_cons, ih]
    split <;> rfl

theorem Dev.i2cReads_reading (n : Nat) (part : Bool) (h : d.reading) : (Dev.i2cReads none n part d).2.reading := by
  have hw := Dev.i2cWords_reading n d h
  unfold Dev.i2cReads
  split
  rename_i ws e he
  rw [he] at hw
  dsimp only
  refine Dev.reading_of_host ?_ (Dev.hostData_host _ _)
  have hs : (if part then e.txStart none else e).reading := by
    split
    · exact e.txStart_reading hw
    · exact hw
  generalize (if part then e.txStart none else e) = g at hs ⊢
  split
  · exact g.txFail_reading _
  · exact hs

theorem Dev.txEnd_not_halted : ¬ d.txEnd.Halted := fun h => by simpa [d.txEnd_tx] using h.word

theorem Dev.txClose_not_halted (h : ¬ d.Halted) : ¬ d.txClose.Halted := by
  unfold Dev.txClose
  split
  · exact d.txEnd_not_halted
  · exact h

theorem Dev.readsOn_not_halted {d : Dev} (h : d.readsOn) : ¬ d.Halted := fun k => by
  have hw := k.word
  rw [Option.any_eq_true] at hw
  obtain ⟨x, hx, hn⟩ := hw
  simp_all [h x hx]

/-- R356: what is aborted is held no longer. -/
theorem Dev.txAbort_halted (h : d.txAbort.Halted) : d.txAbort = d := by
  unfold Dev.txAbort at h ⊢
  split
  · rename_i hq
    rw [if_pos hq] at h
    exact absurd h (Dev.txEnd_not_halted _)
  · rfl

/-- R388: a held word stays as it is, or goes on. -/
theorem Dev.txHeld_halted (h : d.txHeld.Halted) : d.txHeld = d := by
  generalize he : d.txHeld = e at h ⊢
  unfold Dev.txHeld at he
  split at he
  · exact he.symm
  · rename_i x hx
    split at he
    · split at he <;> subst he
      · rfl
      · exact absurd h (Dev.txClose_not_halted _ (Dev.readsOn_not_halted (Dev.txFail_readsOn _ _)))
      · exact absurd h (Dev.txClose_not_halted _ (Dev.readsOn_not_halted (Dev.txWrites_readsOn _ _
          (Dev.readsOn_setTx _ fun y hy => Dev.txStep_readsOn _ y hy))))
    · split at he
      · split at he
        · exact he.symm
        · rename_i t g ht _
          have hs : (g.setTx fun x => { x with next := some t }).reading := g.reading_setTx fun y _ => by
            simpa using fun k : t = .held => absurd k ht
          subst he
          refine absurd h ?_
          dsimp only
          split
          · refine Dev.txClose_not_halted _ (Dev.reading_not_halted ?_)
            have hr := Dev.i2cReads_reading _ x.n x.part hs
            split
            · exact Dev.reading_of_host hr rfl
            · exact hr
          · exact Dev.reading_not_halted hs
      · exact he.symm

/-! ### The whole follow-up work -/

theorem Dev.muleTryRestore_halted (h : d.muleTryRestore.Halted) : d.muleTryRestore = d := by
  unfold Dev.muleTryRestore at h ⊢
  split
  · rename_i hc
    rw [if_pos hc] at h
    exact absurd h.store (by simp)
  · rfl

/-- Where the follow-up work ends halted, with a request waiting and SYS in check mode, it has opened no occurrence. -/
theorem Dev.finish_shuts (h : d.finish.Halted) (hp : d.finish.pwr.pend ≠ none) (hm : d.finish.watch.checkMode = true) :
    d.Shuts d.finish := by
  have front : d.BackShuts (Dev.askWaiting 8 ((d.bootTry.appBootDue.muleReports).unitsDone)).muleTryRestore.txHeld :=
    .trans (.trans (.trans (.trans (.trans (.trans (.of_eq fun k => d.bootTry_atStart ⟨k.rom, k.phase⟩)
      (Dev.appBootDue_backShuts _)) (.works (Dev.muleReports_works _) (Dev.muleReports_shuts _)))
      (.works (Dev.unitsDone_works _) (Dev.unitsDone_shuts _))) (Dev.askWaiting_backShuts _ 8))
      (.of_eq (Dev.muleTryRestore_halted _))) (.of_eq (Dev.txHeld_halted _))
  have back : ∀ e : Dev, e.BackShuts e.voteSync.mspiRefresh.errRefresh.dropCheck.txAbort.uartGo := fun e =>
    .trans (.trans (.after e.beforeSettle_after) (.of_eq (Dev.txAbort_halted _)))
      (.works (Dev.uartGo_works _) (.of_herd (Dev.uartGo_herd _)))
  have last : ∀ e : Dev, e.wakeCheck.pendStart.upBegin.settle.pwr.pend ≠ none →
      e.wakeCheck.pendStart.upBegin.settle.watch.checkMode = true → e.BackShuts e.wakeCheck.pendStart.upBegin.settle :=
    fun e he hc => by
      have ha := e.wakeCheck.pendStart.upBegin_after.trans (Dev.settle_after _)
      rw [ha.request] at he
      rw [ha.mode] at hc
      rw [e.wakeCheck.pendStart_waits he] at ha hc ⊢
      rw [e.wakeCheck_checking hc] at ha ⊢
      exact .after ha
  exact ((front.trans (back _)).trans (last _ hp hm)).shuts h

end Sys2Proof.Machine
end

section
/-! SUPPORT. A write of EN = 1 to a task whose occurrence waits though the task is not armed (an occurrence of a task whose
PERIOD is 0 leaves it so, R63): it is armed with its occurrence still open. -/

namespace Sys2Proof.Machine

/-- Task 0, which waits and is not armed. -/
def waitingTask : HTask := { idx := 0, waiting := true }

/-- Its descriptor once EN is written: PERIOD 1, TICK 0, EVT_RAISE of a USR event. -/
def usrDescriptor : Desc := descOf 1 (6 * 2 ^ 16 + 2 ^ 23) 0 (Ev.HERD_USR 0)

/-- HERD holds the one task, in a device that is halted: a host word waits for UFD, which is being quiesced. -/
def waitingDev : Dev :=
  let d : Dev :=
    { ((Dev.reset.setDom .sys 3).setDom .per 3).setDom .ufd 3 with
      herd := { tasks := [waitingTask] }
      mule := { store := .failed }
      boot := { rom := true, appDue := true }
      ports := { host := { tx := some { i2c := false, addr := 0x113000, held := some 0, next := some .held } } }
      watch := { checkMode := true }
      pwr.drop := some { dom := .ufd }
      pwr.pend := some .idle }
  [1, 6 * 2 ^ 16, 0, Ev.HERD_USR 0].zipIdx.foldl (fun d p => d.putCode 21 p.2 (encodeWord 21 p.2 p.1)) d

def waitingState : State := { dev := waitingDev, pending := [] }

def armingEnd : Dev := ((waitingDev.answer .none).cmdWrite .lc 0x39000004 (6 * 2 ^ 16 + 2 ^ 23) .word).finish

theorem waitingState_exec :
    exec (.taskDescriptorWrite .lc 4 (6 * 2 ^ 16 + 2 ^ 23) .word) waitingState = .next { waitingState with dev := armingEnd } := rfl

theorem armingEnd_halted : armingEnd.Halted :=
  ⟨by decide +kernel, by decide +kernel, by decide +kernel, by decide +kernel, by decide +kernel⟩

theorem armingEnd_waits : armingEnd.pwr.pend ≠ none ∧ armingEnd.watch.checkMode = true := by decide +kernel

/-- The occurrence is still open. -/
theorem armingEnd_open : (armingEnd.task 0).open = true := by decide +kernel

/-- Refutes O21 at a task that is not armed while its occurrence waits: EN = 1 arms it and leaves the occurrence as it is.
`Effects` shows the command's own work only through the follow-up work, which has opened nothing (`Dev.finish_shuts`). -/
theorem not_taskDescriptorWrites : ¬ Obligations.TaskDescriptorWrites := by
  intro h
  obtain ⟨hw, -⟩ := h waitingState .lc 0 (6 * 2 ^ 16 + 2 ^ 23) (by decide +kernel) (by decide +kernel)
  obtain ⟨-, hx⟩ := hw (.inl rfl)
  obtain ⟨e, he, hmay, -⟩ := hx usrDescriptor (by decide) (by decide) (by decide +kernel)
  obtain ⟨-, hshut, -⟩ := hmay ⟨by decide, by decide, by decide, by decide, fun _ => ⟨by decide, by decide, fun _ => by decide⟩⟩
  have hd : armingEnd = e.finish := next_dev (waitingState_exec ▸ he)
  obtain ⟨hp, hm⟩ := armingEnd_waits
  have hopen := e.finish_shuts (hd ▸ armingEnd_halted) (hd ▸ hp) (hd ▸ hm) 0 (hd ▸ armingEnd_open)
  exact absurd (hopen.symm.trans hshut) (by decide)

end Sys2Proof.Machine
end

section
/-! SUPPORT. R108: the result block of a path and its shadow, one for each reader. -/

namespace Sys2Proof.Machine

variable (d : Dev)

/-- The seven words of a result block stand behind its RES_STAT, in order. -/
theorem resultRegs_eq (n : Nat) : resultRegs n = (List.range 7).map fun i => Reg.UFE_TOF_RES_STAT n + 4 + 4 * i := by
  simp [resultRegs, List.range_succ, Reg.UFE_TOF_RES_STAT, Reg.UFE_TOF_RES_TOF_DN, Reg.UFE_TOF_RES_TOF_UP,
    Reg.UFE_TOF_RES_DT, Reg.UFE_TOF_RES_AMP, Reg.UFE_TOF_RES_PEAK, Reg.UFE_TOF_RES_CYC, Reg.UFE_TOF_RES_ANG]
  omega

theorem Dev.regRead_ufeTof (r : Requester) {off : Nat} (h : 0x40 ≤ off) : d.regRead r .ufeTof off = d.readTof r off := by
  simp [Dev.regRead, Dev.pageRead, pairPlace, Nat.not_lt.2 h]

/-- A read within the result blocks. -/
theorem Dev.regRead_result (r : Requester) {n j : Nat} (hn : n < 4) (hj : j < 8) :
    d.regRead r .ufeTof (0x200 + n * 0x40 + j * 4) =
      if j = 0 then d.resRead r n else ((((d.cap r).res[j - 1]?).getD 0).toNat, d) := by
  have hw : ¬ 0x800 ≤ 0x200 + n * 0x40 + j * 4 := by omega
  have hlt : 0x200 + n * 0x40 + j * 4 < 0x300 := by omega
  have hm : (0x200 + n * 0x40 + j * 4) % 0x40 = j * 4 := by omega
  have hq : (0x200 + n * 0x40 + j * 4 - 0x200) / 0x40 = n := by omega
  have h4 : (0x200 + n * 0x40 + j * 4) % 4 = 0 := by omega
  rw [d.regRead_ufeTof r (by omega)]
  unfold Dev.readTof
  rw [if_neg (by simp only [beq_iff_eq]; omega), hm, hq, h4]
  simp [nth, hw, hlt, show 0x200 ≤ 0x200 + n * 0x40 + j * 4 by omega, show j * 4 < 0x20 by omega]

theorem Dev.regRead_resStat (r : Requester) {n : Nat} (hn : n < 4) :
    d.regRead r .ufeTof (0x200 + n * 0x40) = d.resRead r n := d.regRead_result r hn (j := 0) (by decide)

theorem Dev.regRead_resWord (r : Requester) {n i : Nat} {w : Word} (hn : n < 4) (hi : i < 7)
    (hw : (d.cap r).res[i]? = some w) :
    d.regRead r .ufeTof (0x200 + n * 0x40 + (i + 1) * 4) = (w.toNat, d) := by
  rw [d.regRead_result r hn (by omega), if_neg (by omega), Nat.add_sub_cancel, hw]
  rfl

theorem resStat_place (n : Nat) : Reg.UFE_TOF_RES_STAT n = pageBase .ufeTof + (0x200 + n * 0x40) := by
  simp only [Reg.UFE_TOF_RES_STAT, pageBase, Page.num]
  omega

@[simp] theorem Dev.cap_setCap_same (r : Requester) (c : Captures) : (d.setCap r c).cap r = c := by
  simp [Dev.cap, Dev.setCap]

theorem Dev.cap_setCap_ne {q r : Requester} (c : Captures) (h : q.capture ≠ r.capture) : (d.setCap r c).cap q = d.cap q := by
  have hne : (r.capture : Nat) ≠ q.capture := fun e => h (Fin.ext e.symm)
  simp [Dev.cap, Dev.setCap, Vector.getElem_set_ne, hne]

theorem Dev.After.cap {e : Dev} (h : d.After e) (r : Requester) : e.cap r = d.cap r :=
  show e.units.cap r = d.units.cap r by rw [h.units]

/-- The word `i` of a result block in the shadow that a read of its RES_STAT fills. -/
theorem Dev.res_resRead (r : Requester) (n : Nat) {i : Nat} (hi : i < 7) :
    ((d.resRead r n).2.cap r).res[i]? = some (BitVec.ofNat 32 (d.rd (Reg.UFE_TOF_RES_STAT n + 4 + 4 * i))) := by
  simp [Dev.resRead, resultRegs_eq, hi]

/-- Settles O30: RES_STAT's read fills the reader's own shadow, and the words that follow it are read from there. -/
theorem resultShadows : Obligations.ResultShadows := by
  unfold Obligations.ResultShadows
  refine ⟨fun s r n hc ho => ?_, fun s r n i w hc ho hw => ?_, by decide, by decide, by decide, by decide⟩
  · have hr := (s.dev.answer .none).regRead_resStat r n.isLt
    refine yields_read (p := .ufeTof) _ rfl ho (resStat_place n) (by omega) (by omega) (.inr (by decide))
      (by rw [hr]; exact hc) fun e he => ?_
    rw [hr] at he
    refine ⟨fun i hi => ?_, fun q hq => ?_, he.keeps, congrArg (·.ufe) he.units⟩
    · rw [he.cap]
      exact (s.dev.answer .none).res_resRead r n hi
    · rw [he.cap]
      exact (s.dev.answer .none).cap_setCap_ne _ hq
  · have hr := (s.dev.answer .none).regRead_resWord r n.isLt i.isLt hw
    refine yields_read (p := .ufeTof) (0x200 + n * 0x40 + (i + 1) * 4) rfl ho (by rw [resStat_place]; omega) (by omega)
      (by omega) (.inr (by decide)) (by rw [hr]; exact hc) fun e he => ?_
    rw [hr] at he
    exact ⟨he.bus.trans (by simp), he.keeps, he.units⟩

end Sys2Proof.Machine
end

section
/-! SUPPORT. R86–R100, R104: the shots of a pair: the fire edge, the stopping hit, the start edge, the end with its capture. -/

namespace Sys2Proof.Machine

/-! ### The two shots of a pair -/

namespace Pair

variable (p : Pair) (up : Bool)

@[simp] theorem shot_setShot_same (x : Shot) : (p.setShot up x).shot up = x := by cases up <;> rfl

@[simp] theorem shot_setShot_other (x : Shot) : (p.setShot up x).shot (!up) = p.shot (!up) := by cases up <;> rfl

@[simp] theorem setShot_shot : p.setShot up (p.shot up) = p := by cases up <;> rfl

/-- R104: the drive fault that peak current `ipk` shows. -/
def driveOf (ipk : Nat) : Nat :=
  if p.extDrv = true then 0 else if p.shortThr < ipk then 3 else if ipk < p.openThr then 2 else 0

/-- The burst stops early exactly where the driver is internal and past SHORT_THR. -/
theorem driveOf_eq_three (ipk : Nat) : p.driveOf ipk = 3 ↔ p.extDrv = false ∧ p.shortThr < ipk := by
  unfold driveOf
  cases p.extDrv <;> grind

/-- R86, R107: the pair once the shot is fired, at `m`'s mains time. -/
def fire (m : Mae) (ipk : Nat) : Pair :=
  let q := p.setShot up { fired := true, drive := p.driveOf ipk }
  if up then q else { q with cyc := if m.running then m.cyc else 0, ang := if m.running then m.angle else 0 }

@[simp] theorem shot_fire_same (m : Mae) (ipk : Nat) :
    (p.fire up m ipk).shot up = { fired := true, drive := p.driveOf ipk } := by cases up <;> rfl

@[simp] theorem shot_fire_other (m : Mae) (ipk : Nat) : (p.fire up m ipk).shot (!up) = p.shot (!up) := by cases up <;> rfl

theorem fire_time {m : Mae} (h : m.running = true) (ipk : Nat) :
    (p.fire false m ipk).cyc = m.cyc ∧ (p.fire false m ipk).ang = m.angle := by
  simp [fire, h]

end Pair

variable (d : Dev) {p : Pair} {up : Bool}

/-! ### The fire edge (R86, R89, R90, R104, R107) -/

theorem Dev.shotFire_eq (h : d.ufe.pair = some p) (hf : p.nextFire = some up) (ipk past : Nat) :
    d.shotFire ipk past =
      let e : Dev := { d with
        ufe.pair := some (p.fire up d.mae ipk)
        ufe.burst := some (p.burst up (if p.driveOf ipk == 3 then some past else none)) }
      if p.extDrv then e else e.setF (ipkField p.path (p.byB up)) ipk := by
  unfold Dev.shotFire
  rw [h]
  dsimp only
  rw [hf]
  cases up <;> rfl

@[simp] theorem ipkField_reg (n : Nat) (b : Bool) : (ipkField n b).reg = Reg.UFE_DRV_IPK n := by cases b <;> rfl

theorem ipkField_width (n : Nat) (b : Bool) : (ipkField n b).width = 8 := by cases b <;> rfl

theorem ipkField_fits (n : Nat) (b : Bool) : (ipkField n b).lo + (ipkField n b).width ≤ 32 := by
  cases b <;> simp [ipkField, Fld.UFE_DRV_IPK_IPK_A, Fld.UFE_DRV_IPK_IPK_B]

section

variable (h : d.ufe.pair = some p) (hf : p.nextFire = some up)
include h hf

theorem Dev.shotFire_pair (ipk past : Nat) : (d.shotFire ipk past).ufe.pair = some (p.fire up d.mae ipk) := by
  rw [d.shotFire_eq h hf]
  cases he : p.extDrv <;> simp

theorem Dev.shotFire_burst (ipk past : Nat) :
    (d.shotFire ipk past).ufe.burst = some (p.burst up (if p.driveOf ipk == 3 then some past else none)) := by
  rw [d.shotFire_eq h hf]
  cases he : p.extDrv <;> simp

theorem Dev.shotFire_edges (ipk past : Nat) : (d.shotFire ipk past).edges = d.edges := by
  rw [d.shotFire_eq h hf]
  cases he : p.extDrv <;> simp

theorem Dev.shotFire_ipk (he : p.extDrv = false) (ipk : Byte) (past : Nat) :
    (d.shotFire ipk.toNat past).f (ipkField p.path (p.byB up)) = ipk.toNat := by
  rw [d.shotFire_eq h hf]
  simp only [he, Bool.false_eq_true, if_false]
  rw [Dev.f_setF_same _ _ _ (ipkField_fits _ _), ipkField_width, Nat.mod_eq_of_lt ipk.isLt]

theorem Dev.shotFire_rd (ipk past : Nat) {a : Nat} (ha : a ≠ Reg.UFE_DRV_IPK p.path) :
    (d.shotFire ipk past).rd a = d.rd a := by
  rw [d.shotFire_eq h hf]
  cases he : p.extDrv
  · exact Dev.rd_setF_ne _ _ _ (by simpa using ha)
  · rfl

end

/-- R89, R104: the end of the burst. -/
theorem Pair.burst_stop (p : Pair) (up : Bool) (ipk past : Nat) :
    (p.burst up (if p.driveOf ipk == 3 then some past else none)).stop =
      if p.extDrv = false ∧ p.shortThr < ipk
      then min (2 * p.halfPer * p.nPer) ((past / p.halfPer + 1) * p.halfPer) else 2 * p.halfPer * p.nPer := by
  by_cases hs : p.driveOf ipk = 3
  · rw [if_pos (p.driveOf_eq_three ipk |>.1 hs), hs]
    rfl
  · rw [if_neg (hs ∘ (p.driveOf_eq_three ipk).2), if_neg (by simpa using hs)]
    rfl

/-! ### The shot in flight and its end (R86, R91, R93, R95, R97, R98, R100) -/

@[simp] theorem Dev.shotAt_regs (t : Nat) : (d.shotAt p t).regs = d.regs := rfl
@[simp] theorem Dev.shotAt_edges (t : Nat) : (d.shotAt p t).edges = d.edges := rfl
@[simp] theorem Dev.shotAt_pair (t : Nat) : (d.shotAt p t).ufe.pair = d.ufe.pair := rfl
@[simp] theorem Dev.shotAt_open (t : Nat) :
    (d.shotAt p t).ufe.open_ = (decide (p.rstRel ≤ t / 8192) && decide (t / 8192 < p.shotEnd)) := rfl

/-- What an edge at `t` ticks leaves where it makes `x` of the shot in flight: that shot, the reset switch of that time, no
register written and no event raised. -/
def Dev.Meets (d e : Dev) (p : Pair) (up : Bool) (t : Nat) (x : Shot) : Prop :=
  e.ufe.pair = some (p.setShot up x) ∧ e.ufe.open_ = (decide (p.rstRel ≤ t / 8192) && decide (t / 8192 < p.shotEnd))
    ∧ e.regs = d.regs ∧ e.edges = d.edges

section

variable (h : d.ufe.pair = some p) (hf : p.flying = some up)
include h hf

theorem Dev.firstHit_meets (t : Nat) (mv : Int) : d.Meets (d.firstHit t mv) p up t { p.shot up with
    hit := if p.crosses mv = true ∧ (p.shot up).hit = none ∧ p.minTof ≤ t / 8192 ∧ t / 8192 ≤ p.winEnd
        ∧ p.masked (t / 8192) = false then some t else (p.shot up).hit } := by
  unfold Dev.firstHit
  simp only [h, hf]
  split <;> rename_i hc <;>
    simp only [Bool.and_eq_true, Option.isNone_iff_eq_none, decide_eq_true_eq, Bool.not_eq_true', and_assoc] at hc
  · rw [if_pos hc]
    exact ⟨rfl, rfl, rfl, rfl⟩
  · rw [if_neg hc]
    exact ⟨h.trans (congrArg some (p.setShot_shot up).symm), rfl, rfl, rfl⟩

theorem Dev.xstart_meets (t : Nat) : d.Meets (d.xstart t) p up t { p.shot up with
    start := if p.extStart = true ∧ (p.shot up).start = none ∧ t < (p.winEnd + 1) * 8192 then some t
      else (p.shot up).start } := by
  unfold Dev.xstart
  simp only [h, hf]
  split <;> rename_i hc <;>
    simp only [Bool.and_eq_true, Option.isNone_iff_eq_none, decide_eq_true_eq, and_assoc] at hc
  · rw [if_pos hc]
    exact ⟨rfl, rfl, rfl, rfl⟩
  · rw [if_neg hc]
    exact ⟨h.trans (congrArg some (p.setShot_shot up).symm), rfl, rfl, rfl⟩

theorem Dev.shotEnd_eq (xs : List (BitVec 12)) :
    let c := p.capture xs
    let clip := c.any fun x => x == -2048 || x == 2047
    let q := p.setShot up { p.shot up with ended := true, capt := c, clip := clip }
    d.shotEnd xs = ({ d with ufe.pair := some q }.ufeArm q true).raiseIf clip Ev.UFE_RX_CLIP := by
  unfold Dev.shotEnd
  simp only [h, hf]

end

@[simp] theorem Pair.capture_length (p : Pair) (xs : List (BitVec 12)) : (p.capture xs).length = p.capLen := by
  simp [Pair.capture]

/-- A sample of a capture that ends within sample 4,095. -/
theorem Pair.capture_getElem {p : Pair} {xs : List (BitVec 12)} (hc : p.capStart + p.capLen ≤ 4096) {i : Nat}
    {x : BitVec 12} (hi : i < p.capLen) (hx : xs[i]? = some x) :
    (p.capture xs)[i]? = some (if p.masked (p.capStart + i) = true then 0 else x.toInt) := by
  have hk : ¬ 4095 < p.capStart + i := by omega
  simp [Pair.capture, hi, hx, hk]

/-- Settles O27: each of the four commands changes the shot in flight (or the next to be fired) as the rules say. -/
theorem shotProgress : Obligations.ShotProgress := by
  unfold Obligations.ShotProgress
  refine ⟨fun s t ipk past p up hp hf _ => ?_, fun s t mv p up hp hf => ⟨?_, ?_⟩, fun s xs p up hp hf _ hcap => ?_⟩
  · refine effects_run (f := fun d => (d.pass t).shotFire ipk.toNat past) rfl ?_
    dsimp only
    generalize (s.dev.answer .none).pass t = b at hp
    refine ⟨_, b.shotFire_pair hp hf _ _, ?_⟩
    rw [Pair.shot_fire_same, Pair.shot_fire_other]
    refine ⟨rfl, rfl, rfl, rfl, rfl, rfl, ?_, fun he => b.shotFire_ipk hp hf he ipk past,
      ⟨_, b.shotFire_burst hp hf _ _, rfl, rfl, rfl, p.burst_stop up _ past⟩, fun a => b.shotFire_rd hp hf _ _,
      b.shotFire_edges hp hf _ _⟩
    rintro rfl hr
    exact p.fire_time hr _
  · exact effects_run (f := fun d => d.firstHit t mv) rfl ((s.dev.answer .none).firstHit_meets hp hf t mv)
  · refine effects_run (f := fun d => d.xstart t) rfl ?_
    obtain ⟨hpair, -, hregs, hedges⟩ := (s.dev.answer .none).xstart_meets hp hf t
    exact ⟨hpair, hregs, hedges⟩
  · refine effects_run (f := fun d => d.shotEnd xs) rfl ?_
    rw [(s.dev.answer .none).shotEnd_eq hp hf]
    refine ⟨_, by rw [Dev.raiseIf_ufe]; rfl, ?_⟩
    rw [Pair.shot_setShot_same, Pair.shot_setShot_other]
    refine ⟨rfl, rfl, rfl, by rw [Dev.raiseIf_ufe]; rfl, by rw [Dev.raiseIf_ufe]; rfl, p.capture_length xs,
      fun i x hi hx => Pair.capture_getElem hcap hi hx, ?_, by rw [Dev.raiseIf_regs]; rfl⟩
    cases (p.capture xs).any fun x => x == -2048 || x == 2047 <;> simp [Dev.raiseIf, Dev.ufeArm]

end Sys2Proof.Machine
end

section
/-! SUPPORT. R87, R94, R105, R107, R111, R185: what follows the result block of a pair in the same clock (the store, the path's
state, the gain, FLOW, a write of PATH_GAIN) leaves the page UFE_TOF and the unit as they are and loses no event. -/

namespace Sys2Proof.Machine

/-- The registers of the page UFE_TOF. -/
def isTofReg (a : Nat) : Bool := 0x40013000 ≤ a && a < 0x40014000

theorem notTof_of_lt {a : Nat} (h : a < 0x40013000) : isTofReg a = false := by simp [isTofReg, Nat.not_le.2 h]

theorem notTof_of_le {a : Nat} (h : 0x40014000 ≤ a) : isTofReg a = false := by simp [isTofReg, Nat.not_lt.2 h]

/-- From `d` to `e` no register of UFE_TOF has changed, nor the pair in flight, and no event is lost. -/
structure Dev.Passes (d e : Dev) : Prop where
  rd : ∀ a, isTofReg a = true → e.rd a = d.rd a
  pair : e.ufe.pair = d.ufe.pair
  grows : d.Grows e

namespace Dev.Passes

variable {d e g : Dev}

theorem of_regs (hr : e.regs = d.regs) (hp : e.ufe.pair = d.ufe.pair) (he : e.edges = d.edges) : d.Passes e :=
  ⟨fun a _ => Dev.rd_of_regs hr a, hp, .of_eq he⟩

theorem refl (d : Dev) : d.Passes d := of_regs rfl rfl rfl

theorem trans (h : d.Passes e) (k : e.Passes g) : d.Passes g :=
  ⟨fun a ha => (k.rd a ha).trans (h.rd a ha), k.pair.trans h.pair, h.grows.trans k.grows⟩

theorem wr (a v : Nat) (h : isTofReg a = false) : d.Passes (d.wr a v) :=
  ⟨fun _ hb => Dev.rd_wr_ne d v (by rintro rfl; simp [h] at hb), rfl, .of_eq rfl⟩

theorem setF (f : Field) (v : Nat) (h : isTofReg f.reg = false) : d.Passes (d.setF f v) := wr _ _ h

theorem raise (n : Nat) : d.Passes (d.raise n) := ⟨fun _ _ => rfl, rfl, .raise n⟩

theorem raiseIf (c : Bool) (n : Nat) : d.Passes (d.raiseIf c n) := by cases c; exacts [refl d, raise n]

theorem raiseIfs {b c : Bool} {m n : Nat} : d.Passes ((d.raiseIf b m).raiseIf c n) := (raiseIf b m).trans (raiseIf c n)

theorem fresh (d : Dev) : d.Passes d.fresh.2 := of_regs rfl rfl rfl

theorem flow (f : Flow) : d.Passes { d with flow := f } := of_regs rfl rfl rfl

theorem wave (w : Option Wave) : d.Passes { d with ufe.wave := w } := of_regs rfl rfl rfl

theorem answer (b : BusResp) : d.Passes (d.answer b) := of_regs rfl rfl rfl

theorem foldl {α : Type} (l : List α) (op : Dev → α → Dev) (h : ∀ x (d : Dev), d.Passes (op d x)) :
    ∀ d : Dev, d.Passes (l.foldl op d) := by
  induction l with
  | nil => exact refl
  | cons x t ih => exact fun d => (h x d).trans (ih _)

/-- A step that is taken or not. -/
theorem ite {c : Prop} [Decidable c] {e g : Dev} (he : d.Passes e) (hg : d.Passes g) : d.Passes (if c then e else g) := by
  split
  · exact he
  · exact hg

end Dev.Passes

variable (d : Dev)

/-! ### The store (R185) -/

theorem bankOwner_notTof : ∀ b < 16, isTofReg (Reg.MEMCTL_BANK_OWN b) = false := by decide

theorem Dev.drained_passes (g b : Nat) : d.Passes (d.drained g b) := by
  unfold Dev.drained Dev.handoverDone
  split
  · rename_i h
    simp only [Bool.and_eq_true, decide_eq_true_eq] at h
    exact .ite (.trans (.setF (Fld.MEMCTL_BANK_OWN_IN_TRANSIT b) _ (bankOwner_notTof b h.1)) (.raise _)) (.refl d)
  · exact .refl d

theorem Dev.memWrite_passes (g b w x : Nat) : d.Passes (d.memWrite g b w x).2 := by
  unfold Dev.memWrite
  split
  · exact .of_regs rfl rfl rfl
  · exact .trans (.trans (.wr _ _ (by decide)) (.wr _ _ (by decide))) (.raise _)

theorem Dev.storeWord_passes (x : Nat) : d.Passes (d.storeWord 0 x) := by
  unfold Dev.storeWord
  dsimp only
  split
  · have hw : d.Passes (if d.domOn (bankDom (d.f (Fld.MEMCTL_STORE_CFG_BANK 0))) then
        (d.drained (storeGroup 0) (d.f (Fld.MEMCTL_STORE_CFG_BANK 0))).memWrite (storeGroup 0)
          (d.f (Fld.MEMCTL_STORE_CFG_BANK 0)) (d.f (Fld.MEMCTL_STORE_PTR_PTR 0)) x else (false, d)).2 := by
      split
      · exact (d.drained_passes _ _).trans (Dev.memWrite_passes _ _ _ _ _)
      · exact .refl d
    split <;> rename_i he <;> rw [he] at hw
    · exact hw.trans (.trans (.setF _ _ (by decide)) (.raise _))
    · exact .ite (hw.trans (.setF _ _ (by decide))) (.ite (hw.trans (.setF _ _ (by decide)))
        ((hw.trans (.setF _ _ (by decide))).trans (.trans (.setF _ _ (by decide)) (.raise _))))
  · exact .refl d

theorem Dev.storeWords_passes (xs : List Nat) : d.Passes (d.storeWords 0 xs) :=
  .foldl xs _ (fun x e => e.storeWord_passes x) d

/-! ### The path's state and the gain (R94, R105) -/

theorem pathStat_notTof : ∀ n < 4, isTofReg (Reg.UFE_DRV_PATH_STAT n) = false := by decide

theorem pathGain_notTof : ∀ n < 4, isTofReg (Reg.UFE_RX_PATH_GAIN n) = false := by decide

theorem Dev.shotStat_passes {p : Pair} (h : p.path < 4) (up : Bool) : d.Passes (d.shotStat p up) := by
  have hs := pathStat_notTof p.path h
  unfold Dev.shotStat
  extract_lets s n run short was g e
  have hrun : isTofReg run.reg = false := by unfold run; split <;> exact hs
  have he : d.Passes e := .trans (.trans (.setF run _ hrun) (.setF (Fld.UFE_DRV_PATH_STAT_FAULT_CNT n) _ hs)) (.raise _)
  exact .ite (.refl d) (.ite (.setF run _ hrun)
    (.ite (he.trans (.trans (.setF (Fld.UFE_DRV_PATH_STAT_STATE n) _ hs) (.raise _))) he))

theorem Dev.pathStat_passes {p : Pair} (h : p.path < 4) (aborted : Bool) : d.Passes (d.pathStat p aborted) := by
  have hs := pathStat_notTof p.path h
  unfold Dev.pathStat
  extract_lets n e bad g e'
  have he : d.Passes e := (d.shotStat_passes h false).trans (Dev.shotStat_passes _ h true)
  have hg : ∀ v, d.Passes (e.setF (Fld.UFE_DRV_PATH_STAT_GOOD_RUN n) v) := fun v => he.trans (.setF _ _ hs)
  exact .ite (.ite (hg _) (.ite he
    (.ite ((hg _).trans (.trans (.setF (Fld.UFE_DRV_PATH_STAT_STATE n) _ hs) (.raise _))) (hg _)))) (.refl d)

theorem Dev.agc_passes {n : Nat} (h : n < 4) (amp : Nat) (keep : Bool) : d.Passes (d.agc n amp keep) := by
  have hs : ∀ v, d.Passes (if keep then d else (d.setF (Fld.UFE_RX_PATH_GAIN_GAIN n) v).raise Ev.UFE_RX_GAIN_CHG) :=
    fun v => .ite (.refl d) (.trans (.setF _ _ (pathGain_notTof n h)) (.raise _))
  unfold Dev.agc
  dsimp only
  exact .ite (.refl d) (.ite (.ite (.raise _) (hs _)) (.ite (.ite (.raise _) (hs _)) (.refl d)))

/-! ### FLOW (R111–R121) -/

theorem flowStat_notTof (n : Nat) : isTofReg (Reg.FLOW_FLOW_STAT n) = false :=
  notTof_of_le (by unfold Reg.FLOW_FLOW_STAT; omega)

theorem Dev.touchPath_passes (n : Nat) : d.Passes (d.touchPath n) := by
  unfold Dev.touchPath forUpto
  refine .foldl _ _ (fun k e => ?_) d
  exact .ite (.of_regs rfl rfl rfl) (.refl e)

theorem Dev.setCauses_passes (n m : Nat) : d.Passes (d.setCauses n m) := by
  have hf : d.Passes (((d.setFlowPath n { d.flowPath n with causes := m }).setB (Fld.FLOW_FLOW_STAT_UNKNOWN n) (m != 0)).setF
      (Fld.FLOW_FLOW_STAT_CAUSE n) (causeOf m)) :=
    .trans (.trans (.flow _) (.setF (Fld.FLOW_FLOW_STAT_UNKNOWN n) _ (flowStat_notTof n)))
      (.setF (Fld.FLOW_FLOW_STAT_CAUSE n) _ (flowStat_notTof n))
  have ht := fun v => (hf.trans (.raise v)).trans (Dev.touchPath_passes _ n)
  unfold Dev.setCauses
  dsimp only
  exact .ite hf (.ite (ht _) ((ht _).trans (.flow _)))

theorem Dev.emptyTest_passes (n amp : Nat) : d.Passes (d.emptyTest n amp) := by
  have hs : ∀ (e : Dev) (v : Nat), e.Passes (e.setF (Fld.FLOW_FLOW_STAT_EMPTY n) v) := fun e v => .setF _ _ (flowStat_notTof n)
  unfold Dev.emptyTest
  dsimp only
  exact .trans (.trans (.flow _) (.ite (.trans (.trans (hs _ _) (.raise _)) (Dev.touchPath_passes _ n))
    (.ite (.trans (.trans (hs _ _) (.raise _)) (Dev.touchPath_passes _ n)) (.refl _))))
    (.setF (Fld.FLOW_FLOW_STAT_EMPTY_RUN n) _ (flowStat_notTof n))

theorem Dev.staleArrival_passes (n : Nat) : d.Passes (d.staleArrival n) :=
  .ite (.trans (.flow _) (.trans (.setF (Fld.FLOW_FLOW_STAT_AT_LIMIT n) _ (flowStat_notTof n)) (.raise _))) (.flow _)

theorem Dev.wrS_passes {a : Nat} (h : isTofReg a = false) (w : Nat) (v : Int) : d.Passes (d.wrS a w v) := by
  refine .trans ?_ (.wr _ _ h)
  unfold Dev.fitS
  split
  · exact .refl d
  · exact .fresh d

theorem Dev.fitU_passes (w v : Nat) : d.Passes (d.fitU w v).2 := by
  unfold Dev.fitU
  split
  · exact .refl d
  · exact .fresh d

theorem Dev.setCool_passes (n c : Nat) : d.Passes (d.setCool n c) := by
  have hc : isTofReg (Reg.FLOW_COOL_T n) = false := notTof_of_le (by unfold Reg.FLOW_COOL_T; omega)
  have hs : ∀ (e : Dev) (v : Nat), e.Passes (e.setF (Fld.FLOW_FLOW_STAT_COOL_OOR n) v) := fun e v => .setF _ _ (flowStat_notTof n)
  have hw := (Dev.Passes.wr (d := d) _ 0x8000 hc).trans (hs _ 1)
  unfold Dev.setCool
  dsimp only
  split
  · exact .trans (.ite hw (hw.trans (Dev.touchPath_passes _ n))) (.raise _)
  · exact .trans (.ite ((hs _ _).trans (Dev.touchPath_passes _ n)) (hs _ _)) (Dev.wrS_passes _ hc _ _)

theorem Dev.addVolume_passes (n clks : Nat) (q : Int × Nat) : d.Passes (d.addVolume n clks q) :=
  .trans (.trans (.flow _) (.wr _ _ (notTof_of_le (by unfold Reg.FLOW_VOL_LO; omega))))
    (.wr _ _ (notTof_of_le (by unfold Reg.FLOW_VOL_HI; omega)))

theorem Dev.flowCompute_passes (r : PairResult) (known unknownNow : Bool) : d.Passes (d.flowCompute r known unknownNow) := by
  unfold Dev.flowCompute
  dsimp only
  refine .trans (.trans ?_ (.ite (.refl _) (.wr _ _ (notTof_of_le (by unfold Reg.FLOW_FLOW; omega)))))
    (.trans (.trans (Dev.fitU_passes _ _ _) (.wr _ _ (notTof_of_le (by unfold Reg.FLOW_SOS; omega)))) (Dev.setCool_passes _ _ _))
  split
  · exact d.addVolume_passes _ _ _
  · exact .refl d

theorem Dev.flowResult_passes (r : PairResult) : d.Passes (d.flowResult r) := by
  unfold Dev.flowResult
  split
  · extract_lets n p ok counted bad e₁ e₂ inv e₃ e₄ valid cfg path invalid stale m src e₅ e₆ src' e₇
    have h₁ : d.Passes e₁ := .trans (.setF (Fld.FLOW_FLOW_STAT_SEQ n) _ (flowStat_notTof n))
      (.wr _ _ (notTof_of_le (by unfold Reg.FLOW_RES_CYC; omega)))
    have h₂ : d.Passes e₂ := .ite (h₁.trans (Dev.staleArrival_passes _ _)) h₁
    have h₃ : d.Passes e₃ := h₂.trans (.setF (Fld.FLOW_FLOW_STAT_INV_RUN n) _ (flowStat_notTof n))
    have h₄ : d.Passes e₄ := .ite (h₃.trans (Dev.emptyTest_passes _ _ _)) h₃
    have h₅ : d.Passes e₅ := .ite (h₄.trans (.flow _)) h₄
    have h₆ : d.Passes e₆ := .ite (h₅.trans (Dev.flowCompute_passes _ _ _ _)) h₅
    exact (h₆.trans (.flow _)).trans (Dev.setCauses_passes _ _ _)
  · exact .refl d

/-! ### A write of PATH_GAIN in the same clock (R94) -/

theorem Dev.violation_passes (r : Requester) (kind addr : Nat) (write : Bool) : d.Passes (d.violation r kind addr write) :=
  .ite (.trans (.trans (.trans (.wr _ _ (by decide)) (.wr _ _ (by decide))) (.wr _ _ (by decide))) (.raise _)) (.refl d)

theorem Dev.reachGate_passes (r : Requester) (t : Target) (a : Nat) (write : Bool) : d.Passes (d.reachGate r t a write).2 := by
  unfold Dev.reachGate
  split
  · exact .refl d
  · split
    · exact .refl d
    · exact d.violation_passes _ _ _ _
    · exact .refl d

theorem Dev.pageAccessWrite_ufeRx_passes (r : Requester) {off : Nat} (h4 : 0x40 ≤ off) (h : off < 0x1000) (a v : Nat) (size : Size) :
    d.Passes (d.pageAccessWrite r .ufeRx off a v size).2 := by
  have hw : ∀ e : Dev, e.Passes (e.regWrite r .ufeRx off v) := fun e => by
    unfold Dev.regWrite
    rw [if_neg (Nat.not_lt.2 h4)]
    exact .wr _ _ (notTof_of_lt (by simp only [pageBase, Page.num]; omega))
  unfold Dev.pageAccessWrite
  split
  · exact .refl d
  · split
    · exact d.violation_passes _ _ _ _
    · exact .trans (.ite (d.violation_passes _ _ _ _) (.refl d)) (hw _)

theorem Dev.pathGainWrite_passes (r : Requester) {n : Nat} (h : n < 4) (v : Nat) :
    d.Passes (d.cmdWrite r (Reg.UFE_RX_PATH_GAIN n) v .word) := by
  have ha : Reg.UFE_RX_PATH_GAIN n = pageBase .ufeRx + (0x40 + n * 4) := by
    simp only [Reg.UFE_RX_PATH_GAIN, pageBase, Page.num]; omega
  have hg := d.reachGate_passes r (.reg .ufeRx (0x40 + n * 4)) (pageBase .ufeRx + (0x40 + n * 4)) true
  unfold Dev.cmdWrite Dev.busWrite
  rw [ha, if_pos (aligned_page .ufeRx _ (by omega)), decodeAddr_page .ufeRx _ (by omega)]
  refine .trans ?_ (.answer _)
  dsimp only
  split <;> rename_i he <;> rw [he] at hg
  · exact hg
  · exact hg
  · exact hg.trans (Dev.pageAccessWrite_ufeRx_passes _ r (by omega) (by omega) _ _ _)

end Sys2Proof.Machine
end

section
/-! SUPPORT. R86, R87, R96–R101, R107: the result block that a pair's two shots make. -/

namespace Sys2Proof.Machine

/-! ### The codes (R96, R98, R99, R101) -/

/-- R99: the code of a shot and its time of flight as the result shows them; a path not in use shows 0. -/
def Pair.outcome (p : Pair) (x : Shot) : Nat × Nat := if p.en then p.code x else (0, 0)

theorem Pair.code_lt (p : Pair) {x : Shot} (hd : x.drive ∈ [0, 2, 3]) (hh : ∀ t, x.hit = some t → t < 2 ^ 32) :
    (p.code x).1 < 16 ∧ (p.code x).2 < 2 ^ 32 := by
  have hd' : x.drive < 16 := by
    simp only [List.mem_cons, List.not_mem_nil, or_false] at hd
    omega
  unfold Pair.code
  split
  · decide
  · split
    · exact ⟨hd', Nat.two_pow_pos 32⟩
    · split
      · decide
      · decide
      · rename_i a b _ _ hb
        have := hh b hb
        split
        · decide
        · split
          · decide
          · exact ⟨Nat.zero_lt_succ _, by simp only; omega⟩
      · rename_i b _ hb
        exact ⟨Nat.zero_lt_succ _, hh b hb⟩

theorem Pair.outcome_lt (p : Pair) {x : Shot} (hd : x.drive ∈ [0, 2, 3]) (hh : ∀ t, x.hit = some t → t < 2 ^ 32) :
    (p.outcome x).1 < 16 ∧ (p.outcome x).2 < 2 ^ 32 := by
  unfold Pair.outcome
  split
  · exact p.code_lt hd hh
  · decide

/-- R101: the pair code. -/
def Dev.pairCode (d : Dev) (p : Pair) : Nat := (d.correlate p (p.outcome p.dn).1 (p.outcome p.up).1 false).1.1

variable (d : Dev) (p : Pair)

theorem Dev.pairCode_disabled (h : p.en = false) : d.pairCode p = 4 := by
  simp [Dev.pairCode, Dev.correlate, h]

theorem Dev.pairCode_bad (h : p.en = true) (hc : (p.outcome p.dn).1 ≠ 0 ∨ (p.outcome p.up).1 ≠ 0) :
    d.pairCode p = 1 := by
  simp [Dev.pairCode, Dev.correlate, h, hc]

/-- R101: LAG_EDGE exactly at LAG_MAX; else LOWCORR or OK. -/
theorem Dev.pairCode_good (h : p.en = true) (hx : (p.outcome p.dn).1 = 0) (hy : (p.outcome p.up).1 = 0) :
    d.pairCode p ∈ [0, 2, 3] ∧ (d.pairCode p = 3 ↔ (bestLag p.dn.capt p.up.capt p.lagMax).1.natAbs = p.lagMax) := by
  unfold Dev.pairCode Dev.correlate
  simp only [h, hx, hy, Bool.false_eq_true, Bool.not_true, if_false, bne_self_eq_false, Bool.or_self]
  by_cases hl : (bestLag p.dn.capt p.up.capt p.lagMax).1.natAbs = p.lagMax
  · simp [hl]
  · simp only [hl, if_false, iff_false]
    split <;> split
    · simp
    · split <;> simp
    · simp
    · split <;> simp

theorem Dev.pairCode_lt : d.pairCode p < 8 := by
  by_cases he : p.en = true
  · by_cases hx : (p.outcome p.dn).1 ≠ 0 ∨ (p.outcome p.up).1 ≠ 0
    · rw [d.pairCode_bad p he hx]
      decide
    · push Not at hx
      have := (d.pairCode_good p he hx.1 hx.2).1
      simp only [List.mem_cons, List.not_mem_nil, or_false] at this
      omega
  · rw [d.pairCode_disabled p (by simpa using he)]
    decide

/-! ### The status word (R107) -/

/-- RES_STAT of a pair: `st` as it stood, `a` and `b` the codes of the shots, `pc` the pair code. -/
def Pair.statWord (p : Pair) (st a b pc : Nat) (masked : Bool) : Nat :=
  (bits st 0 8 + 1) % 256 + a * 2 ^ 8 + b * 2 ^ 12 + pc * 2 ^ 16 + 2 ^ 19 + b2n (bit st 19 || bit st 20) * 2 ^ 20
    + b2n (p.shotAtLimit p.dn) * 2 ^ 21 + b2n (p.shotAtLimit p.up) * 2 ^ 22 + b2n p.dn.clip * 2 ^ 23
    + b2n p.up.clip * 2 ^ 24 + b2n masked * 2 ^ 25 + b2n p.late * 2 ^ 26 + b2n p.deferred * 2 ^ 27
    + b2n p.atLimit * 2 ^ 28 + p.src * 2 ^ 29

theorem b2n_lt (b : Bool) : b2n b < 2 := by cases b <;> decide

theorem Pair.statWord_fields {st a b pc : Nat} (masked : Bool) (ha : a < 16) (hb : b < 16) (hpc : pc < 8) (hs : p.src < 4) :
    let w := p.statWord st a b pc masked
    w < 2 ^ 32 ∧ bits w 0 8 = (bits st 0 8 + 1) % 256 ∧ bits w 8 4 = a ∧ bits w 12 4 = b ∧ bits w 16 3 = pc
      ∧ bits w 19 1 = 1 ∧ bits w 20 1 = b2n (bit st 19 || bit st 20) ∧ bits w 26 1 = b2n p.late
      ∧ bits w 27 1 = b2n p.deferred ∧ bits w 28 1 = b2n p.atLimit ∧ bits w 29 2 = p.src := by
  have h1 := b2n_lt (bit st 19 || bit st 20)
  have h2 := b2n_lt (p.shotAtLimit p.dn)
  have h3 := b2n_lt (p.shotAtLimit p.up)
  have h4 := b2n_lt p.dn.clip
  have h5 := b2n_lt p.up.clip
  have h6 := b2n_lt masked
  have h7 := b2n_lt p.late
  have h8 := b2n_lt p.deferred
  have h9 := b2n_lt p.atLimit
  have h0 : (bits st 0 8 + 1) % 256 < 256 := Nat.mod_lt _ (by decide)
  intro w
  unfold w Pair.statWord
  generalize (bits st 0 8 + 1) % 256 = q at h0 ⊢
  generalize b2n (bit st 19 || bit st 20) = o at h1 ⊢
  unfold bits
  refine ⟨?_, ?_, ?_, ?_, ?_, ?_, ?_, ?_, ?_, ?_, ?_⟩ <;> omega

/-! ### The block (R107) -/

/-- `e` shows, over the block that stood in `b`, the result of pair `p` with pair code `pc`; no pair is in flight. -/
structure Dev.Shows (b e : Dev) (p : Pair) (pc : Nat) : Prop where
  stat : ∃ masked, e.rd (Reg.UFE_TOF_RES_STAT p.path) =
    p.statWord (b.rd (Reg.UFE_TOF_RES_STAT p.path)) (p.outcome p.dn).1 (p.outcome p.up).1 pc masked % 2 ^ 32
  tofDn : e.rd (Reg.UFE_TOF_RES_TOF_DN p.path) = (p.outcome p.dn).2 % 2 ^ 32
  tofUp : e.rd (Reg.UFE_TOF_RES_TOF_UP p.path) = (p.outcome p.up).2 % 2 ^ 32
  ang : ∃ t < 65536, e.rd (Reg.UFE_TOF_RES_ANG p.path) = (t + p.task * 2 ^ 16) % 2 ^ 32
  idle : e.ufe.pair = none
  done : Ev.UFE_TOF_PAIR_DONE ∈ e.edges
  ovr : bit (b.rd (Reg.UFE_TOF_RES_STAT p.path)) 19 = true → Ev.UFE_TOF_RES_OVR ∈ e.edges

theorem resultBlock_isTof : ∀ n < 4, isTofReg (Reg.UFE_TOF_RES_STAT n) = true ∧ isTofReg (Reg.UFE_TOF_RES_TOF_DN n) = true
    ∧ isTofReg (Reg.UFE_TOF_RES_TOF_UP n) = true ∧ isTofReg (Reg.UFE_TOF_RES_ANG n) = true := by decide

theorem Dev.correlate_passes (a b : Nat) (abort : Bool) : d.Passes (d.correlate p a b abort).2 := by
  unfold Dev.correlate
  split
  · exact .refl d
  · split
    · exact .refl d
    · split
      · exact .refl d
      · extract_lets x y c
        split
        rename_i peak e he
        have hp : d.Passes e := by
          split at he <;> cases he
          · exact .refl d
          · exact .fresh d
        split
        · exact hp
        · split
          · exact hp
          · split
            · exact hp
            · exact hp.trans (.fresh e)

theorem Dev.pairStamp_passes : d.Passes (d.pairStamp p).2 := by
  unfold Dev.pairStamp
  split
  · exact .refl d
  · exact .of_regs rfl rfl rfl

theorem Dev.pairStamp_lt (h : p.ang < 65536) : (d.pairStamp p).1.2 < 65536 := by
  unfold Dev.pairStamp
  split
  · exact h
  · exact Nat.mod_lt _ (by decide)

/-- The registers of the block once it is written. -/
theorem Dev.rd_block (n st dn up dt amp peak cyc ang : Nat) :
    let e := (d.wr (Reg.UFE_TOF_RES_STAT n) st).wrs [
      (Reg.UFE_TOF_RES_TOF_DN n, dn), (Reg.UFE_TOF_RES_TOF_UP n, up), (Reg.UFE_TOF_RES_DT n, dt),
      (Reg.UFE_TOF_RES_AMP n, amp), (Reg.UFE_TOF_RES_PEAK n, peak), (Reg.UFE_TOF_RES_CYC n, cyc),
      (Reg.UFE_TOF_RES_ANG n, ang)]
    e.rd (Reg.UFE_TOF_RES_STAT n) = st % 2 ^ 32 ∧ e.rd (Reg.UFE_TOF_RES_TOF_DN n) = dn % 2 ^ 32
      ∧ e.rd (Reg.UFE_TOF_RES_TOF_UP n) = up % 2 ^ 32 ∧ e.rd (Reg.UFE_TOF_RES_ANG n) = ang % 2 ^ 32
      ∧ e.ufe = d.ufe := by
  simp [Dev.wrs, Dev.rd_wr, Reg.UFE_TOF_RES_STAT, Reg.UFE_TOF_RES_TOF_DN, Reg.UFE_TOF_RES_TOF_UP, Reg.UFE_TOF_RES_DT,
    Reg.UFE_TOF_RES_AMP, Reg.UFE_TOF_RES_PEAK, Reg.UFE_TOF_RES_CYC, Reg.UFE_TOF_RES_ANG]

theorem Dev.Shows.passes {b e g : Dev} {p : Pair} {pc : Nat} (hn : p.path < 4) (h : b.Shows e p pc)
    (k : e.Passes g) : b.Shows g p pc := by
  obtain ⟨hs, hd, hu, ha⟩ := resultBlock_isTof p.path hn
  obtain ⟨m, hm⟩ := h.stat
  obtain ⟨t, ht, he⟩ := h.ang
  exact ⟨⟨m, (k.rd _ hs).trans hm⟩, (k.rd _ hd).trans h.tofDn, (k.rd _ hu).trans h.tofUp, ⟨t, ht, (k.rd _ ha).trans he⟩,
    k.pair.trans h.idle, k.grows _ h.done, fun ho => k.grows _ (h.ovr ho)⟩

theorem Pair.outcome_eq (x : Shot) : (if (!p.en && !false) = true then (0, 0) else p.code x) = p.outcome x := by
  unfold Pair.outcome
  cases p.en <;> rfl

/-- R107: the block is written first; all that follows it in its clock passes it by. -/
theorem Dev.writeResult_shows (hn : p.path < 4) (hp : d.ufe.pair = none) (ha : p.ang < 65536) (keep : Bool) :
    d.Shows (d.writeResult p false keep) p (d.pairCode p) := by
  have hcor := d.correlate_passes p (p.outcome p.dn).1 (p.outcome p.up).1 false
  have hpc : (d.correlate p (p.outcome p.dn).1 (p.outcome p.up).1 false).1.1 = d.pairCode p := rfl
  unfold Dev.writeResult
  extract_lets n a b lim has
  have hna : a = p.outcome p.dn := p.outcome_eq p.dn
  have hnb : b = p.outcome p.up := p.outcome_eq p.up
  split
  rename_i pc dt peak g hc
  rw [hna, hnb] at hc
  rw [hc] at hcor hpc
  have hst := g.pairStamp_passes p
  have hlt := g.pairStamp_lt p ha
  split
  rename_i cyc ang g' ht
  rw [ht] at hst hlt
  extract_lets st seq older ran masked e₁ e₂ e₃ e₄ e₅ e₆ e₇ e₈ e₉ u e₁₀ wasBad e₁₁ e₁₂
  have hstat : st = d.rd (Reg.UFE_TOF_RES_STAT n) := (hcor.trans hst).rd _ (resultBlock_isTof n hn).1
  obtain ⟨hrs, hrd, hru, hra, hufe⟩ := g'.rd_block n (p.statWord st a.1 b.1 pc masked) a.2 b.2 dt
    (p.dn.amp + p.up.amp * 2 ^ 16) (peak + p.gain * 2 ^ 16) cyc (ang + p.task * 2 ^ 16)
  obtain ⟨hts, htd, htu, hta⟩ := resultBlock_isTof n hn
  have h₈ : (e₂.raise Ev.UFE_TOF_PAIR_DONE).Passes e₈ :=
    .trans (.trans (.trans (.trans (.trans (.raiseIf _ _) .raiseIfs) .raiseIfs) .raiseIfs) .raiseIfs) .raiseIfs
  have h₂ : e₂.Passes e₈ := (Dev.Passes.raise _).trans h₈
  have hovr : older = true → Ev.UFE_TOF_RES_OVR ∈ e₈.edges := fun ho =>
    (Dev.Passes.raiseIf masked Ev.UFE_RX_MASKED).grows _ (by simp [ho, Dev.raiseIf])
  have hshow : d.Shows e₈ p (d.pairCode p) := {
    stat := ⟨masked, by rw [← hstat, ← hna, ← hnb, ← hpc]; exact (h₂.rd _ hts).trans hrs⟩
    tofDn := by rw [← hna]; exact (h₂.rd _ htd).trans hrd
    tofUp := by rw [← hnb]; exact (h₂.rd _ htu).trans hru
    ang := ⟨ang, hlt, (h₂.rd _ hta).trans hra⟩
    idle := h₂.pair.trans ((congrArg Ufe.pair hufe).trans ((hcor.trans hst).pair.trans hp))
    done := h₈.grows _ (by simp)
    ovr := fun ho => hovr (by rw [← ho, ← hstat]) }
  have h₁₀ : e₈.Passes e₁₀ := .ite ((Dev.storeWords_passes _ _).trans (.wave _)) (Dev.storeWords_passes _ _)
  have h₁₁ : e₈.Passes e₁₁ := h₁₀.trans (Dev.pathStat_passes _ hn _)
  have h₁₂ : e₈.Passes e₁₂ := .ite (h₁₁.trans (Dev.agc_passes _ hn _ _)) h₁₁
  exact hshow.passes hn (h₁₂.trans (Dev.flowResult_passes _ _))

end Sys2Proof.Machine
end

section
/-! SUPPORT. R83–R85, R96–R101, R107, R109: PAIR_RESULT and MAN_FIRE. -/

namespace Sys2Proof.Machine

/-! ### The block's fields -/

theorem Dev.on_bit (d : Dev) (a k : Nat) : d.on ⟨a, k, 1⟩ = bit (d.rd a) k := by
  simp only [Dev.on, Dev.f, bits_one]
  cases bit (d.rd a) k <;> rfl

section

variable {b e : Dev} {p : Pair} {pc : Nat} (h : b.Shows e p pc)
include h

theorem Dev.Shows.task : e.f (Fld.UFE_TOF_RES_ANG_TASK p.path) = p.task % 1024 := by
  obtain ⟨t, ht, he⟩ := h.ang
  rw [Dev.f, show (Fld.UFE_TOF_RES_ANG_TASK p.path).reg = Reg.UFE_TOF_RES_ANG p.path from rfl, he]
  simp only [Fld.UFE_TOF_RES_ANG_TASK, bits]
  omega

variable (hs : p.src < 4) (hx : (p.outcome p.dn).1 < 16) (hy : (p.outcome p.up).1 < 16) (hc : pc < 8)
include hs hx hy hc

theorem Dev.Shows.fields : let n := p.path
    e.f (Fld.UFE_TOF_RES_STAT_SEQ n) = (b.f (Fld.UFE_TOF_RES_STAT_SEQ n) + 1) % 256
      ∧ e.f (Fld.UFE_TOF_RES_STAT_CODE_DN n) = (p.outcome p.dn).1
      ∧ e.f (Fld.UFE_TOF_RES_STAT_CODE_UP n) = (p.outcome p.up).1
      ∧ e.f (Fld.UFE_TOF_RES_STAT_PAIR n) = pc
      ∧ e.f (Fld.UFE_TOF_RES_STAT_NEW n) = 1
      ∧ (b.on (Fld.UFE_TOF_RES_STAT_NEW n) = true → e.f (Fld.UFE_TOF_RES_STAT_OVR n) = 1)
      ∧ e.on (Fld.UFE_TOF_RES_STAT_T_LATE n) = p.late
      ∧ e.on (Fld.UFE_TOF_RES_STAT_T_DEFERRED n) = p.deferred
      ∧ e.on (Fld.UFE_TOF_RES_STAT_T_AT_LIMIT n) = p.atLimit
      ∧ e.f (Fld.UFE_TOF_RES_STAT_SRC n) = p.src := by
  obtain ⟨masked, hm⟩ := h.stat
  obtain ⟨hw, hseq, hdn, hup, hpc, hnew, hovr, hlate, hdef, hlim, hsrc⟩ :=
    p.statWord_fields (st := b.rd (Reg.UFE_TOF_RES_STAT p.path)) masked hx hy hc hs
  rw [Nat.mod_eq_of_lt hw] at hm
  generalize p.statWord _ _ _ _ _ = w at *
  have hf : ∀ lo k, e.f ⟨Reg.UFE_TOF_RES_STAT p.path, lo, k⟩ = bits w lo k := fun lo k => by rw [Dev.f, hm]
  have hon : ∀ lo c, bits w lo 1 = b2n c → e.on ⟨Reg.UFE_TOF_RES_STAT p.path, lo, 1⟩ = c := fun lo c hc => by
    rw [Dev.on, hf, hc]
    cases c <;> rfl
  refine ⟨(hf 0 8).trans hseq, (hf 8 4).trans hdn, (hf 12 4).trans hup, (hf 16 3).trans hpc, (hf 19 1).trans hnew,
    fun ho => (hf 20 1).trans ?_, hon 26 _ hlate, hon 27 _ hdef, hon 28 _ hlim, (hf 29 2).trans hsrc⟩
  rw [hovr, ← b.on_bit, show b.on ⟨Reg.UFE_TOF_RES_STAT p.path, 19, 1⟩ = true from ho]
  rfl

end

/-! ### PAIR_RESULT (R86, R94, R107) -/

variable (d : Dev) {p : Pair}

theorem Dev.pairReady_of (h : d.ufe.pair = some p) (hr : p.en = true → p.dn.ended = true ∧ p.up.ended = true) :
    d.pairReady = some p := by
  unfold Dev.pairReady
  rw [h]
  cases he : p.en
  · simp [he]
  · simp [hr he]

/-- A pair that is ready gets its result, and a write of PATH_GAIN in the same clock leaves that as it is. -/
theorem Dev.pairResultWith_shows (hr : d.pairReady = some p) (hn : p.path < 4) (ha : p.ang < 65536)
    (wrote : Option WordWrite) : d.Shows (d.pairResultWith wrote) p (d.ufeRest.pairCode p) := by
  have hw : ∀ keep, d.Shows (d.pairResult keep) p (d.ufeRest.pairCode p) := fun keep => by
    have hp : d.pairResult keep = d.ufeRest.writeResult p false keep := by simp only [Dev.pairResult, hr]
    have h := d.ufeRest.writeResult_shows p hn rfl ha keep
    rw [hp]
    exact ⟨h.stat, h.tofDn, h.tofUp, h.ang, h.idle, h.done, h.ovr⟩
  unfold Dev.pairResultWith
  rw [hr]
  cases wrote with
  | none => exact hw false
  | some w => exact (hw _).passes hn (Dev.pathGainWrite_passes _ w.req hn _)

/-- Settles O28: the block shows the pair (`Dev.writeResult_shows`), and what follows it in its clock leaves it so. -/
theorem pairResultWritten : Obligations.PairResultWritten := by
  unfold Obligations.PairResultWritten
  intro s t wrote p hp hn hs ha hdn hup hhit hend _
  refine effects_run (f := fun d => (d.pass t).pairResultWith wrote) rfl ?_
  generalize (s.dev.answer .none).pass t = b at hp
  have h := b.pairResultWith_shows (b.pairReady_of hp hend) hn ha wrote
  generalize b.pairResultWith wrote = e at h
  obtain ⟨hx, hx'⟩ := p.outcome_lt hdn fun t ht => hhit t (.inl ht)
  obtain ⟨hy, hy'⟩ := p.outcome_lt hup fun t ht => hhit t (.inr ht)
  obtain ⟨hseq, hcd, hcu, hpair, hnew, hovr, hlate, hdef, hlim, hsrc⟩ := h.fields hs hx hy (b.ufeRest.pairCode_lt p)
  have htd := h.tofDn.trans (Nat.mod_eq_of_lt hx')
  have htu := h.tofUp.trans (Nat.mod_eq_of_lt hy')
  intro b' n code
  have hcode : ∀ x : Shot, (p.en = true → x.ended = true) → code x = p.outcome x := fun x hend => by
    unfold code Pair.outcome Pair.code
    cases he : p.en
    · rfl
    · simp only [hend he, Bool.not_true, Bool.false_eq_true, if_false, if_true, reduceCtorEq, bne_iff_ne]
      cases p.extStart <;> cases x.start <;> cases x.hit <;> rfl
  rw [hcode p.dn fun he => (hend he).1, hcode p.up fun he => (hend he).2]
  exact ⟨h.idle, hseq, hnew, fun ho => ⟨hovr ho, h.ovr (by rw [← b.on_bit]; exact ho)⟩, hsrc, h.task, hlate, hdef, hlim,
    hcd, htd, hcu, htu, h.done, fun he => hpair.trans (b.ufeRest.pairCode_disabled p he),
    fun he hc => hpair.trans (b.ufeRest.pairCode_bad p he hc),
    fun he h1 h2 => by rw [hpair]; exact b.ufeRest.pairCode_good p he h1 h2⟩

/-! ### MAN_FIRE (R83, R85, R88, R109) -/

/-- The word of a MAN_FIRE that names path `n` and shot set `k`. -/
theorem manFireWord_bits (n : Fin 4) (k : Fin 16) :
    let v := Fld.UFE_DRV_MAN_FIRE_PATH.word n + Fld.UFE_DRV_MAN_FIRE_SET.word k + Fld.UFE_DRV_MAN_FIRE_GO.word 1
    bit v 31 = true ∧ bits v 0 2 = n ∧ bits v 8 4 = k := by
  revert n k
  decide

/-- R109: MAN_FIRE on a page that is open for it. -/
theorem manFire_effects {s : State} {r : Requester} (n : Fin 4) (k : Fin 16) (now : Bool) {P : Dev → Prop}
    (hw : s.dev.writable r .ufeDrv = true)
    (hP : P (if now || s.dev.ufeBusy || !s.dev.domOn .ufa || !s.dev.domOn .ufd
      then ((s.dev.answer .none).raise Ev.UFE_DRV_MAN_REJ).answer .done
      else ((s.dev.answer .none).pairOffer n k 1 0x3FF false false false).answer .done)) :
    Effects (.manFire r n k now) s P := by
  obtain ⟨hgo, hpath, hset⟩ := manFireWord_bits n k
  refine effects_run (f := fun d => d.regGate r Reg.UFE_DRV_MAN_FIRE fun d => d.manFire _ now) rfl ?_
  rw [(s.dev.answer .none).regGate_open (p := .ufeDrv) 0xC0 _ hw (by decide) (by decide) (.inr (by decide))]
  unfold Dev.manFire
  rw [if_pos hgo, hpath, hset]
  split
  · rename_i hc
    rwa [if_pos (by exact hc)] at hP
  · rename_i hc
    rwa [if_neg (by exact hc)] at hP

/-- R83, R85: pair `p`, with nothing fired yet, is on path `n` as `d` has it and holds the words of shot set `k`. -/
structure Pair.Loaded (p : Pair) (d : Dev) (n k : Nat) : Prop where
  path : p.path = n
  en : p.en = d.on (Fld.UFE_DRV_PATH_CFG_EN n)
  drv : p.drv = d.rd (Reg.UFE_DRV_SET_DRV k)
  rx : p.rx = d.rd (Reg.UFE_RX_SET_RX k)
  hit : p.hit = d.rd (Reg.UFE_RX_SET_HIT k)
  win : p.win = d.rd (Reg.UFE_TOF_SET_WIN k)
  cap : p.cap = d.rd (Reg.UFE_TOF_SET_CAP k)
  gap : p.gap = d.rd (Reg.UFE_TOF_SET_GAP k)
  ang : p.ang = 0
  dn : p.dn = {}
  up : p.up = {}

theorem Dev.pairStart_loaded (n k src task : Nat) (late deferred atLimit : Bool) : ∃ p : Pair, p.Loaded d n k
    ∧ p.src = src ∧ p.task = task ∧ p.late = late ∧ p.deferred = deferred ∧ p.atLimit = atLimit
    ∧ d.pairStart n k src task late deferred atLimit =
      if p.en then { d with ufe.pair := some p }.ufeArm p false else { d with ufe.pair := some p } :=
  ⟨_, ⟨rfl, rfl, rfl, rfl, rfl, rfl, rfl, rfl, rfl, rfl, rfl⟩, rfl, rfl, rfl, rfl, rfl, rfl⟩

/-- R83: a pair is accepted on a path in use. -/
theorem Dev.pairOffer_enabled {n : Nat} (he : d.on (Fld.UFE_DRV_PATH_CFG_EN n) = true) (k src task : Nat)
    (late deferred atLimit : Bool) : ∃ p : Pair, p.Loaded d n k
    ∧ p.src = src ∧ p.task = task ∧ p.late = late ∧ p.deferred = deferred ∧ p.atLimit = atLimit
    ∧ d.pairOffer n k src task late deferred atLimit = { d with ufe.pair := some p }.ufeArm p false := by
  obtain ⟨p, hl, h1, h2, h3, h4, h5, h⟩ := d.pairStart_loaded n k src task late deferred atLimit
  rw [if_pos (hl.en.trans he)] at h
  refine ⟨p, hl, h1, h2, h3, h4, h5, ?_⟩
  unfold Dev.pairOffer
  rw [h]
  exact if_pos he

/-- R83, R107: on a path not in use the pair has its result at once. -/
theorem Dev.pairOffer_disabled {n : Nat} (he : d.on (Fld.UFE_DRV_PATH_CFG_EN n) = false) (k src task : Nat)
    (late deferred atLimit : Bool) : ∃ p : Pair, p.Loaded d n k ∧ p.src = src
    ∧ d.pairOffer n k src task late deferred atLimit = ({ d with ufe.pair := some p } : Dev).pairResultWith none := by
  obtain ⟨p, hl, h1, -, -, -, -, h⟩ := d.pairStart_loaded n k src task late deferred atLimit
  rw [if_neg (by simp [hl.en, he])] at h
  refine ⟨p, hl, h1, ?_⟩
  unfold Dev.pairOffer
  rw [h]
  exact if_neg (Bool.eq_false_iff.1 he)

/-- Settles O29: a request that is not refused starts a pair; on a path not in use that pair's result follows at once. -/
theorem manualPairs : Obligations.ManualPairs := by
  unfold Obligations.ManualPairs
  intro s r n k now hw
  refine ⟨fun hbusy => manFire_effects n k now hw ?_, fun hnow hbusy hufa hufd => ⟨fun hen => manFire_effects n k now hw ?_,
    fun hen => manFire_effects n k now hw ?_⟩⟩
  · rw [if_pos (by rcases hbusy with h | h | h | h <;> simp [h])]
    exact ⟨by simp, rfl, rfl⟩
  · obtain ⟨p, hl, hsrc, htask, hlate, hdef, hlim, h⟩ :=
      (s.dev.answer .none).pairOffer_enabled hen k 1 0x3FF false false false
    rw [if_neg (by simp [hnow, hbusy, hufa, hufd]), h]
    exact ⟨p, rfl, hl.path, hsrc, htask, hlate, hdef, hlim, hl.en.trans hen, hl.drv, hl.rx, hl.win, hl.cap, hl.hit, hl.gap,
      hl.dn, hl.up, rfl, rfl, rfl, rfl⟩
  · obtain ⟨p, hl, hsrc, h⟩ := (s.dev.answer .none).pairOffer_disabled hen k 1 0x3FF false false false
    have hp : p.en = false := hl.en.trans hen
    have hout : ∀ x, p.outcome x = (0, 0) := fun x => by simp [Pair.outcome, hp]
    rw [if_neg (by simp [hnow, hbusy, hufa, hufd]), h]
    have hs := ({ s.dev.answer .none with ufe.pair := some p } : Dev).pairResultWith_shows
      (Dev.pairReady_of _ rfl (by simp [hp])) (by rw [hl.path]; exact n.isLt) (by rw [hl.ang]; decide) none
    rw [Dev.pairCode_disabled _ p hp] at hs
    obtain ⟨-, -, -, hpair, -, -, -, -, -, hsrc'⟩ :=
      hs.fields (by rw [hsrc]; decide) (by rw [hout]; decide) (by rw [hout]; decide) (by decide)
    rw [hl.path] at hpair hsrc'
    exact ⟨hs.idle, hpair, hsrc'.trans hsrc, hs.done⟩

end Sys2Proof.Machine
end

section
/-! SUPPORT. What the meanings of FLOW, RTD and THERM share: places of vectors, two's complement, a write that may take a free
value, and the evaluations that a change of validity makes due (R129). -/

namespace Sys2Proof.Machine

theorem vGet_vSet_same {α : Type} {k n : Nat} (v : Vector α k) (h : n < k) (a b : α) : vGet (vSet v n a) n b = a := by
  simp [vGet, vSet, h]

theorem vGet_vSet_ne {α : Type} {k m n : Nat} (v : Vector α k) (h : m ≠ n) (a b : α) :
    vGet (vSet v n a) m b = vGet v m b := by
  simp [vGet, vSet, Vector.getElem?_setIfInBounds_ne h.symm]

theorem sgn_unsgn (w : Nat) {v : Int} (hl : -2 ^ w ≤ v) (hu : v < 2 ^ w) : sgn (w + 1) (unsgn (w + 1) v) = v := by
  have hp : (0 : Int) < 2 ^ w := by positivity
  have hm : ((unsgn (w + 1) v % 2 ^ (w + 1) : Nat) : Int) = v % (2 * 2 ^ w) := by
    rw [Nat.mod_eq_of_lt (unsgn_lt _ _), unsgn, Int.toNat_of_nonneg (Int.emod_nonneg _ (by positivity)), pow_succ']
  have hc : 2 * (unsgn (w + 1) v % 2 ^ (w + 1)) < 2 ^ (w + 1) ↔ v % (2 * 2 ^ w) < 2 ^ w := by
    rw [← hm]
    zify
    rw [pow_succ']
    omega
  unfold sgn
  push_cast at hm
  rw [hm, pow_succ' (2 : Int)]
  generalize (2 : Int) ^ w = p at *
  by_cases hv : 0 ≤ v
  · rw [Int.emod_eq_of_lt hv (by omega)] at hc ⊢
    rw [if_pos (hc.2 hu)]
  · have he : v % (2 * p) = v + 2 * p := by
      rw [← Int.add_emod_right, Int.emod_eq_of_lt (by omega) (by omega)]
    rw [he] at hc ⊢
    rw [if_neg (fun h => by have := hc.1 h; omega)]
    omega

theorem forUpto_succ {α : Type} (n : Nat) (f : Nat → α → α) (a : α) : forUpto (n + 1) f a = f n (forUpto n f a) := by
  simp [forUpto, List.range_succ]

variable (d : Dev)

theorem Dev.on_of_rd {d e : Dev} {g : Field} (h : e.rd g.reg = d.rd g.reg) : e.on g = d.on g := by
  rw [Dev.on, Dev.on, Dev.f_of_rd h]

theorem Dev.domOn_of_rd {d e : Dev} (h : e.rd Reg.PWR_DOM_STAT = d.rd Reg.PWR_DOM_STAT) (x : Dom) : e.domOn x = d.domOn x := by
  unfold Dev.domOn Dev.domStat
  rw [Dev.f_of_rd (g := Dev.domField x) h]

/-! ### A signed value that may not fit its register -/

theorem Dev.wrS_eq (a w : Nat) (v : Int) : ∃ n, d.wrS a w v = ({ d with free := n } : Dev).wr a (d.fitS w v).1 := by
  unfold Dev.wrS Dev.fitS
  split
  · exact ⟨_, rfl⟩
  · exact ⟨_, rfl⟩

theorem Dev.rd_wrS_ne {a b : Nat} (w : Nat) (v : Int) (h : b ≠ a) : (d.wrS a w v).rd b = d.rd b := by
  obtain ⟨n, hn⟩ := d.wrS_eq a w v
  rw [hn, Dev.rd_wr_ne _ _ h]
  rfl

theorem Dev.rd_wrS_same (a w : Nat) {v : Int} (hl : -2 ^ w ≤ v) (hu : v < 2 ^ w) :
    (d.wrS a (w + 1) v).rd a = unsgn (w + 1) v % 2 ^ 32 := by
  simp [Dev.wrS, Dev.fitS, hl, hu]

@[simp] theorem Dev.wrS_edges (a w : Nat) (v : Int) : (d.wrS a w v).edges = d.edges := by
  obtain ⟨n, hn⟩ := d.wrS_eq a w v
  rw [hn, Dev.wr_edges]

@[simp] theorem Dev.wrS_flow (a w : Nat) (v : Int) : (d.wrS a w v).flow = d.flow := by
  obtain ⟨n, hn⟩ := d.wrS_eq a w v
  rw [hn, Dev.wr_flow]

@[simp] theorem Dev.wrS_therm (a w : Nat) (v : Int) : (d.wrS a w v).therm = d.therm := by
  obtain ⟨n, hn⟩ := d.wrS_eq a w v
  rw [hn, Dev.wr_therm]

/-! ### Evaluations made due (R129) -/

/-- Outlets that are touched in turn: nothing but THERM's own view of the outlets changes. -/
theorem Dev.touches_eq (c : Nat → Dev → Bool) (n : Nat) :
    ∃ t, forUpto n (fun k e => if c k e then e.touchOutlet k else e) d = { d with therm := t } := by
  dsimp only [forUpto]
  generalize List.range n = l
  induction l generalizing d with
  | nil => exact ⟨d.therm, rfl⟩
  | cons k l ih =>
    rw [List.foldl_cons]
    by_cases h : c k d
    · obtain ⟨t, ht⟩ := ih (d.touchOutlet k)
      exact ⟨t, by rw [if_pos h, ht]; rfl⟩
    · rw [if_neg h]
      exact ih d

theorem Dev.touchPath_eq (n : Nat) : ∃ t, d.touchPath n = { d with therm := t } :=
  d.touches_eq (fun k d => d.supPath k == some n || d.retPath k == some n) 4

theorem Dev.touchChannel_eq (n : Nat) : ∃ t, d.touchChannel n = { d with therm := t } :=
  d.touches_eq (fun k d => (d.on (Fld.THERM_OUT_EN_CONN_A_EN k) && d.f (Fld.THERM_OUT_EN_CONN_A k) == n)
      || (d.on (Fld.THERM_OUT_EN_CONN_B_EN k) && d.f (Fld.THERM_OUT_EN_CONN_B k) == n)) 4

@[simp] theorem Dev.touchPath_regs (n : Nat) : (d.touchPath n).regs = d.regs := by
  obtain ⟨t, ht⟩ := d.touchPath_eq n
  rw [ht]

@[simp] theorem Dev.touchPath_flow (n : Nat) : (d.touchPath n).flow = d.flow := by
  obtain ⟨t, ht⟩ := d.touchPath_eq n
  rw [ht]

@[simp] theorem Dev.touchPath_edges (n : Nat) : (d.touchPath n).edges = d.edges := by
  obtain ⟨t, ht⟩ := d.touchPath_eq n
  rw [ht]

@[simp] theorem Dev.touchChannel_regs (n : Nat) : (d.touchChannel n).regs = d.regs := by
  obtain ⟨t, ht⟩ := d.touchChannel_eq n
  rw [ht]

@[simp] theorem Dev.touchChannel_rtd (n : Nat) : (d.touchChannel n).rtd = d.rtd := by
  obtain ⟨t, ht⟩ := d.touchChannel_eq n
  rw [ht]

@[simp] theorem Dev.touchChannel_edges (n : Nat) : (d.touchChannel n).edges = d.edges := by
  obtain ⟨t, ht⟩ := d.touchChannel_eq n
  rw [ht]

end Sys2Proof.Machine
end

section
/-! SUPPORT. R119: the paths of an outlet, the causes of FLOW_UNKNOWN of a path, and FLOW_STALE. -/

namespace Sys2Proof.Machine

variable (d : Dev)

/-! ### The paths of an outlet -/

theorem Dev.supPath_lt {k a : Nat} (h : d.supPath k = some a) : a < 4 := by
  unfold Dev.supPath at h
  split at h
  · cases h
    exact bits_lt _ _ _
  · cases h

theorem Dev.retPath_lt {k a : Nat} (h : d.retPath k = some a) : a < 4 := by
  unfold Dev.retPath at h
  split at h
  · cases h
    exact bits_lt _ _ _
  · cases h

theorem Dev.paths_of_rd {d e : Dev} {k : Nat} (h : e.rd (Reg.FLOW_OUT_CFG k) = d.rd (Reg.FLOW_OUT_CFG k)) :
    e.supPath k = d.supPath k ∧ e.retPath k = d.retPath k := by
  have hf : ∀ g : Field, g.reg = Reg.FLOW_OUT_CFG k → e.f g = d.f g := fun g hg => Dev.f_of_rd (by rw [hg, h])
  constructor
  · rw [Dev.supPath, Dev.supPath, Dev.on, Dev.on, hf (Fld.FLOW_OUT_CFG_SUP_EN k) rfl, hf (Fld.FLOW_OUT_CFG_SUP_PATH k) rfl]
  · rw [Dev.retPath, Dev.retPath, Dev.on, Dev.on, hf (Fld.FLOW_OUT_CFG_RET_EN k) rfl, hf (Fld.FLOW_OUT_CFG_RET_PATH k) rfl]

theorem Dev.flowUnknown_of_rd {d e : Dev} (h : e.rd Reg.PWR_DOM_STAT = d.rd Reg.PWR_DOM_STAT) (hf : e.flow = d.flow) :
    e.flowUnknown = d.flowUnknown := by
  funext n
  rw [Dev.flowUnknown, Dev.flowUnknown, Dev.domOn_of_rd h, Dev.flowPath, Dev.flowPath, hf]

/-! ### Causes -/

/-- The code shown is the lowest of those that hold. -/
theorem causeOf_lowest {m c : Nat} (hc : c < 6) (h : bit m c = true) :
    bit m (causeOf m) = true ∧ causeOf m ≤ c ∧ ∀ j < causeOf m, bit m j = false := by
  unfold causeOf
  cases hf : (List.range 6).find? fun c => bit m c with
  | none =>
    have hn := List.find?_range_eq_none.1 hf c hc
    rw [h] at hn
    exact absurd hn (by decide)
  | some i =>
    obtain ⟨hi, -, hlow⟩ := List.find?_range_eq_some.1 hf
    simp only [Bool.not_eq_true'] at hlow
    refine ⟨hi, not_lt.1 fun hlt => ?_, hlow⟩
    simp [hlow c hlt] at h

/-- The causes of path `n` as they show in FLOW_STAT. -/
def Dev.showCauses (n m : Nat) : Dev :=
  ((d.setFlowPath n { d.flowPath n with causes := m }).setB (Fld.FLOW_FLOW_STAT_UNKNOWN n) (m != 0)).setF
    (Fld.FLOW_FLOW_STAT_CAUSE n) (causeOf m)

variable {n m : Nat}

theorem Dev.setCauses_regs : (d.setCauses n m).regs = (d.showCauses n m).regs := by
  unfold Dev.setCauses
  dsimp only
  split
  · rfl
  · split
    · exact Dev.touchPath_regs _ n
    · exact Dev.touchPath_regs _ n

theorem Dev.setCauses_paths : (d.setCauses n m).flow.paths = (d.showCauses n m).flow.paths := by
  unfold Dev.setCauses
  dsimp only
  split
  · rfl
  · split
    · rw [Dev.touchPath_flow]
      rfl
    · simp only [Dev.touchPath_flow]
      rfl

/-- A path that a cause makes unknown raises FLOW_UNKNOWN; one that was unknown raises nothing. -/
theorem Dev.setCauses_edges (hm : m ≠ 0) :
    (d.setCauses n m).edges = d.edges ++ (if (d.flowPath n).causes = 0 then [Ev.FLOW_FLOW_UNKNOWN] else []) := by
  have h1 : (m != 0) = true := by simpa using hm
  have h2 : (m == 0) = false := by simpa using hm
  unfold Dev.setCauses
  simp only [h1, h2, if_true, Bool.false_eq_true, if_false]
  by_cases hp : (d.flowPath n).causes = 0
  · rw [if_neg (by simp [hp]), if_pos hp]
    exact Dev.touchPath_edges _ n
  · rw [if_pos (by simp [hp]), if_neg hp, List.append_nil]
    rfl

theorem Dev.setCauses_flowPath (hn : n < 4) : (d.setCauses n m).flowPath n = { d.flowPath n with causes := m } := by
  rw [Dev.flowPath, Dev.setCauses_paths]
  exact vGet_vSet_same _ hn _ _

theorem Dev.rd_showCauses {a : Nat} (h : a ≠ Reg.FLOW_FLOW_STAT n) : (d.showCauses n m).rd a = d.rd a :=
  (Dev.rd_setF_ne _ _ _ h).trans (Dev.rd_setF_ne _ (Fld.FLOW_FLOW_STAT_UNKNOWN n) _ h)

theorem Dev.showCauses_unknown (hm : m ≠ 0) : (d.showCauses n m).f (Fld.FLOW_FLOW_STAT_UNKNOWN n) = 1 := by
  have hs := Dev.f_setF_same (d.setFlowPath n { d.flowPath n with causes := m }) (Fld.FLOW_FLOW_STAT_UNKNOWN n) (b2n (m != 0))
    (by simp [Fld.FLOW_FLOW_STAT_UNKNOWN])
  have hd := Dev.f_setF_disj ((d.setFlowPath n { d.flowPath n with causes := m }).setB (Fld.FLOW_FLOW_STAT_UNKNOWN n) (m != 0))
    (Fld.FLOW_FLOW_STAT_CAUSE n) (Fld.FLOW_FLOW_STAT_UNKNOWN n) (causeOf m) rfl (by simp [Fld.FLOW_FLOW_STAT_CAUSE])
    (.inl (by simp [Fld.FLOW_FLOW_STAT_CAUSE, Fld.FLOW_FLOW_STAT_UNKNOWN]))
  refine (hd.trans hs).trans ?_
  simp [Fld.FLOW_FLOW_STAT_UNKNOWN, b2n, hm]

theorem Dev.showCauses_cause (hm : causeOf m < 8) : (d.showCauses n m).f (Fld.FLOW_FLOW_STAT_CAUSE n) = causeOf m := by
  unfold Dev.showCauses
  rw [Dev.f_setF_same _ _ _ (by simp [Fld.FLOW_FLOW_STAT_CAUSE])]
  exact Nat.mod_eq_of_lt hm

/-- FLOW_STALE of a path whose count has reached STALE_TICKS (R119, R120). -/
theorem Dev.flowStale_due (hu : d.domOn .ufd = true)
    (hs : max 1 (d.f Fld.FLOW_FLOW_CFG_STALE_TICKS) ≤ (d.flowPath n).stale) :
    d.flowStale n = d.setCauses n ((d.flowPath n).causes ||| 8) := by
  unfold Dev.flowStale
  exact if_pos (by simp only [hu, hs, decide_true, Bool.and_self])

theorem Dev.flowStale_early (hs : (d.flowPath n).stale < max 1 (d.f Fld.FLOW_FLOW_CFG_STALE_TICKS)) : d.flowStale n = d := by
  unfold Dev.flowStale
  exact if_neg (by simp only [not_le.2 hs, decide_false, Bool.and_false, Bool.false_eq_true, not_false_iff])

/-- The cause STALE has code 3. -/
theorem bit_or_stale (m c : Nat) : bit (m ||| 8) c = (bit m c || decide (c = 3)) := by
  have h8 : (8 : Nat).testBit c = decide (c = 3) := by
    rw [show 8 = 2 ^ 3 from rfl, Nat.testBit_two_pow]
    exact decide_eq_decide.2 eq_comm
  rw [bit_eq, bit_eq, Nat.testBit_or, h8]

/-- Path `n` of `e` is unknown for the causes `m`, and shows it. -/
structure Dev.Unknown (e : Dev) (n m : Nat) : Prop where
  causes : (e.flowPath n).causes = m
  shown : e.f (Fld.FLOW_FLOW_STAT_UNKNOWN n) = 1
  cause : e.f (Fld.FLOW_FLOW_STAT_CAUSE n) = causeOf m

/-- What STALE does to path `n`. -/
theorem Dev.setStale_facts (hn : n < 4) :
    let e := d.setCauses n ((d.flowPath n).causes ||| 8)
    e.Unknown n ((d.flowPath n).causes ||| 8)
      ∧ e.edges = d.edges ++ (if (d.flowPath n).causes = 0 then [Ev.FLOW_FLOW_UNKNOWN] else [])
      ∧ ∀ a, a ≠ Reg.FLOW_FLOW_STAT n → e.rd a = d.rd a := by
  generalize hq : (d.flowPath n).causes ||| 8 = m
  have h3 : bit m 3 = true := by rw [← hq, bit_or_stale]; simp
  have hm : m ≠ 0 := by rintro rfl; exact absurd h3 (by decide)
  obtain ⟨-, hle, -⟩ := causeOf_lowest (by decide) h3
  have hr := Dev.rd_of_regs (d.setCauses_regs (n := n) (m := m))
  exact ⟨⟨congrArg FlowPath.causes (d.setCauses_flowPath hn), (Dev.f_of_rd (hr _)).trans (d.showCauses_unknown hm),
    (Dev.f_of_rd (hr _)).trans (d.showCauses_cause (by omega))⟩, d.setCauses_edges hm,
    fun a ha => (hr a).trans (d.rd_showCauses ha)⟩

end Sys2Proof.Machine
end

section
/-! SUPPORT. R122: the end of a leak window, and the window that follows it. -/

namespace Sys2Proof.Machine

variable (d : Dev) {k : Nat} {w : LeakWin}

/-- The registers that the end of a window of outlet `k` may write. -/
def leakRegs (k : Nat) : List Nat := [Reg.FLOW_LEAK_STAT k, Reg.FLOW_LEAK_DIFF k]

theorem leakStat_ne_diff (k : Nat) : Reg.FLOW_LEAK_STAT k ≠ Reg.FLOW_LEAK_DIFF k := by
  simp only [Reg.FLOW_LEAK_STAT, Reg.FLOW_LEAK_DIFF]
  omega

theorem volumes_spared : ∀ k < 4, ∀ n < 4, Reg.FLOW_VOL_LO n ∉ leakRegs k ∧ Reg.FLOW_VOL_HI n ∉ leakRegs k := by decide

theorem leakInputs_spared : ∀ k < 4, Reg.FLOW_LEAK_THR k ∉ leakRegs k ∧ Reg.FLOW_LEAK_WIN k ∉ leakRegs k
    ∧ Reg.FLOW_OUT_CFG k ∉ leakRegs k ∧ Reg.PWR_DOM_STAT ∉ leakRegs k := by decide

/-! ### The judgement -/

/-- How much more the supply has carried than the return since the window started. -/
def Dev.leakDiff (w : LeakWin) : Int := (d.volume w.sup - w.vSup) - (d.volume w.ret - w.vRet)

/-- VOID and LEAK_DIFF of a window that is tested. -/
def Dev.leakMeasure (k : Nat) (w : LeakWin) : Dev :=
  (d.setF (Fld.FLOW_LEAK_STAT_VOID k) 0).wrS (Reg.FLOW_LEAK_DIFF k) 32 (d.leakDiff w)

/-- A leak found: LEAK is set, and an evaluation of the outlet is due where it was not. -/
def Dev.leakFound (k : Nat) : Dev :=
  let g := (d.setF (Fld.FLOW_LEAK_STAT_LEAK k) 1).raise Ev.FLOW_LEAK
  if d.on (Fld.FLOW_LEAK_STAT_LEAK k) then g else g.touchOutlet k

/-- What the end of window `w` of outlet `k` shows before the next window starts. -/
def Dev.leakJudge (k : Nat) (w : LeakWin) : Dev :=
  if w.void then (d.setF (Fld.FLOW_LEAK_STAT_VOID k) 1).raise Ev.FLOW_LEAK_VOID
  else if (d.leakMeasure k w).rd (Reg.FLOW_LEAK_THR k) < (d.leakDiff w).natAbs then (d.leakMeasure k w).leakFound k
  else d.leakMeasure k w

theorem Dev.leakEnd_eq (h : d.leakWin k = some w) (h0 : d.f (Fld.FLOW_LEAK_STAT_WIN_LEFT k) = 0) :
    d.leakEnd k = (d.leakJudge k w).leakStart k := by
  unfold Dev.leakEnd
  rw [h]
  dsimp only
  rw [if_pos h0]
  rfl

/-- From `d` to `e` no register but LEAK_STAT and LEAK_DIFF of outlet `k` has changed, and nothing of the paths. -/
structure Dev.LeakFrame (k : Nat) (d e : Dev) : Prop where
  rd : ∀ a, a ∉ leakRegs k → e.rd a = d.rd a
  flow : e.flow = d.flow

namespace Dev.LeakFrame

variable {d} {e g : Dev}

theorem trans (h : d.LeakFrame k e) (i : e.LeakFrame k g) : d.LeakFrame k g :=
  ⟨fun a ha => (i.rd a ha).trans (h.rd a ha), i.flow.trans h.flow⟩

theorem setF (f : Field) (v : Nat) (h : f.reg = Reg.FLOW_LEAK_STAT k) : d.LeakFrame k (d.setF f v) :=
  ⟨fun _ ha => Dev.rd_setF_ne _ _ _ (ne_of_mem_of_not_mem (h ▸ List.mem_cons_self) ha).symm, rfl⟩

theorem raise (n : Nat) : d.LeakFrame k (d.raise n) := ⟨fun _ _ => rfl, rfl⟩

theorem paths (h : d.LeakFrame k e) (hk : k < 4) : e.supPath k = d.supPath k ∧ e.retPath k = d.retPath k := by
  obtain ⟨-, -, hc, -⟩ := leakInputs_spared k hk
  exact Dev.paths_of_rd (h.rd _ hc)

theorem win (h : d.LeakFrame k e) (hk : k < 4) : e.f (Fld.FLOW_LEAK_WIN_WIN k) = d.f (Fld.FLOW_LEAK_WIN_WIN k) := by
  obtain ⟨-, hw, -⟩ := leakInputs_spared k hk
  exact Dev.f_of_rd (h.rd _ hw)

theorem volume (h : d.LeakFrame k e) (hk : k < 4) {n : Nat} (hn : n < 4) : e.volume n = d.volume n := by
  obtain ⟨hlo, hhi⟩ := volumes_spared k hk n hn
  rw [Dev.volume, Dev.volume, h.rd _ hlo, h.rd _ hhi]

theorem flowUnknown (h : d.LeakFrame k e) (hk : k < 4) : e.flowUnknown = d.flowUnknown := by
  obtain ⟨-, -, -, hd⟩ := leakInputs_spared k hk
  exact Dev.flowUnknown_of_rd (h.rd _ hd) h.flow

end Dev.LeakFrame

theorem Dev.leakMeasure_frame : d.LeakFrame k (d.leakMeasure k w) :=
  .trans (.setF (Fld.FLOW_LEAK_STAT_VOID k) 0 rfl)
    ⟨fun _ ha => Dev.rd_wrS_ne _ _ _ fun h => ha (h ▸ List.mem_cons_of_mem _ List.mem_cons_self), Dev.wrS_flow _ _ _ _⟩

theorem Dev.leakMeasure_edges : (d.leakMeasure k w).edges = d.edges := Dev.wrS_edges _ _ _ _

theorem Dev.leakMeasure_diff (hl : -2 ^ 31 ≤ d.leakDiff w) (hu : d.leakDiff w < 2 ^ 31) :
    sgn 32 ((d.leakMeasure k w).rd (Reg.FLOW_LEAK_DIFF k)) = d.leakDiff w := by
  have hr : (d.leakMeasure k w).rd (Reg.FLOW_LEAK_DIFF k) = unsgn 32 (d.leakDiff w) :=
    (Dev.rd_wrS_same _ _ 31 hl hu).trans (Nat.mod_eq_of_lt (unsgn_lt 32 _))
  rw [hr]
  exact sgn_unsgn 31 hl hu

theorem Dev.leakMeasure_void : (d.leakMeasure k w).f (Fld.FLOW_LEAK_STAT_VOID k) = 0 := by
  rw [Dev.leakMeasure, Dev.f_of_rd (Dev.rd_wrS_ne _ _ _ (leakStat_ne_diff k))]
  exact Dev.f_setF_same _ _ _ (by simp [Fld.FLOW_LEAK_STAT_VOID])

theorem Dev.leakMeasure_leak :
    (d.leakMeasure k w).f (Fld.FLOW_LEAK_STAT_LEAK k) = d.f (Fld.FLOW_LEAK_STAT_LEAK k) := by
  rw [Dev.leakMeasure, Dev.f_of_rd (Dev.rd_wrS_ne _ _ _ (leakStat_ne_diff k))]
  exact Dev.f_setF_disj _ _ _ _ rfl (by simp [Fld.FLOW_LEAK_STAT_VOID])
    (.inl (by simp [Fld.FLOW_LEAK_STAT_VOID, Fld.FLOW_LEAK_STAT_LEAK]))

theorem Dev.leakFound_eq : ∃ t, d.leakFound k =
    { (d.setF (Fld.FLOW_LEAK_STAT_LEAK k) 1).raise Ev.FLOW_LEAK with therm := t } := by
  unfold Dev.leakFound
  split
  · exact ⟨d.therm, rfl⟩
  · exact ⟨_, rfl⟩

theorem Dev.leakFound_rd (a : Nat) : (d.leakFound k).rd a = (d.setF (Fld.FLOW_LEAK_STAT_LEAK k) 1).rd a := by
  obtain ⟨t, ht⟩ := d.leakFound_eq (k := k)
  rw [ht]
  rfl

theorem Dev.leakFound_flow : (d.leakFound k).flow = d.flow := by
  obtain ⟨t, ht⟩ := d.leakFound_eq (k := k)
  rw [ht]
  rfl

theorem Dev.leakFound_edges : (d.leakFound k).edges = d.edges ++ [Ev.FLOW_LEAK] := by
  obtain ⟨t, ht⟩ := d.leakFound_eq (k := k)
  rw [ht]
  rfl

/-- The three outcomes of the judgement: void, leak, no leak. -/
theorem Dev.leakJudge_cases (hk : k < 4) {P : Dev → Prop}
    (void : w.void = true → P ((d.setF (Fld.FLOW_LEAK_STAT_VOID k) 1).raise Ev.FLOW_LEAK_VOID))
    (leak : w.void = false → d.rd (Reg.FLOW_LEAK_THR k) < (d.leakDiff w).natAbs → P ((d.leakMeasure k w).leakFound k))
    (tight : w.void = false → (d.leakDiff w).natAbs ≤ d.rd (Reg.FLOW_LEAK_THR k) → P (d.leakMeasure k w)) :
    P (d.leakJudge k w) := by
  obtain ⟨hthr, -⟩ := leakInputs_spared k hk
  unfold Dev.leakJudge
  rw [d.leakMeasure_frame.rd _ hthr]
  split
  · rename_i hv
    exact void hv
  · rename_i hv
    split
    · rename_i hlt
      exact leak (Bool.eq_false_iff.2 hv) hlt
    · rename_i hge
      exact tight (Bool.eq_false_iff.2 hv) (not_lt.1 hge)

theorem Dev.leakJudge_frame (hk : k < 4) : d.LeakFrame k (d.leakJudge k w) := by
  have hm := d.leakMeasure_frame (k := k) (w := w)
  refine d.leakJudge_cases hk (P := d.LeakFrame k) (fun _ => .trans (.setF (Fld.FLOW_LEAK_STAT_VOID k) 1 rfl) (.raise _))
    (fun _ _ => hm.trans ⟨fun a ha => ?_, Dev.leakFound_flow _⟩) (fun _ _ => hm)
  rw [Dev.leakFound_rd]
  exact (LeakFrame.setF (Fld.FLOW_LEAK_STAT_LEAK k) 1 rfl).rd a ha

theorem Dev.leakJudge_void (hv : w.void = true) : (d.leakJudge k w).f (Fld.FLOW_LEAK_STAT_VOID k) = 1
    ∧ Ev.FLOW_LEAK_VOID ∈ (d.leakJudge k w).edges
    ∧ (d.leakJudge k w).f (Fld.FLOW_LEAK_STAT_LEAK k) = d.f (Fld.FLOW_LEAK_STAT_LEAK k) := by
  have he : d.leakJudge k w = (d.setF (Fld.FLOW_LEAK_STAT_VOID k) 1).raise Ev.FLOW_LEAK_VOID := if_pos hv
  rw [he, Dev.f_raise, Dev.f_raise]
  exact ⟨Dev.f_setF_same _ _ _ (by simp [Fld.FLOW_LEAK_STAT_VOID]), by simp,
    Dev.f_setF_disj _ _ _ _ rfl (by simp [Fld.FLOW_LEAK_STAT_VOID])
      (.inl (by simp [Fld.FLOW_LEAK_STAT_VOID, Fld.FLOW_LEAK_STAT_LEAK]))⟩

/-- What `e` shows of window `w` that `d` has tested (R122). -/
structure Dev.Tested (d e : Dev) (k : Nat) (w : LeakWin) : Prop where
  void : e.f (Fld.FLOW_LEAK_STAT_VOID k) = 0
  diff : -2 ^ 31 ≤ d.leakDiff w → d.leakDiff w < 2 ^ 31 → sgn 32 (e.rd (Reg.FLOW_LEAK_DIFF k)) = d.leakDiff w
  leak : d.rd (Reg.FLOW_LEAK_THR k) < (d.leakDiff w).natAbs → e.f (Fld.FLOW_LEAK_STAT_LEAK k) = 1 ∧ Ev.FLOW_LEAK ∈ e.edges
  tight : (d.leakDiff w).natAbs ≤ d.rd (Reg.FLOW_LEAK_THR k) →
    e.f (Fld.FLOW_LEAK_STAT_LEAK k) = d.f (Fld.FLOW_LEAK_STAT_LEAK k) ∧ e.edges = d.edges

theorem Dev.leakMeasure_tested (h : (d.leakDiff w).natAbs ≤ d.rd (Reg.FLOW_LEAK_THR k)) : d.Tested (d.leakMeasure k w) k w :=
  ⟨d.leakMeasure_void, d.leakMeasure_diff, fun hlt => absurd hlt (not_lt.2 h),
    fun _ => ⟨d.leakMeasure_leak, d.leakMeasure_edges⟩⟩

theorem Dev.leakFound_tested (h : d.rd (Reg.FLOW_LEAK_THR k) < (d.leakDiff w).natAbs) :
    d.Tested ((d.leakMeasure k w).leakFound k) k w := by
  have hrd := Dev.leakFound_rd (d.leakMeasure k w) (k := k)
  refine ⟨?_, fun hl hu => ?_, fun _ => ⟨?_, ?_⟩, fun hge => absurd h (not_lt.2 hge)⟩
  · rw [Dev.f_of_rd (hrd _), ← d.leakMeasure_void (w := w)]
    exact Dev.f_setF_disj _ _ _ _ rfl (by simp [Fld.FLOW_LEAK_STAT_LEAK])
      (.inr (by simp [Fld.FLOW_LEAK_STAT_VOID, Fld.FLOW_LEAK_STAT_LEAK]))
  · rw [hrd, Dev.rd_setF_ne _ _ _ (leakStat_ne_diff k).symm, d.leakMeasure_diff hl hu]
  · rw [Dev.f_of_rd (hrd _)]
    exact Dev.f_setF_same _ _ _ (by simp [Fld.FLOW_LEAK_STAT_LEAK])
  · rw [Dev.leakFound_edges]
    exact List.mem_append_right _ (List.mem_singleton_self _)

theorem Dev.leakJudge_tested (hk : k < 4) (hv : w.void = false) : d.Tested (d.leakJudge k w) k w :=
  d.leakJudge_cases hk (P := fun e => d.Tested e k w) (fun h => absurd (hv.symm.trans h) (by decide))
    (fun _ => d.leakFound_tested) (fun _ => d.leakMeasure_tested)

/-! ### The window that follows -/

theorem Dev.leakStart_rd {a : Nat} (h : a ≠ Reg.FLOW_LEAK_STAT k) : (d.leakStart k).rd a = d.rd a := by
  unfold Dev.leakStart
  split <;> exact Dev.rd_setF_ne _ _ _ h

theorem Dev.leakStart_edges : (d.leakStart k).edges = d.edges := by
  unfold Dev.leakStart
  split <;> exact Dev.setF_edges _ _ _

/-- LEAK and VOID stand below WIN_LEFT. -/
theorem Dev.leakStart_f {g : Field} (hr : g.reg = Reg.FLOW_LEAK_STAT k) (hw : g.lo + g.width ≤ 16) :
    (d.leakStart k).f g = d.f g := by
  unfold Dev.leakStart
  split <;> exact Dev.f_setF_disj _ (Fld.FLOW_LEAK_STAT_WIN_LEFT k) g _ hr (by simp [Fld.FLOW_LEAK_STAT_WIN_LEFT]) (.inl hw)

theorem Dev.leakStart_some {a b : Nat} (hk : k < 4) (ha : d.supPath k = some a) (hb : d.retPath k = some b) :
    (d.leakStart k).f (Fld.FLOW_LEAK_STAT_WIN_LEFT k) = max 1 (d.f (Fld.FLOW_LEAK_WIN_WIN k))
      ∧ (d.leakStart k).leakWin k =
        some ⟨a, b, d.volume a, d.volume b, d.flowUnknown a || d.flowUnknown b⟩ := by
  have hlt : d.f (Fld.FLOW_LEAK_WIN_WIN k) < 2 ^ 16 := bits_lt _ _ _
  unfold Dev.leakStart
  rw [ha, hb]
  refine ⟨?_, vGet_vSet_same _ hk _ _⟩
  dsimp only
  rw [Dev.f_setF_same _ _ _ (by simp [Fld.FLOW_LEAK_STAT_WIN_LEFT])]
  exact Nat.mod_eq_of_lt (by simp only [Fld.FLOW_LEAK_STAT_WIN_LEFT]; omega)

/-- Settles O31: STALE is one more cause of the path; the window that ends is judged before the next one starts, and that
judgement changes nothing that the next one takes. -/
theorem staleFlowAndLeakWindows : Obligations.StaleFlowAndLeakWindows := by
  unfold Obligations.StaleFlowAndLeakWindows
  refine ⟨fun s n hu => ⟨fun hs => ?_, fun hs => effects_run (f := fun d => d.flowStale n) rfl ?_⟩,
    fun s k w hw h0 _ _ => effects_run (f := fun d => d.leakEnd k) rfl ?_⟩
  · refine effects_run (f := fun d => d.flowStale n) rfl ?_
    rw [(s.dev.answer .none).flowStale_due hu hs]
    obtain ⟨hx, hedges, hrd⟩ := (s.dev.answer .none).setStale_facts n.isLt
    obtain ⟨hb, -, hlow⟩ := causeOf_lowest (m := (s.dev.flowPath n).causes ||| 8) (c := 3) (by decide)
      (by simp [bit_or_stale])
    refine ⟨?_, hx.shown, ?_, ?_, ?_, hedges, hrd⟩
    · rw [hx.causes, bit_or_stale]
      simp
    · rw [hx.causes, hx.cause]
      exact hb
    · rw [hx.causes, hx.cause]
      exact hlow
    · intro c hc
      rw [hx.causes, bit_or_stale, decide_eq_false hc, Bool.or_false]
      rfl
  · exact (s.dev.answer .none).flowStale_early hs
  · rw [(s.dev.answer .none).leakEnd_eq hw h0]
    have hf := (s.dev.answer .none).leakJudge_frame (w := w) k.isLt
    refine ⟨fun hv => ?_, fun hv => ?_, fun a b ha hb => ?_⟩
    · rw [Dev.leakStart_f _ rfl (by simp [Fld.FLOW_LEAK_STAT_VOID]), Dev.leakStart_f _ rfl (by simp [Fld.FLOW_LEAK_STAT_LEAK]),
        Dev.leakStart_edges]
      exact (s.dev.answer .none).leakJudge_void hv
    · rw [Dev.leakStart_f _ rfl (by simp [Fld.FLOW_LEAK_STAT_VOID]), Dev.leakStart_f _ rfl (by simp [Fld.FLOW_LEAK_STAT_LEAK]),
        Dev.leakStart_edges, Dev.leakStart_rd _ (leakStat_ne_diff k).symm]
      have ht := (s.dev.answer .none).leakJudge_tested k.isLt hv
      exact ⟨ht.void, ht.diff, ht.leak, ht.tight⟩
    · obtain ⟨hs, hr⟩ := hf.paths k.isLt
      obtain ⟨hl, hw⟩ := Dev.leakStart_some _ k.isLt (hs.trans ha) (hr.trans hb)
      rw [hl, hw, hf.win k.isLt, hf.volume k.isLt (Dev.supPath_lt _ ha), hf.volume k.isLt (Dev.retPath_lt _ hb),
        hf.flowUnknown k.isLt]
      exact ⟨rfl, rfl⟩

end Sys2Proof.Machine
end

section
/-! SUPPORT. R127: the result of an RTD channel. -/

namespace Sys2Proof.Machine

variable (d : Dev) {n : Nat}

/-- RTD_STAT as a result with `seq` leaves it: NEW is set, BILL_VALID is computed on read. -/
def rtdStatWord (seq code : Nat) (slow : Bool) (wires : Nat) : Nat :=
  seq + code * 256 + 2 ^ 11 + b2n slow * 2 ^ 12 + wires * 2 ^ 16

theorem rtdStatWord_fields {seq code wires : Nat} (slow : Bool) (hs : seq < 256) (hc : code < 8) (hw : wires < 8) :
    let w := rtdStatWord seq code slow wires
    w < 2 ^ 32 ∧ bits w 0 8 = seq ∧ bits w 8 3 = code ∧ bit w 12 = slow := by
  have hb := b2n_lt slow
  have hslow : (b2n slow == 1) = slow := by cases slow <;> rfl
  refine ⟨?_, ?_, ?_, Eq.trans ?_ hslow⟩ <;> simp only [rtdStatWord, bits, bit]
  · omega
  · omega
  · omega
  · exact congrArg (· == 1) (by omega)

/-- The registers of channel `n` that a result writes. -/
def Dev.rtdShow (n stat res lead temp : Nat) : Dev :=
  (((d.wr (Reg.RTD_RTD_STAT n) stat).wr (Reg.RTD_RTD_RES n) res).wr (Reg.RTD_RTD_LEAD n) lead).wr (Reg.RTD_RTD_TEMP n) temp

theorem Dev.rtdShow_stat (stat res lead temp : Nat) :
    (d.rtdShow n stat res lead temp).rd (Reg.RTD_RTD_STAT n) = stat % 2 ^ 32 := by
  have hr : Reg.RTD_RTD_STAT n ≠ Reg.RTD_RTD_RES n := by simp only [Reg.RTD_RTD_STAT, Reg.RTD_RTD_RES]; omega
  have hl : Reg.RTD_RTD_STAT n ≠ Reg.RTD_RTD_LEAD n := by simp only [Reg.RTD_RTD_STAT, Reg.RTD_RTD_LEAD]; omega
  have ht : Reg.RTD_RTD_STAT n ≠ Reg.RTD_RTD_TEMP n := by simp only [Reg.RTD_RTD_STAT, Reg.RTD_RTD_TEMP]; omega
  rw [Dev.rtdShow, Dev.rd_wr_ne _ _ ht, Dev.rd_wr_ne _ _ hl, Dev.rd_wr_ne _ _ hr, Dev.rd_wr_same]

section

variable (code : Nat) (slow : Bool) (rcal lead : Nat) (t : Option Int) (wires : Nat)

theorem Dev.rtdWrite_regs : ∃ w, (d.rtdWrite n code slow rcal lead t wires).regs =
    (d.rtdShow n (rtdStatWord ((d.f (Fld.RTD_RTD_STAT_SEQ n) + 1) % 256) code slow wires) rcal (lead % 2 ^ 24)
      (t.elim 0x8000 (unsgn 16) + w * 65536)).regs := by
  refine ⟨(if d.mae.running then d.mae.cyc else 0).toNat % 65536, ?_⟩
  unfold Dev.rtdWrite
  dsimp only
  cases t <;> split <;> simp only [Dev.touchChannel_regs, Dev.raiseIf_regs, Dev.raise_regs] <;> rfl

theorem Dev.rtdWrite_rtd : ∃ l, (d.rtdWrite n code slow rcal lead t wires).rtd = { d.rtd with done := l } := by
  unfold Dev.rtdWrite
  dsimp only
  split
  · simp only [Dev.touchChannel_rtd, Dev.raiseIf_rtd, Dev.raise_rtd]
    exact ⟨_, rfl⟩
  · simp only [Dev.raiseIf_rtd, Dev.raise_rtd]
    exact ⟨_, rfl⟩

theorem Dev.rtdWrite_done : Ev.RTD_CONV_DONE ∈ (d.rtdWrite n code slow rcal lead t wires).edges := by
  unfold Dev.rtdWrite
  dsimp only
  split
  · simp only [Dev.touchChannel_edges, Dev.raiseIf_edges, Dev.raise_edges, List.mem_append, List.mem_singleton, or_true, true_or]
  · simp only [Dev.raiseIf_edges, Dev.raise_edges, List.mem_append, List.mem_singleton, or_true, true_or]

end

/-- Channel `n` of `e` shows a result after `d`'s: its code, rate and temperature. -/
structure Dev.Resulted (d e : Dev) (n code : Nat) (slow : Bool) (t : Option Int) : Prop where
  code : e.f (Fld.RTD_RTD_STAT_CODE n) = code
  seq : e.f (Fld.RTD_RTD_STAT_SEQ n) = (d.f (Fld.RTD_RTD_STAT_SEQ n) + 1) % 256
  slow : e.on (Fld.RTD_RTD_STAT_SLOW n) = slow
  temp : e.f (Fld.RTD_RTD_TEMP_T n) = t.elim 0x8000 (unsgn 16)
  done : Ev.RTD_CONV_DONE ∈ e.edges

theorem Dev.Resulted.of_base {d b e : Dev} {code : Nat} {slow : Bool} {t : Option Int} (h : b.Resulted e n code slow t)
    (hb : b.regs = d.regs) : d.Resulted e n code slow t :=
  ⟨h.code, h.seq.trans (by rw [Dev.f_of_rd (Dev.rd_of_regs hb _)]), h.slow, h.temp, h.done⟩

theorem Dev.rtdWrite_resulted {code wires : Nat} (hc : code < 8) (hw : wires < 8) (slow : Bool) (rcal lead : Nat)
    (t : Option Int) : d.Resulted (d.rtdWrite n code slow rcal lead t wires) n code slow t := by
  obtain ⟨w, hr⟩ := d.rtdWrite_regs (n := n) code slow rcal lead t wires
  obtain ⟨hlt, hseq, hcode, hslow⟩ :=
    rtdStatWord_fields slow (Nat.mod_lt (d.f (Fld.RTD_RTD_STAT_SEQ n) + 1) (y := 256) (by decide)) hc hw
  have hs : (d.rtdWrite n code slow rcal lead t wires).rd (Reg.RTD_RTD_STAT n) = _ :=
    (Dev.rd_of_regs hr _).trans ((d.rtdShow_stat _ _ _ _).trans (Nat.mod_eq_of_lt hlt))
  have ht : t.elim 0x8000 (unsgn 16) < 2 ^ 16 := by
    cases t with
    | none => decide
    | some t => exact unsgn_lt 16 t
  refine ⟨?_, ?_, ?_, ?_, d.rtdWrite_done _ _ _ _ _ _⟩
  · exact (congrArg (bits · 8 3) hs).trans hcode
  · exact (congrArg (bits · 0 8) hs).trans hseq
  · exact (Dev.on_bit _ _ 12).trans ((congrArg (bit · 12) hs).trans hslow)
  · rw [Dev.f_of_rd (Dev.rd_of_regs hr _)]
    refine (Dev.f_wr_same _ _ (Fld.RTD_RTD_TEMP_T n)).trans ?_
    simp only [Fld.RTD_RTD_TEMP_T, bits]
    omega

/-- A result without a measurement. -/
theorem Dev.rtdNoResult_spec {code : Nat} (hc : code < 8) (slow : Bool) :
    d.Resulted (d.rtdNoResult n code slow) n code slow none ∧ (d.rtdNoResult n code slow).rtd.dirty = d.rtd.dirty := by
  have he : d.rtdNoResult n code slow =
      d.fresh.2.fresh.2.rtdWrite n code slow d.fresh.1.toNat d.fresh.2.fresh.1.toNat none 0 := rfl
  obtain ⟨l, hl⟩ := d.fresh.2.fresh.2.rtdWrite_rtd (n := n) code slow d.fresh.1.toNat d.fresh.2.fresh.1.toNat none 0
  rw [he]
  exact ⟨(Dev.rtdWrite_resulted _ hc (by decide) slow _ _ none).of_base rfl, by rw [hl]; rfl⟩

end Sys2Proof.Machine
end

section
/-! SUPPORT. R124–R127: what a measurement of an RTD channel gives, and the ends of conversions. -/

namespace Sys2Proof.Machine

variable (d : Dev) (n : Nat) (m : RtdMeas)

/-- R127: the wires in use that are open. -/
def Dev.rtdWires : Nat := if d.on (Fld.RTD_RTD_CFG_WIRES n) = true then m.openWires.toNat else m.openWires.toNat % 4

/-- R125: RNOM in Ω. -/
def Dev.rtdNominal : Nat := if d.on (Fld.RTD_RTD_CFG_TYPE n) = true then 1000 else 100

/-- R125: R_T in mΩ: the loop less the leads. -/
def Dev.rtdOhm : Int :=
  (m.rLoop : Int) - (if d.on (Fld.RTD_RTD_CFG_WIRES n) = true then 2 * (m.rLead : Int) else (d.f (Fld.RTD_LEAD2_LEAD n) : Int))

/-- R126: the temperature of the calibrated resistance. -/
def Dev.rtdDegrees : Option Int :=
  iecTemp (d.rtdNominal n) (d.rtdOhm n m * (1000000 + sgn 16 (d.f (Fld.RTD_CAL_GAIN n)))
    + sgn 16 (d.f (Fld.RTD_CAL_OFS n)) * 1000000)

/-- R127: the code of the measurement. -/
def Dev.rtdCode : Nat :=
  if d.rtdWires n m ≠ 0 then 1 else if d.rtdOhm n m * 10 < 6000 * (d.rtdNominal n : Int) then 2
  else if d.rtdDegrees n m = none then 3 else 0

theorem Dev.rtdCode_lt : d.rtdCode n m < 8 := by
  unfold Dev.rtdCode
  split_ifs <;> decide

theorem Dev.rtdWires_lt : d.rtdWires n m < 8 := by
  have h := m.openWires.isLt
  unfold Dev.rtdWires
  split <;> omega

/-- R125–R127: the measurement in the model's terms; the resistances that are not stated are free. -/
theorem Dev.rtdJudge_eq : ∃ rcal lead fr, d.rtdJudge n m =
    ((d.rtdCode n m, rcal, lead, if d.rtdCode n m = 0 then d.rtdDegrees n m else none, d.rtdWires n m),
      { d with free := fr }) := by
  unfold Dev.rtdJudge
  extract_lets three wires rnom
  have hwires : d.rtdWires n m = wires := rfl
  split
  rename_i lead e hle
  obtain ⟨fr, he⟩ : ∃ fr, e = { d with free := fr } := by
    split at hle <;> cases hle
    · exact ⟨d.free, rfl⟩
    · exact ⟨_, rfl⟩
  have hf : ∀ g, e.f g = d.f g := fun g => by rw [he]; rfl
  split
  · rename_i h
    have hc : d.rtdCode n m = 1 := if_pos (by rw [hwires]; simpa using h)
    rw [hc, he]
    exact ⟨_, _, _, rfl⟩
  · rename_i h
    have h0 : d.rtdWires n m = 0 := by rw [hwires]; simpa using h
    extract_lets rt gain nohm rcal
    have hrt : rt = d.rtdOhm n m := by
      simp only [rt, hf]
      unfold Dev.rtdOhm
      push_cast
      rfl
    have ht : iecTemp rnom nohm = d.rtdDegrees n m := by
      simp only [nohm, gain, hf, hrt]
      rfl
    refine ⟨rcal, lead, fr, ?_⟩
    rw [ht, hrt, h0, ← he]
    split
    · rename_i hlt
      have hc : d.rtdCode n m = 2 := by
        unfold Dev.rtdCode
        rw [if_neg (by simp [h0]), if_pos (by exact_mod_cast hlt)]
      simp [hc]
    · rename_i hge
      have hc : d.rtdCode n m = if d.rtdDegrees n m = none then 3 else 0 := by
        unfold Dev.rtdCode
        rw [if_neg (by simp [h0]), if_neg (by exact_mod_cast hge)]
      rw [hc]
      cases d.rtdDegrees n m <;> simp

end Sys2Proof.Machine
end

section
/-! SUPPORT. R126: the search for the temperature of a resistance ratio. -/

namespace Sys2Proof.Machine

/-- Above 0 °C, far beyond the range of R126, the ratio rises with the temperature. -/
theorem iecRatio_mono {x y : Int} (hx : 0 ≤ x) (hxy : x ≤ y) (hy : y ≤ 60000) : iecRatio x ≤ iecRatio y := by
  unfold iecRatio
  rw [if_neg (by omega), if_neg (by omega)]
  have hs : 0 ≤ (y - x) * (120000 - (x + y)) := mul_nonneg (by omega) (by omega)
  nlinarith

theorem iecReaches_anti {r a b : Int} (ha : 0 < a) (hab : a ≤ b) (hb : b ≤ 30000) (h : iecReaches r b = true) :
    iecReaches r a = true := by
  unfold iecReaches at h ⊢
  rw [if_pos (by omega), decide_eq_true_eq] at h
  rw [if_pos ha, decide_eq_true_eq]
  exact (iecRatio_mono (by omega) (by omega) (by omega)).trans h

/-- The search ends where the ratio reaches a temperature and not the next. -/
theorem iecSearch_spec {r : Int} (f : Nat) (lo : Int) (h : iecReaches r lo = true) (hn : iecReaches r (lo + 2 ^ f) = false) :
    lo ≤ iecSearch r f lo ∧ iecSearch r f lo < lo + 2 ^ f ∧ iecReaches r (iecSearch r f lo) = true
      ∧ iecReaches r (iecSearch r f lo + 1) = false := by
  induction f generalizing lo with
  | zero => exact ⟨le_rfl, by simp [iecSearch], h, by simpa [iecSearch] using hn⟩
  | succ f ih =>
    have hp : (0 : Int) < 2 ^ f := by positivity
    rw [pow_succ'] at hn ⊢
    unfold iecSearch
    split
    · rename_i hm
      obtain ⟨h1, h2, h3⟩ := ih (lo + 2 ^ f) hm (by rw [← hn]; ring_nf)
      exact ⟨by omega, by omega, h3⟩
    · rename_i hm
      obtain ⟨h1, h2, h3⟩ := ih lo h (Bool.eq_false_iff.2 hm)
      exact ⟨h1, by omega, h3⟩

theorem iecTemp_spec {rnom : Nat} {nohm t : Int} (h : iecTemp rnom nohm = some t) : -5000 ≤ t ∧ t ≤ 25000
    ∧ iecReaches (nohm * (16 * 10 ^ 14) / rnom) t = true ∧ iecReaches (nohm * (16 * 10 ^ 14) / rnom) (t + 1) = false := by
  unfold iecTemp at h
  dsimp only at h
  generalize nohm * (16 * 10 ^ 14) / (rnom : Int) = r at *
  split at h
  · rename_i hc
    simp only [Bool.and_eq_true, Bool.not_eq_true'] at hc
    obtain ⟨hlo, hhi⟩ := hc
    have hbeyond : ∀ b : Int, 25001 ≤ b → b ≤ 30000 → iecReaches r b = false := fun b hb hb' =>
      Bool.eq_false_iff.2 fun hr => Bool.eq_false_iff.1 hhi (iecReaches_anti (by decide) hb hb' hr)
    obtain ⟨h1, h2, h3, h4⟩ := iecSearch_spec 15 (-5000) hlo (hbeyond _ (by decide) (by decide))
    rw [Option.some.inj h] at h1 h2 h3 h4
    refine ⟨h1, not_lt.1 fun hgt => ?_, h3, h4⟩
    exact Bool.eq_false_iff.1 (hbeyond t (by omega) (by omega)) h3
  · cases h

end Sys2Proof.Machine
end

section
/-! SUPPORT. R124–R127: RTD's commands. -/

namespace Sys2Proof.Machine

variable (d : Dev) {m : RtdMeas} {c : RtdConv}

/-- The conversion in progress ends with its result. -/
theorem Dev.rtdResult_spec (c : RtdConv) (m : RtdMeas) :
    d.Resulted (d.rtdResult c m) c.ch (d.rtdCode c.ch m) c.slow (if d.rtdCode c.ch m = 0 then d.rtdDegrees c.ch m else none)
      ∧ (d.rtdResult c m).rtd.conv = none := by
  obtain ⟨rcal, lead, fr, hj⟩ := d.rtdJudge_eq c.ch m
  unfold Dev.rtdResult
  rw [hj]
  have h := Dev.rtdWrite_resulted { d with free := fr } (n := c.ch) (d.rtdCode_lt c.ch m) (d.rtdWires_lt c.ch m) c.slow rcal lead
    (if d.rtdCode c.ch m = 0 then d.rtdDegrees c.ch m else none)
  exact ⟨⟨h.code, h.seq, h.slow, h.temp, h.done⟩, rfl⟩

/-- What a result shows, in the terms of R127. -/
theorem Dev.Resulted.temperature {d e : Dev} {n : Nat} {slow : Bool}
    (h : d.Resulted e n (d.rtdCode n m) slow (if d.rtdCode n m = 0 then d.rtdDegrees n m else none)) :
    (d.rtdCode n m = 0 → ∃ x, d.rtdDegrees n m = some x ∧ sgn 16 (e.f (Fld.RTD_RTD_TEMP_T n)) = x)
      ∧ (d.rtdCode n m ≠ 0 → e.f (Fld.RTD_RTD_TEMP_T n) = 0x8000) := by
  refine ⟨fun h0 => ?_, fun h0 => by rw [h.temp, if_neg h0]; rfl⟩
  rw [h.temp, if_pos h0]
  cases ht : d.rtdDegrees n m with
  | none =>
    unfold Dev.rtdCode at h0
    rw [if_pos ht] at h0
    split_ifs at h0
  | some x =>
    obtain ⟨hl, hu, -⟩ := iecTemp_spec ht
    exact ⟨x, rfl, sgn_unsgn 15 (by omega) (by omega)⟩

theorem Dev.rtdConvDone_eq (h : d.rtd.conv = some c) (hd : c.discard = false) : d.rtdConvDone m = d.rtdResult c m := by
  unfold Dev.rtdConvDone
  rw [h]
  exact if_neg (by simp [hd])

theorem Dev.rtdDiscardDone_eq (h : d.rtd.conv = some c) (hd : c.discard = true) : d.rtdDiscardDone m =
    if d.rtdCode c.ch m = 1 ∨ d.rtdCode c.ch m = 2 then d.rtdResult c m
    else { d with rtd.conv := some { c with discard := false } } := by
  obtain ⟨rcal, lead, fr, hj⟩ := d.rtdJudge_eq c.ch m
  unfold Dev.rtdDiscardDone
  rw [h]
  dsimp only
  rw [if_pos hd, hj]
  by_cases hc : d.rtdCode c.ch m = 1 ∨ d.rtdCode c.ch m = 2
  · rw [if_pos hc, if_pos (by simpa using hc)]
  · rw [if_neg hc, if_neg (by simpa using hc)]

/-! ### MAN_CONV and RTD_CFG (R124) -/

theorem manConvWord_bits (n : Fin 8) (fast : Bool) :
    let v := Fld.RTD_MAN_CONV_CH.word n + Fld.RTD_MAN_CONV_SLOW.word (b2n !fast) + Fld.RTD_MAN_CONV_GO.word 1
    bit v 31 = true ∧ bits v 0 3 = n ∧ bit v 3 = !fast := by
  revert n fast
  decide

theorem Dev.regWrite_manConv (r : Requester) (v : Nat) : d.regWrite r .rtd 0x200 v = d.rtdManual v := rfl

/-- MAN_CONV on a page that is open for it. -/
theorem manConv_effects {s : State} {r : Requester} (n : Fin 8) (fast : Bool) {P : Dev → Prop}
    (hw : s.dev.writable r .rtd = true)
    (hP : P ((if (s.dev.answer .none).rtd.conv.isSome then (s.dev.answer .none).raise Ev.RTD_MAN_REJ
      else (s.dev.answer .none).rtdStart n (!fast)).answer .done)) : Effects (.manConv r n fast) s P := by
  obtain ⟨hgo, hch, hslow⟩ := manConvWord_bits n fast
  refine effects_write (p := .rtd) 0x200 _ rfl hw (by decide) (by decide) (by decide) (.inr (by decide)) ?_
  rw [Dev.regWrite_manConv]
  unfold Dev.rtdManual
  rw [if_pos hgo, hch, hslow]
  exact hP

/-- A conversion of an enabled channel starts. -/
theorem Dev.rtdStart_enabled {n : Nat} (h : d.on (Fld.RTD_RTD_CFG_EN n) = true) (slow : Bool) : d.rtdStart n slow =
    { d with
      rtd.conv := some ⟨n, slow, d.rtd.prev != some n || bit d.rtd.dirty n⟩
      rtd.prev := some n
      rtd.dirty := setBits d.rtd.dirty n 1 0 } := by
  unfold Dev.rtdStart
  exact if_pos h

theorem rtdCfg_plain : ∀ n < 8, (fieldsAt .rtd (0x40 + n * 0x10)).any (·.ty == .rwo) = false := by decide

theorem Dev.regWrite_rtdCfg (r : Requester) {n : Nat} (hn : n < 8) (v : Nat) : d.regWrite r .rtd (0x40 + n * 0x10) v =
    (d.wr (Reg.RTD_RTD_CFG n) (d.afterWrite r .rtd (0x40 + n * 0x10) v)).rtdConfigured n := by
  have hnot : ¬ 0x40 + n * 0x10 < 0x40 := by omega
  have hman : ¬ (0x40 + n * 0x10 == 0x200) = true := by simp only [beq_iff_eq]; omega
  have hcfg : (decide (0x40 ≤ 0x40 + n * 0x10) && decide (0x40 + n * 0x10 < 0xC0)
      && decide ((0x40 + n * 0x10) % 0x10 < 0xC)) = true := by
    simp only [Bool.and_eq_true, decide_eq_true_eq]
    omega
  have hidx : (0x40 + n * 0x10 - 0x40) / 0x10 = n := by omega
  have hreg : pageBase .rtd + (0x40 + n * 0x10) = Reg.RTD_RTD_CFG n := by
    simp only [pageBase, Page.num, Reg.RTD_RTD_CFG]
    omega
  unfold Dev.regWrite Dev.pageWrite Dev.writeRtd
  dsimp only
  rw [if_neg hnot, if_neg hman, if_pos hcfg, hidx, hreg]

theorem bit_setBits_one (x k : Nat) : bit (setBits x k 1 1) k = true := by
  have h := bits_setBits_same x k 1 1
  rw [bits_one] at h
  cases hb : bit (setBits x k 1 1) k
  · rw [hb] at h
    exact absurd h (by decide)
  · rfl

/-- A conversion of the channel that is configured stops. -/
theorem Dev.rtdConfigured_same (h : d.rtd.conv = some c) : bit (d.rtdConfigured c.ch).rtd.dirty c.ch = true
    ∧ (d.rtdConfigured c.ch).rtd.conv = none ∧ d.Resulted (d.rtdConfigured c.ch) c.ch 4 c.slow none := by
  obtain ⟨hr, hd⟩ := Dev.rtdNoResult_spec { d with rtd.dirty := setBits d.rtd.dirty c.ch 1 1 } (n := c.ch) (code := 4)
    (by decide) c.slow
  have he : d.rtdConfigured c.ch =
      { ({ d with rtd.dirty := setBits d.rtd.dirty c.ch 1 1 } : Dev).rtdNoResult c.ch 4 c.slow with rtd.conv := none } := by
    unfold Dev.rtdConfigured
    simp only [h, BEq.rfl, if_true]
  rw [he]
  exact ⟨(congrArg (bit · c.ch) hd).trans (bit_setBits_one _ _), rfl, hr.code, hr.seq, hr.slow, hr.temp, hr.done⟩

theorem Dev.rtdConfigured_other {n : Nat} (h : d.rtd.conv = some c) (hn : c.ch ≠ n) :
    d.rtdConfigured n = { d with rtd.dirty := setBits d.rtd.dirty n 1 1 } := by
  unfold Dev.rtdConfigured
  simp only [h, beq_iff_eq, hn, if_false]

/-- Settles O32: MAN_CONV and RTD_CFG start and stop conversions, a conversion ends with the code and the temperature of its
measurement (`Dev.rtdJudge_eq`), and the search for the temperature ends between two half steps (`iecTemp_spec`). -/
theorem rtdConversions : Obligations.RtdConversions := by
  unfold Obligations.RtdConversions
  refine ⟨fun s r n fast hw => ⟨fun hb => manConv_effects n fast hw ?_, fun hf he => manConv_effects n fast hw ?_⟩,
    fun s r n data c hw hc => ?_, fun s m c hc _ => ?_, fun rnom nohm t _ ht => iecTemp_spec ht⟩
  · rw [if_pos (by exact hb)]
    exact ⟨by simp, rfl, rfl⟩
  · rw [if_neg (by rw [show (s.dev.answer .none).rtd.conv = none from hf]; decide), (s.dev.answer .none).rtdStart_enabled he]
    exact ⟨rfl, rfl, rfl, rfl⟩
  · refine effects_write (p := .rtd) (0x40 + n * 0x10) data.toNat rfl hw
      (by simp only [pageBase, Page.num, Reg.RTD_RTD_CFG]; omega) (by omega) (by omega) (.inr (rtdCfg_plain n n.isLt)) ?_
    rw [Dev.regWrite_rtdCfg _ r n.isLt]
    generalize Dev.afterWrite _ _ _ _ _ = new
    generalize hd : (s.dev.answer .none).wr (Reg.RTD_RTD_CFG n) new = d
    have hconv : d.rtd.conv = some c := by rw [← hd]; exact hc
    have hedges : d.edges = s.dev.edges := by rw [← hd]; rfl
    by_cases hn : c.ch = n
    · obtain ⟨hdirty, hnone, hres⟩ := d.rtdConfigured_same hconv
      rw [hn] at hdirty hnone hres
      exact ⟨hdirty, fun _ => ⟨hnone, hres.code, hres.done⟩, fun h => absurd hn h⟩
    · rw [d.rtdConfigured_other hconv hn]
      exact ⟨bit_setBits_one _ _, fun h => absurd h hn, fun _ => ⟨hconv, hedges⟩⟩
  · intro three rnom wires rt t code result
    have hres : result ((s.dev.answer .none).rtdResult c m) := by
      obtain ⟨h, hnone⟩ := (s.dev.answer .none).rtdResult_spec c m
      obtain ⟨ht0, ht1⟩ := h.temperature
      exact ⟨hnone, h.code, h.seq, h.slow, h.done, ht0, ht1⟩
    refine ⟨fun hd => effects_run (f := fun d => d.rtdConvDone m) rfl ?_,
      fun hd hx => effects_run (f := fun d => d.rtdDiscardDone m) rfl ?_,
      fun hd hx => effects_run (f := fun d => d.rtdDiscardDone m) rfl ?_⟩
    · rw [(s.dev.answer .none).rtdConvDone_eq hc hd]
      exact hres
    · rw [(s.dev.answer .none).rtdDiscardDone_eq hc hd, if_pos (by exact hx)]
      exact hres
    · rw [(s.dev.answer .none).rtdDiscardDone_eq hc hd, if_neg (by exact hx)]
      exact ⟨rfl, rfl, rfl⟩

end Sys2Proof.Machine
end

section
/-! SUPPORT. R129, R132, R133: fault evaluations of the thermal guard. -/

namespace Sys2Proof.Machine

/-! ### The registers and fields of an outlet -/

/-- The registers that an evaluation of outlet `k` may write. -/
def thermRegs (k : Nat) : List Nat := [Reg.THERM_ILIM k, Reg.THERM_RUN k, Reg.THERM_HEAT k, Reg.EVT_RAW .therm]

theorem eventRaw_hotAny : (eventRaw Ev.THERM_HOT_ANY).reg = Reg.EVT_RAW .therm := by decide

theorem faultField_eq (k : Nat) {c : Nat} (h : c < 3) : faultField k c = ⟨Reg.THERM_ILIM k, 23 + c, 1⟩ := by
  interval_cases c <;> rfl

theorem levelField_eq (k : Nat) {c : Nat} (h : c < 3) : levelField k c = ⟨Reg.THERM_ILIM k, 17 + 2 * c, 2⟩ := by
  interval_cases c <;> rfl

/-! What an evaluation of outlet `k` reads, but for its levels, its faults and THERM's own view of it, it does not write. -/

theorem thermSources_spared : ∀ k < 4, ∀ n < 8, Reg.FLOW_FLOW_STAT n ∉ thermRegs k ∧ Reg.RTD_RTD_STAT n ∉ thermRegs k
    ∧ Reg.RTD_RTD_TEMP n ∉ thermRegs k := by decide

theorem thermInputs_spared : ∀ k < 4, Reg.FLOW_OUT_CFG k ∉ thermRegs k ∧ Reg.FLOW_LEAK_STAT k ∉ thermRegs k
    ∧ Reg.THERM_OUT_EN k ∉ thermRegs k ∧ Reg.THERM_THERM_CFG ∉ thermRegs k ∧ Reg.PWR_DOM_STAT ∉ thermRegs k := by decide

theorem thermLimits_spared : ∀ k < 4, Reg.THERM_ILIM_MAX k ∉ thermRegs k ∧ Reg.THERM_ILIM_FAULT k ∉ thermRegs k
    ∧ Reg.THERM_ILIM_DRY k ∉ thermRegs k ∧ (∀ c < 3, ∀ l < 4, rowReg k c l ∉ thermRegs k) := by decide

theorem ilim_ne : ∀ k < 4, Reg.THERM_ILIM k ≠ Reg.THERM_HEAT k ∧ Reg.THERM_ILIM k ≠ Reg.EVT_RAW .therm := by decide

theorem thermOthers_spared : ∀ k < 4, Reg.THERM_EVAL_CNT k ∉ thermRegs k
    ∧ ∀ j < 4, j ≠ k → Reg.THERM_ILIM j ∉ thermRegs k ∧ Reg.THERM_RUN j ∉ thermRegs k := by decide

variable (d : Dev) {k c j : Nat}

@[simp] theorem Dev.outlet_setOutlet_same (hk : k < 4) (o : Outlet) : (d.setOutlet k o).outlet k = o := vGet_vSet_same _ hk _ _

theorem Dev.outlet_setOutlet_ne {j : Nat} (h : j ≠ k) (o : Outlet) : (d.setOutlet k o).outlet j = d.outlet j :=
  vGet_vSet_ne _ h _ _

/-! ### What an evaluation leaves -/

/-- From `d` to `e` only registers of outlet `k`'s evaluation have changed, and of the outlets THERM's view of the criteria
and faults of outlet `k`; no event is lost. -/
structure Dev.Guards (k : Nat) (d e : Dev) : Prop where
  rd : ∀ a, a ∉ thermRegs k → e.rd a = d.rd a
  other : ∀ j, j ≠ k → e.outlet j = d.outlet j
  stale : (e.outlet k).stale = (d.outlet k).stale
  due : (d.outlet k).due = false → (e.outlet k).due = false
  flow : e.flow = d.flow
  grows : d.Grows e

namespace Dev.Guards

variable {d} {e g : Dev}

theorem refl (d : Dev) : d.Guards k d := ⟨fun _ _ => rfl, fun _ _ => rfl, rfl, id, rfl, .of_eq rfl⟩

theorem trans (h : d.Guards k e) (i : e.Guards k g) : d.Guards k g :=
  ⟨fun a ha => (i.rd a ha).trans (h.rd a ha), fun j hj => (i.other j hj).trans (h.other j hj), i.stale.trans h.stale,
    i.due ∘ h.due, i.flow.trans h.flow, h.grows.trans i.grows⟩

theorem wr (a v : Nat) (h : a ∈ thermRegs k) : d.Guards k (d.wr a v) :=
  ⟨fun _ hb => Dev.rd_wr_ne d v (ne_of_mem_of_not_mem h hb).symm, fun _ _ => rfl, rfl, id, rfl, .of_eq rfl⟩

theorem setF (f : Field) (v : Nat) (h : f.reg ∈ thermRegs k) : d.Guards k (d.setF f v) := wr _ _ h

theorem wrS (a w : Nat) (v : Int) (h : a ∈ thermRegs k) : d.Guards k (d.wrS a w v) := by
  have ht : ∀ j, (d.wrS a w v).outlet j = d.outlet j := fun j => by rw [Dev.outlet, Dev.wrS_therm, Dev.outlet]
  exact ⟨fun b hb => Dev.rd_wrS_ne d w v (ne_of_mem_of_not_mem h hb).symm, fun j _ => ht j, by rw [ht], by rw [ht]; exact id,
    Dev.wrS_flow .., .of_eq (Dev.wrS_edges ..)⟩

theorem raise (n : Nat) : d.Guards k (d.raise n) := ⟨fun _ _ => rfl, fun _ _ => rfl, rfl, id, rfl, .raise n⟩

theorem raiseIf (c : Bool) (n : Nat) : d.Guards k (d.raiseIf c n) := by cases c; exacts [refl d, raise n]

theorem setOutlet (hk : k < 4) (o : Outlet) (hs : o.stale = (d.outlet k).stale)
    (hd : (d.outlet k).due = false → o.due = false) :
    d.Guards k (d.setOutlet k o) :=
  ⟨fun _ _ => rfl, fun _ hj => d.outlet_setOutlet_ne hj o, by rw [d.outlet_setOutlet_same hk, hs],
    by rw [d.outlet_setOutlet_same hk]; exact hd, rfl, .of_eq rfl⟩

theorem setCrit (hk : k < 4) (c : Nat) (x : Criterion) : d.Guards k (d.setCrit k c x) := setOutlet hk _ rfl id

theorem f (h : d.Guards k e) {g : Field} (hg : g.reg ∉ thermRegs k) : e.f g = d.f g := Dev.f_of_rd (h.rd _ hg)

theorem domOn (h : d.Guards k e) (hk : k < 4) (x : Dom) : e.domOn x = d.domOn x := by
  obtain ⟨-, -, -, -, hd⟩ := thermInputs_spared k hk
  exact Dev.domOn_of_rd (h.rd _ hd) x

theorem paths (h : d.Guards k e) (hk : k < 4) : e.supPath k = d.supPath k ∧ e.retPath k = d.retPath k := by
  obtain ⟨hc, -⟩ := thermInputs_spared k hk
  exact Dev.paths_of_rd (h.rd _ hc)

theorem flowUnknown (h : d.Guards k e) (hk : k < 4) : e.flowUnknown = d.flowUnknown := by
  obtain ⟨-, -, -, -, hd⟩ := thermInputs_spared k hk
  exact Dev.flowUnknown_of_rd (h.rd _ hd) h.flow

/-- A flag in FLOW_STAT of a path that may be absent. -/
theorem anyStat (h : d.Guards k e) (hk : k < 4) {g : Nat → Field} (hg : ∀ n, (g n).reg = Reg.FLOW_FLOW_STAT n)
    {p : Option Nat} (hp : ∀ n, p = some n → n < 4) : (p.any fun n => e.on (g n)) = p.any fun n => d.on (g n) := by
  cases p with
  | none => rfl
  | some n =>
    obtain ⟨hs, -⟩ := thermSources_spared k hk n (Nat.lt_trans (hp n rfl) (by decide))
    exact Dev.on_of_rd (h.rd _ (by rwa [hg]))

theorem connChannels (h : d.Guards k e) (hk : k < 4) : e.connChannels k = d.connChannels k := by
  obtain ⟨-, -, ho, -⟩ := thermInputs_spared k hk
  have hf : ∀ g : Field, g.reg = Reg.THERM_OUT_EN k → e.f g = d.f g := fun g hg => h.f (by rw [hg]; exact ho)
  rw [Dev.connChannels, Dev.connChannels, Dev.on, Dev.on, Dev.on, Dev.on, hf (Fld.THERM_OUT_EN_CONN_A_EN k) rfl,
    hf (Fld.THERM_OUT_EN_CONN_A k) rfl, hf (Fld.THERM_OUT_EN_CONN_B_EN k) rfl, hf (Fld.THERM_OUT_EN_CONN_B k) rfl]

theorem rtdTemp (h : d.Guards k e) (hk : k < 4) {n : Nat} (hn : n < 8) : e.rtdTemp n = d.rtdTemp n := by
  obtain ⟨-, hs, ht⟩ := thermSources_spared k hk n hn
  rw [Dev.rtdTemp, Dev.rtdTemp, h.domOn hk, h.f (g := Fld.RTD_RTD_STAT_CODE n) hs, h.f (g := Fld.RTD_RTD_TEMP_T n) ht]

end Dev.Guards

theorem Dev.connChannels_lt {n : Nat} (h : n ∈ d.connChannels k) : n < 8 := by
  have ha : d.f (Fld.THERM_OUT_EN_CONN_A k) < 8 := bits_lt _ _ 3
  have hb : d.f (Fld.THERM_OUT_EN_CONN_B k) < 8 := bits_lt _ _ 3
  unfold Dev.connChannels at h
  rcases List.mem_append.1 h with h | h <;> split at h <;> simp at h <;> omega

/-- R132: the conditions of the faults do not depend on what an evaluation writes. -/
theorem Dev.Guards.faultCond {d e : Dev} (h : d.Guards k e) (hk : k < 4) (c : Nat) : e.faultCond k c = d.faultCond k c := by
  obtain ⟨-, hl, ho, hc, -⟩ := thermInputs_spared k hk
  obtain ⟨hs, hr⟩ := h.paths hk
  have hsrc : e.coolSrc k = d.coolSrc k := by
    rw [Dev.coolSrc, Dev.coolSrc, h.f (g := Fld.THERM_OUT_EN_COOL_SRC k) ho]
  have hsup := fun g hg => h.anyStat hk (g := g) hg fun n => d.supPath_lt (k := k)
  have hret := fun g hg => h.anyStat hk (g := g) hg fun n => d.retPath_lt (k := k)
  match c with
  | 0 =>
    simp only [Dev.faultCond, Dev.unknownOf, Dev.oorOf, hs, hr, hsrc, h.flowUnknown hk,
      hsup Fld.FLOW_FLOW_STAT_COOL_OOR fun _ => rfl, hret Fld.FLOW_FLOW_STAT_COOL_OOR fun _ => rfl]
  | 1 =>
    simp only [Dev.faultCond, h.connChannels hk, h.f (g := Fld.THERM_THERM_CFG_STALE_EVALS) hc, h.stale]
    rw [Bool.eq_iff_iff, List.any_eq_true, List.any_eq_true]
    exact exists_congr fun n => and_congr_right fun hn => by rw [h.rtdTemp hk (d.connChannels_lt hn)]
  | c + 2 =>
    simp only [Dev.faultCond, hs, hr, Dev.on_of_rd (g := Fld.FLOW_LEAK_STAT_LEAK k) (h.rd _ hl),
      hsup Fld.FLOW_FLOW_STAT_EMPTY fun _ => rfl, hret Fld.FLOW_FLOW_STAT_EMPTY fun _ => rfl]


/-! ### Faults and criteria in a fault evaluation (R131, R132) -/

theorem ilim_mem (k : Nat) : Reg.THERM_ILIM k ∈ thermRegs k := List.mem_cons_self

theorem run_mem (k : Nat) : Reg.THERM_RUN k ∈ thermRegs k := List.mem_cons_of_mem _ List.mem_cons_self

/-- A fault limit is in force where its condition holds or it was in force; those of the other faults stay as they were. -/
theorem Dev.faultEval_fault (hc : c < 3) (hj : j < 3) : (d.faultEval k c false).on (faultField k j) =
    (d.on (faultField k j) || (decide (j = c) && d.faultCond k c)) := by
  unfold Dev.faultEval
  dsimp only
  split
  · rename_i h
    rw [Dev.on, Dev.f_raiseIf]
    by_cases hjc : j = c
    · rw [hjc, Dev.f_setF_same _ _ _ (by simp [faultField_eq k hc]; omega)]
      simp [faultField_eq k hc, h]
    · rw [Dev.f_setF_disj _ (faultField k c) (faultField k j) _ (by simp [faultField_eq, hc, hj])
        (by simp [faultField_eq k hc]; omega) (by simp only [faultField_eq, hc, hj]; omega)]
      simp [hjc]
      rfl
  · rename_i h
    rw [Bool.not_eq_true] at h
    simp [h]

theorem Dev.faultEval_guards (hk : k < 4) (hc : c < 3) : d.Guards k (d.faultEval k c false) := by
  unfold Dev.faultEval
  dsimp only
  split
  · exact .trans (.trans (.setOutlet hk { d.outlet k with absent := vSet (d.outlet k).absent c 0 } rfl id)
      (.setF (faultField k c) _ (by rw [faultField_eq k hc]; exact ilim_mem k))) (.raiseIf _ _)
  · exact .refl d

/-- A criterion whose input is valid again starts from level 0. -/
def Dev.critReset (k c : Nat) : Dev :=
  (((d.setF (levelField k c) 0).setF (worseField k c) 0).setF (betterField k c) 0).setCrit k c { valid := true }

/-- The three outcomes for a criterion where no task evaluates it. -/
theorem Dev.critEval_cases (c : Nat) {P : Dev → Prop}
    (invalid : P (d.setCrit k c { vGet (d.outlet k).crit c {} with valid := false }))
    (stays : P d) (again : P (d.critReset k c)) : P (d.critEval k c false) := by
  unfold Dev.critEval
  simp only [Bool.false_eq_true, if_false]
  split
  · exact invalid
  · split
    · exact stays
    · exact again

theorem Dev.critEval_guards (hk : k < 4) (hc : c < 3) : d.Guards k (d.critEval k c false) :=
  d.critEval_cases c (P := d.Guards k) (.setCrit hk _ _) (.refl d)
    (.trans (.trans (.trans (.setF _ _ (by rw [levelField_eq k hc]; exact ilim_mem k)) (.setF (worseField k c) _ (run_mem k)))
      (.setF (betterField k c) _ (run_mem k))) (.setCrit hk _ _))

/-- The criteria leave the faults as they are. -/
theorem Dev.critEval_fault (hc : c < 3) (hj : j < 3) :
    (d.critEval k c false).on (faultField k j) = d.on (faultField k j) := by
  refine d.critEval_cases c (P := fun e => e.on (faultField k j) = d.on (faultField k j)) rfl rfl ?_
  have hne : (faultField k j).reg ≠ Reg.THERM_RUN k := by
    rw [faultField_eq k hj]
    simp only [Reg.THERM_ILIM, Reg.THERM_RUN]
    omega
  have hf : (d.critReset k c).f (faultField k j) = (d.setF (levelField k c) 0).f (faultField k j) :=
    (Dev.f_setF_ne _ (betterField k c) _ _ hne).trans (Dev.f_setF_ne _ (worseField k c) _ _ hne)
  rw [Dev.on, hf, Dev.f_setF_disj _ _ _ _ (by simp [faultField_eq, levelField_eq, hc, hj]) (by simp [levelField_eq k hc]; omega)
    (by simp only [faultField_eq, levelField_eq, hc, hj]; omega)]
  rfl

/-- Outlet `k` after its faults and its criteria. -/
def Dev.judged (k : Nat) : Dev :=
  forUpto 3 (fun c d => d.critEval k c false)
    (forUpto 3 (fun c d => d.faultEval k c false) (d.setOutlet k { d.outlet k with due := false }))

/-- The faults and the criteria `0`, …, `n - 1` of the outlet are evaluated in turn. -/
theorem Dev.faultEvals_spec (hk : k < 4) (n : Nat) (hn : n ≤ 3) : d.Guards k (forUpto n (fun c d => d.faultEval k c false) d)
    ∧ ∀ c < 3, (forUpto n (fun c d => d.faultEval k c false) d).on (faultField k c) =
      (d.on (faultField k c) || (decide (c < n) && d.faultCond k c)) := by
  induction n with
  | zero => exact ⟨.refl d, fun c _ => by simp [forUpto]⟩
  | succ n ih =>
    obtain ⟨hg, hf⟩ := ih (by omega)
    rw [forUpto_succ]
    refine ⟨hg.trans (Dev.faultEval_guards _ hk hn), fun c hc => ?_⟩
    rw [Dev.faultEval_fault _ hn hc, hf c hc, hg.faultCond hk]
    by_cases h : c = n
    · simp [h]
    · have hiff : c < n + 1 ↔ c < n := by omega
      simp [h, hiff]

theorem Dev.critEvals_spec (hk : k < 4) (n : Nat) (hn : n ≤ 3) : d.Guards k (forUpto n (fun c d => d.critEval k c false) d)
    ∧ ∀ c < 3, (forUpto n (fun c d => d.critEval k c false) d).on (faultField k c) = d.on (faultField k c) := by
  induction n with
  | zero => exact ⟨.refl d, fun _ _ => rfl⟩
  | succ n ih =>
    obtain ⟨hg, hf⟩ := ih (by omega)
    rw [forUpto_succ]
    exact ⟨hg.trans (Dev.critEval_guards _ hk hn), fun c hc => (Dev.critEval_fault _ hn hc).trans (hf c hc)⟩

/-- The faults in force after the evaluation are those that were and those whose condition holds. -/
theorem Dev.judged_spec (hk : k < 4) : d.Guards k (d.judged k) ∧ ((d.judged k).outlet k).due = false
    ∧ ∀ c < 3, (d.judged k).on (faultField k c) = (d.on (faultField k c) || d.faultCond k c) := by
  have h0 : d.Guards k (d.setOutlet k { d.outlet k with due := false }) := .setOutlet hk _ rfl fun _ => rfl
  obtain ⟨hf, hfault⟩ := (d.setOutlet k { d.outlet k with due := false }).faultEvals_spec hk 3 le_rfl
  obtain ⟨hc, hcrit⟩ := Dev.critEvals_spec _ hk 3 le_rfl
  refine ⟨h0.trans (hf.trans hc), (hf.trans hc).due (by rw [Dev.outlet_setOutlet_same _ hk]), fun c hc => ?_⟩
  rw [Dev.judged, hcrit c hc, hfault c hc, h0.faultCond hk]
  simp [hc]
  rfl

/-! ### The limit in force (R133) -/

theorem foldl_min_le : ∀ (l : List Nat) (m : Nat), l.foldl min m ≤ m ∧ ∀ x ∈ l, l.foldl min m ≤ x
  | [], m => ⟨le_rfl, by simp⟩
  | y :: l, m => by
    obtain ⟨hm, hl⟩ := foldl_min_le l (min m y)
    refine ⟨hm.trans (min_le_left m y), fun x hx => ?_⟩
    rcases List.mem_cons.1 hx with rfl | hx
    · exact hm.trans (min_le_right m x)
    · exact hl x hx

theorem Dev.ilim_le : d.ilim k ≤ d.f (Fld.THERM_ILIM_MAX_I k) ∧ (∀ c < 3, d.ilim k ≤ d.critLimit k c)
    ∧ ∀ c < 3, d.on (faultField k c) = true → d.ilim k ≤ d.faultLimit k c := by
  obtain ⟨hm, hl⟩ := foldl_min_le ([0, 1, 2].map (d.critLimit k)
    ++ ([0, 1, 2].filter fun c => d.on (faultField k c)).map (d.faultLimit k)) (d.f (Fld.THERM_ILIM_MAX_I k))
  have hmem : ∀ c < 3, c ∈ [0, 1, 2] := by decide
  refine ⟨hm, fun c hc => hl _ (List.mem_append_left _ (List.mem_map_of_mem (hmem c hc))), fun c hc hon => hl _ ?_⟩
  exact List.mem_append_right _ (List.mem_map_of_mem (List.mem_filter.2 ⟨hmem c hc, hon⟩))

/-- ILIM and HOT show the limit that the levels and the faults of `d` give. -/
def Dev.showLimit (k : Nat) : Dev :=
  (d.setF (Fld.THERM_ILIM_I k) (d.ilim k)).setB (Fld.THERM_ILIM_HOT k)
    (decide (d.ilim k < (d.setF (Fld.THERM_ILIM_I k) (d.ilim k)).f (Fld.THERM_ILIM_MAX_I k)))

theorem Dev.thermFault_eq (hu : d.domOn .ufd = true) (he : d.on (Fld.THERM_OUT_EN_EN k) = true)
    (hd : (d.outlet k).due = true) : ∃ up down : Bool, d.thermFault k =
      let y := ((((d.judged k).showLimit k).raiseIf ((d.judged k).ilim k != d.f (Fld.THERM_ILIM_I k)) Ev.THERM_ILIM_CHG).raiseIf
        up Ev.THERM_LVL_UP).raiseIf down Ev.THERM_LVL_DOWN
      (y.heatEval k).level Ev.THERM_HOT_ANY (y.heatEval k).anyHot := by
  unfold Dev.thermFault Dev.thermEval
  rw [if_pos hd, if_pos (by rw [hu, he]; rfl)]
  exact ⟨_, _, rfl⟩

theorem Dev.heatEval_guards : d.Guards k (d.heatEval k) := by
  have hm : Reg.THERM_HEAT k ∈ thermRegs k := by simp [thermRegs]
  unfold Dev.heatEval
  split
  · exact .trans (.wrS _ _ _ hm) (.setF (Fld.THERM_HEAT_HEAT_VALID k) _ hm)
  · exact .wr _ _ hm

theorem Dev.rd_heatEval {a : Nat} (h : a ≠ Reg.THERM_HEAT k) : (d.heatEval k).rd a = d.rd a := by
  unfold Dev.heatEval
  split
  · exact (Dev.rd_setF_ne _ (Fld.THERM_HEAT_HEAT_VALID k) _ h).trans (Dev.rd_wrS_ne _ _ _ h)
  · exact Dev.rd_wr_ne _ _ h

theorem Dev.showLimit_guards : d.Guards k (d.showLimit k) :=
  .trans (.setF (Fld.THERM_ILIM_I k) _ (ilim_mem k)) (.setF (Fld.THERM_ILIM_HOT k) _ (ilim_mem k))

theorem Dev.showLimit_limit : (d.showLimit k).f (Fld.THERM_ILIM_I k) = d.ilim k := by
  have hlt : d.f (Fld.THERM_ILIM_MAX_I k) < 2 ^ 16 := bits_lt _ _ _
  obtain ⟨hle, -⟩ := d.ilim_le (k := k)
  have hs := Dev.f_setF_same d (Fld.THERM_ILIM_I k) (d.ilim k) (by simp [Fld.THERM_ILIM_I])
  refine (Dev.f_setF_disj _ (Fld.THERM_ILIM_HOT k) (Fld.THERM_ILIM_I k) _ rfl (by simp [Fld.THERM_ILIM_HOT])
    (.inl (by simp [Fld.THERM_ILIM_I, Fld.THERM_ILIM_HOT]))).trans (hs.trans (Nat.mod_eq_of_lt ?_))
  exact lt_of_le_of_lt hle hlt

theorem Dev.showLimit_hot (hk : k < 4) :
    (d.showLimit k).on (Fld.THERM_ILIM_HOT k) = true ↔ d.ilim k < d.f (Fld.THERM_ILIM_MAX_I k) := by
  obtain ⟨hmax, -⟩ := thermLimits_spared k hk
  have hm : (d.setF (Fld.THERM_ILIM_I k) (d.ilim k)).f (Fld.THERM_ILIM_MAX_I k) = d.f (Fld.THERM_ILIM_MAX_I k) :=
    Dev.f_setF_ne _ _ _ _ (ne_of_mem_of_not_mem (ilim_mem k) hmax).symm
  have hs : (d.showLimit k).f (Fld.THERM_ILIM_HOT k) = b2n (decide (d.ilim k < d.f (Fld.THERM_ILIM_MAX_I k))) % 2 ^ 1 := by
    rw [Dev.showLimit, hm]
    exact Dev.f_setF_same _ _ _ (by simp [Fld.THERM_ILIM_HOT])
  rw [Dev.on, hs]
  by_cases h : d.ilim k < d.f (Fld.THERM_ILIM_MAX_I k) <;> simp [h, b2n]

/-- The levels and the faults stand above I and HOT. -/
theorem Dev.showLimit_f {g : Field} (hr : g.reg = Reg.THERM_ILIM k) (hl : 17 ≤ g.lo) : (d.showLimit k).f g = d.f g :=
  (Dev.f_setF_disj _ (Fld.THERM_ILIM_HOT k) g _ hr (by simp [Fld.THERM_ILIM_HOT]) (.inr hl)).trans
    (Dev.f_setF_disj _ (Fld.THERM_ILIM_I k) g _ hr (by simp [Fld.THERM_ILIM_I])
      (.inr (le_trans (by simp [Fld.THERM_ILIM_I]) hl)))

/-- Outlet `k` of `e` shows the limit that its levels and faults, which are those of `d`, give. -/
structure Dev.Limits (k : Nat) (d e : Dev) : Prop where
  guards : d.Guards k e
  limit : e.f (Fld.THERM_ILIM_I k) = d.ilim k
  hot : e.on (Fld.THERM_ILIM_HOT k) = true ↔ d.ilim k < d.f (Fld.THERM_ILIM_MAX_I k)
  above : ∀ g : Field, g.reg = Reg.THERM_ILIM k → 17 ≤ g.lo → e.f g = d.f g

namespace Dev.Limits

variable {d} {e : Dev} (h : d.Limits k e)
include h

theorem faults (hc : c < 3) : e.on (faultField k c) = d.on (faultField k c) := by
  rw [Dev.on, Dev.on, h.above _ (by rw [faultField_eq k hc]) (by rw [faultField_eq k hc]; simp only; omega)]

theorem ilimMax (hk : k < 4) : e.f (Fld.THERM_ILIM_MAX_I k) = d.f (Fld.THERM_ILIM_MAX_I k) :=
  h.guards.f (thermLimits_spared k hk).1

theorem critLimit (hk : k < 4) (hc : c < 3) : e.critLimit k c = d.critLimit k c := by
  obtain ⟨-, -, -, hrow⟩ := thermLimits_spared k hk
  have hl : e.f (levelField k c) = d.f (levelField k c) :=
    h.above _ (by rw [levelField_eq k hc]) (by rw [levelField_eq k hc]; simp only; omega)
  have hlt : d.f (levelField k c) < 4 := by
    rw [levelField_eq k hc]
    exact bits_lt _ _ 2
  rw [Dev.critLimit, Dev.critLimit, hl, h.ilimMax hk, h.guards.rd _ (hrow c hc _ hlt)]

theorem faultLimit (hk : k < 4) (c : Nat) : e.faultLimit k c = d.faultLimit k c := by
  obtain ⟨-, hf, hd, -⟩ := thermLimits_spared k hk
  rw [Dev.faultLimit, Dev.faultLimit, h.guards.f (g := Fld.THERM_ILIM_FAULT_ILIM_FU k) hf,
    h.guards.f (g := Fld.THERM_ILIM_FAULT_ILIM_RTDF k) hf, h.guards.f (g := Fld.THERM_ILIM_DRY_I k) hd]

/-- R133: the limit shown is at most each of those it is made of. -/
theorem le (hk : k < 4) : e.f (Fld.THERM_ILIM_I k) ≤ e.f (Fld.THERM_ILIM_MAX_I k)
    ∧ (∀ c < 3, e.on (faultField k c) = true → e.f (Fld.THERM_ILIM_I k) ≤ e.faultLimit k c)
    ∧ ∀ c < 3, e.f (Fld.THERM_ILIM_I k) ≤ e.critLimit k c := by
  obtain ⟨hm, hc, hf⟩ := d.ilim_le (k := k)
  rw [h.limit, h.ilimMax hk]
  exact ⟨hm, fun c hc3 hon => by rw [h.faultLimit hk]; exact hf c hc3 (by rwa [← h.faults hc3]),
    fun c hc3 => by rw [h.critLimit hk hc3]; exact hc c hc3⟩

end Dev.Limits

theorem Dev.thermFault_limits (hk : k < 4) (hu : d.domOn .ufd = true) (he : d.on (Fld.THERM_OUT_EN_EN k) = true)
    (hd : (d.outlet k).due = true) : (d.judged k).Limits k (d.thermFault k)
      ∧ ((d.judged k).ilim k ≠ d.f (Fld.THERM_ILIM_I k) → Ev.THERM_ILIM_CHG ∈ (d.thermFault k).edges) := by
  obtain ⟨up, down, h⟩ := d.thermFault_eq hu he hd
  have hraw : (eventRaw Ev.THERM_HOT_ANY).reg ∈ thermRegs k := by rw [eventRaw_hotAny]; simp [thermRegs]
  have hn : Reg.THERM_ILIM k ≠ Reg.THERM_HEAT k ∧ Reg.THERM_ILIM k ≠ (eventRaw Ev.THERM_HOT_ANY).reg := by
    rw [eventRaw_hotAny]
    exact ilim_ne k hk
  rw [h]
  generalize d.judged k = x
  extract_lets y
  have hxy : x.Guards k y := .trans (.trans (.trans x.showLimit_guards (.raiseIf _ _)) (.raiseIf _ _)) (.raiseIf _ _)
  have hyz : y.Guards k ((y.heatEval k).level Ev.THERM_HOT_ANY (y.heatEval k).anyHot) :=
    .trans y.heatEval_guards (.trans (.setF _ _ hraw) (.raiseIf _ _))
  have hf : ∀ g : Field, g.reg = Reg.THERM_ILIM k →
      ((y.heatEval k).level Ev.THERM_HOT_ANY (y.heatEval k).anyHot).f g = (x.showLimit k).f g := fun g hg => by
    rw [Dev.level, Dev.f_raiseIf]
    refine (Dev.f_setF_ne _ _ _ _ (by rw [hg]; exact hn.2)).trans
      ((Dev.f_of_rd (Dev.rd_heatEval _ (by rw [hg]; exact hn.1))).trans ?_)
    simp [y]
  refine ⟨⟨hxy.trans hyz, (hf _ rfl).trans x.showLimit_limit, ?_, fun g hg hl => (hf g hg).trans (x.showLimit_f hg hl)⟩,
    fun hne => hyz.grows _ ?_⟩
  · rw [Dev.on, hf _ rfl]
    exact x.showLimit_hot hk
  · refine (Dev.Guards.trans (k := k) (.raiseIf up _) (.raiseIf down _)).grows _ ?_
    have hb : (x.ilim k != d.f (Fld.THERM_ILIM_I k)) = true := by simpa using hne
    simp [Dev.raiseIf, hb]

/-- Settles O33: faults and criteria are judged (`Dev.judged`), and then the limit is taken from them. -/
theorem thermalFaultEvaluations : Obligations.ThermalFaultEvaluations := by
  unfold Obligations.ThermalFaultEvaluations
  refine ⟨fun s k hu he hd => effects_run (f := fun d => d.thermFault k) rfl ?_,
    fun s k hd => effects_run (f := fun d => d.thermFault k) rfl ?_⟩
  · obtain ⟨hl, hchg⟩ := (s.dev.answer .none).thermFault_limits k.isLt hu he hd
    obtain ⟨hj, hdue, hfault⟩ := (s.dev.answer .none).judged_spec k.isLt
    obtain ⟨hmax, hfl, hcl⟩ := hl.le k.isLt
    have hg := hj.trans hl.guards
    have hon : ∀ c < 3, _ = (s.dev.on (faultField k c) || s.dev.faultCond k c) := fun c hc => (hl.faults hc).trans (hfault c hc)
    obtain ⟨hcnt, hoth⟩ := thermOthers_spared k k.isLt
    refine ⟨fun c hc h => by rw [hon c hc, h, Bool.or_true], fun c hc h => by rw [hon c hc, h, Bool.true_or],
      fun c hc h => (Bool.or_eq_true _ _ ▸ (hon c hc).symm.trans h).symm, hmax, hfl, hcl, ?_, fun hne => hchg ?_, hg.rd _ hcnt,
      hl.guards.due hdue, fun j hj hjk => ?_⟩
    · rw [hl.limit, hl.ilimMax k.isLt]
      exact hl.hot
    · rwa [← hl.limit]
    · obtain ⟨hi, hr⟩ := hoth j hj hjk
      exact ⟨hg.rd _ hi, hg.rd _ hr, hg.other j hjk⟩
  · exact if_neg (by rw [show ((s.dev.answer .none).outlet k).due = false from hd]; decide)

end Sys2Proof.Machine
end

section
/-! SUPPORT. The page MET_FE: what other blocks do in a command of the front end, or an access that is refused, leaves the
page's registers, the front end and the MAE as they are, and raises none of the page's events. -/

namespace Sys2Proof.Machine

/-- The registers of the page MET_FE. -/
def isFeReg (a : Nat) : Bool := 0x4000c000 ≤ a && a < 0x4000d000

/-- The events of the page MET_FE (R29). -/
def isFeEvent (n : Nat) : Bool := 144 ≤ n && n < 160

theorem isFeReg_iff {a : Nat} : isFeReg a = true ↔ 0x4000c000 ≤ a ∧ a < 0x4000d000 := by simp [isFeReg]

theorem isFeEvent_iff {n : Nat} : isFeEvent n = true ↔ 144 ≤ n ∧ n < 160 := by simp [isFeEvent]

theorem notFe_of_le {a : Nat} (h : 0x4000d000 ≤ a) : isFeReg a = false := by simp [isFeReg, Nat.not_lt.2 h]

/-- From `d` to `e` nothing of the page MET_FE and its unit has changed, no event of the page has been raised and no event
is lost; the MAE goes on as it was. -/
structure Dev.FeKeeps (d e : Dev) : Prop where
  rd : ∀ a, isFeReg a = true → e.rd a = d.rd a
  fe : e.fe = d.fe
  mae : e.mae = d.mae
  quiet : ∀ n, isFeEvent n = true → n ∈ e.edges → n ∈ d.edges
  grows : d.Grows e

namespace Dev.FeKeeps

variable {d e g : Dev}

theorem of_regs (hr : e.regs = d.regs) (hf : e.fe = d.fe) (hm : e.mae = d.mae) (he : e.edges = d.edges) : d.FeKeeps e :=
  ⟨fun a _ => Dev.rd_of_regs hr a, hf, hm, fun _ _ hn => he ▸ hn, .of_eq he⟩

theorem refl (d : Dev) : d.FeKeeps d := of_regs rfl rfl rfl rfl

theorem trans (h : d.FeKeeps e) (k : e.FeKeeps g) : d.FeKeeps g :=
  ⟨fun a ha => (k.rd a ha).trans (h.rd a ha), k.fe.trans h.fe, k.mae.trans h.mae,
    fun n hn hg => h.quiet n hn (k.quiet n hn hg), h.grows.trans k.grows⟩

theorem wr (a v : Nat) (h : isFeReg a = false) : d.FeKeeps (d.wr a v) :=
  ⟨fun _ hb => Dev.rd_wr_ne d v (by rintro rfl; simp [h] at hb), rfl, rfl, fun _ _ => id, .of_eq rfl⟩

theorem setF (f : Field) (v : Nat) (h : isFeReg f.reg = false) : d.FeKeeps (d.setF f v) := wr _ _ h

theorem raise (n : Nat) (h : isFeEvent n = false) : d.FeKeeps (d.raise n) :=
  ⟨fun _ _ => rfl, rfl, rfl, fun m hm he => by
    rcases List.mem_append.1 he with he | he
    · exact he
    · rw [List.mem_singleton.1 he, h] at hm
      exact absurd hm (by decide), .raise n⟩

theorem raiseIf (c : Bool) (n : Nat) (h : isFeEvent n = false) : d.FeKeeps (d.raiseIf c n) := by
  cases c
  · exact refl d
  · exact raise n h

theorem answer (b : BusResp) : d.FeKeeps (d.answer b) := of_regs rfl rfl rfl rfl

theorem qty (q : Qty) : d.FeKeeps { d with qty := q } := of_regs rfl rfl rfl rfl

theorem foldl {α : Type} (l : List α) (op : Dev → α → Dev) (h : ∀ x (d : Dev), d.FeKeeps (op d x)) :
    ∀ d : Dev, d.FeKeeps (l.foldl op d) := by
  induction l with
  | nil => exact refl
  | cons x t ih => exact fun d => (h x d).trans (ih _)

/-- A step that is taken or not. -/
theorem ite {c : Prop} [Decidable c] {e g : Dev} (he : d.FeKeeps e) (hg : d.FeKeeps g) : d.FeKeeps (if c then e else g) := by
  split
  · exact he
  · exact hg

theorem f (h : d.FeKeeps e) {g : Field} (hg : isFeReg g.reg = true) : e.f g = d.f g := Dev.f_of_rd (h.rd _ hg)

theorem on (h : d.FeKeeps e) {g : Field} (hg : isFeReg g.reg = true) : e.on g = d.on g := Dev.on_of_rd (h.rd _ hg)

end Dev.FeKeeps

variable (d : Dev)

/-! ### The sample store (R185) and the cycle in hand (R159) -/

theorem bankOwner_notFe : ∀ b < 16, isFeReg (Reg.MEMCTL_BANK_OWN b) = false := by decide

theorem Dev.drained_feKeeps (g b : Nat) : d.FeKeeps (d.drained g b) := by
  unfold Dev.drained Dev.handoverDone
  split
  · rename_i h
    simp only [Bool.and_eq_true, decide_eq_true_eq] at h
    exact .ite (.trans (.setF (Fld.MEMCTL_BANK_OWN_IN_TRANSIT b) _ (bankOwner_notFe b h.1)) (.raise _ (by decide))) (.refl d)
  · exact .refl d

theorem Dev.memWrite_feKeeps (g b w x : Nat) : d.FeKeeps (d.memWrite g b w x).2 := by
  unfold Dev.memWrite
  split
  · exact .of_regs rfl rfl rfl rfl
  · exact .trans (.trans (.wr _ _ (by decide)) (.wr _ _ (by decide))) (.raise _ (by decide))

theorem Dev.storeWord_feKeeps (x : Nat) : d.FeKeeps (d.storeWord 1 x) := by
  unfold Dev.storeWord
  dsimp only
  split
  · have hw : d.FeKeeps (if d.domOn (bankDom (d.f (Fld.MEMCTL_STORE_CFG_BANK 1))) then
        (d.drained (storeGroup 1) (d.f (Fld.MEMCTL_STORE_CFG_BANK 1))).memWrite (storeGroup 1)
          (d.f (Fld.MEMCTL_STORE_CFG_BANK 1)) (d.f (Fld.MEMCTL_STORE_PTR_PTR 1)) x else (false, d)).2 := by
      split
      · exact (d.drained_feKeeps _ _).trans (Dev.memWrite_feKeeps _ _ _ _ _)
      · exact .refl d
    split <;> rename_i he <;> rw [he] at hw
    · exact hw.trans (.trans (.setF _ _ (by decide)) (.raise _ (by decide)))
    · refine hw.trans (.ite (.setF _ _ (by decide)) (.trans (.setF _ _ (by decide)) (.ite (.refl _) ?_)))
      exact .trans (.setF _ _ (by decide)) (.raise _ (by decide))
  · exact .refl d

theorem Dev.storeWords_feKeeps (xs : List Nat) : d.FeKeeps (d.storeWords 1 xs) :=
  .foldl xs _ (fun x e => e.storeWord_feKeeps x) d

theorem Dev.closeCycle_feKeeps : d.FeKeeps d.closeCycle := by
  unfold Dev.closeCycle
  split
  · exact .refl d
  · exact .qty _

theorem Dev.qtyRow_feKeeps (t : TickIn) : d.FeKeeps (d.qtyRow t) := by
  unfold Dev.qtyRow
  exact .trans (.ite d.closeCycle_feKeeps (.refl d)) (.trans (.qty _) (.ite (Dev.closeCycle_feKeeps _) (.refl _)))

/-! ### The types of the outlets (R167) -/

theorem Dev.typeChecks_feKeeps : d.FeKeeps d.typeChecks :=
  .foldl _ _ (fun k _ => .trans (.trans (.setF (Fld.ENERGY_OUT_CFG_TYPE_OK k) _ (notFe_of_le (by
    simp only [Fld.ENERGY_OUT_CFG_TYPE_OK, Reg.ENERGY_OUT_CFG]; omega))) (.raiseIf _ _ (by decide))) (.qty _)) d

/-! ### Accesses that are not performed (R21, R24, R231) -/

theorem Dev.violation_feKeeps (r : Requester) (kind addr : Nat) (write : Bool) : d.FeKeeps (d.violation r kind addr write) :=
  .ite (.trans (.trans (.trans (.wr _ _ (by decide)) (.wr _ _ (by decide))) (.wr _ _ (by decide))) (.raise _ (by decide)))
    (.refl d)

/-- A page that is not open lets no access through. -/
theorem Dev.reachGate_shut {r : Requester} {p : Page} (h : d.opens r p = false) (off a : Nat) (w : Bool) :
    ∃ x, x ≠ Gate.go ∧ d.reachGate r (.reg p off) a w = (x, d) := by
  simp only [Dev.opens, Bool.and_eq_false_iff, Bool.not_eq_false', bne_eq_false_iff_eq] at h
  unfold Dev.reachGate
  rcases hp : d.present r with _ | _
  · exact ⟨.refuse, by decide, rfl⟩
  · by_cases hr : (r == .hostDma || r == .uart) = true
    · exact ⟨.refuse, by decide, by simp [reach, hr]⟩
    · refine ⟨d.domGate p.dom, ?_, by simp [reach, hr, Target.dom]⟩
      simp only [Bool.or_eq_true, beq_iff_eq, not_or] at hr
      simp only [hp, hr.1, hr.2, Bool.true_eq_false, false_or] at h
      unfold Dev.domGate
      rcases h with h | h
      · simp [h]
      · rw [h]
        split <;> decide

/-- R21, R24, R356: a write to a page that is not open changes nothing. -/
theorem Dev.cmdWrite_shut {r : Requester} {p : Page} {a : Nat} (off v : Nat) (h : d.opens r p = false)
    (ha : a = pageBase p + off) (ho : off < 0x1000) (h4 : off % 4 = 0) : ∃ b, d.cmdWrite r a v .word = d.answer b := by
  subst ha
  obtain ⟨x, hx, hg⟩ := d.reachGate_shut h off (pageBase p + off) true
  unfold Dev.cmdWrite Dev.busWrite
  rw [if_pos (aligned_page p off h4), decodeAddr_page p off ho]
  simp only [hg]
  cases x with
  | go => exact absurd rfl hx
  | refuse => exact ⟨_, rfl⟩
  | wait => exact ⟨_, rfl⟩

/-- A write to the page MET_FE by a requester that may not write it. -/
theorem Dev.cmdWrite_unwritable {r : Requester} {a : Nat} (off v : Nat) (h : d.writable r .metFe = false)
    (ha : a = pageBase .metFe + off) (ho : off < 0x1000) (h4 : off % 4 = 0) : d.FeKeeps (d.cmdWrite r a v .word) := by
  rcases hop : d.opens r .metFe with _ | _
  · obtain ⟨b, hb⟩ := d.cmdWrite_shut off v hop ha ho h4
    rw [hb]
    exact .answer b
  · have hl : r.legal = false := by
      simpa [Dev.writable, hop, Page.owner] using h
    rw [d.cmdWrite_app off v hop hl rfl ha ho h4]
    exact (d.violation_feKeeps _ _ _ _).trans (.answer _)

end Sys2Proof.Machine
end

section
/-! SUPPORT. R139–R154: the word of one channel for one tick, and the channel it leaves. -/

namespace Sys2Proof.Machine

/-! ### The sample word (R149) -/

theorem sampleWord_fields {n : Nat} (v : Int) (settle ovl hold low : Bool) (hn : n < 16) :
    let w := sampleWord v settle ovl hold low n
    w < 2 ^ 32 ∧ bits w 8 24 = unsgn 24 v ∧ bits w 0 4 = n
      ∧ bit w 7 = settle ∧ bit w 6 = ovl ∧ bit w 5 = hold ∧ bit w 4 = low := by
  have hv := unsgn_lt 24 v
  have hs := b2n_lt settle
  have ho := b2n_lt ovl
  have hh := b2n_lt hold
  have hl := b2n_lt low
  have hbit : ∀ b : Bool, (b2n b == 1) = b := by decide
  simp only [sampleWord, bits, bit]
  generalize unsgn 24 v = u at hv ⊢
  refine ⟨?_, ?_, ?_, .trans ?_ (hbit settle), .trans ?_ (hbit ovl), .trans ?_ (hbit hold), .trans ?_ (hbit low)⟩
  · omega
  · omega
  · omega
  all_goals exact congrArg (· == 1) (by omega)

theorem clamp_eq {lo hi : Int} (h : lo ≤ hi) (i : Int) : clamp lo hi i = max lo (min hi i) := by
  unfold clamp
  split
  · omega
  · split <;> omega

/-- The value that a corrected sample's word shows (R154). -/
theorem sgn_correctSample (d : Dev) (n : Nat) (s gc : Int) (low : Bool) :
    sgn 24 (unsgn 24 (d.correctSample n s gc low).1) = (d.correctSample n s gc low).1 := by
  refine sgn_unsgn 23 ?_ ?_ <;> simp only [Dev.correctSample, clamp_eq (show (-8388607 : Int) ≤ 8388607 by decide)] <;> omega

/-! ### What a channel carries from tick to tick -/

/-- The state of the chain of R139, R140 and its stream. -/
def FeChan.signal (h : FeChan) : Int × Int × Int × List Int := (h.dec, h.hpf, h.int, h.stream)

theorem FeChan.take_signal {g h : FeChan} (hs : g.signal = h.signal) (c : Nat) (x : Int) :
    (g.take c x).signal = (h.take c x).signal := by
  simp only [FeChan.signal, Prod.mk.injEq] at hs
  obtain ⟨hd, hp, hi, ht⟩ := hs
  simp only [FeChan.signal, FeChan.take, hd, hp, hi, ht]

theorem FeChan.takes_signal (c : Nat) : ∀ (xs : List (Int × Bool)) {g h : FeChan}, g.signal = h.signal →
    (xs.foldl (fun h x => h.take c x.1) g).signal = (xs.foldl (fun h x => h.take c x.1) h).signal
  | [], _, _, hs => hs
  | x :: xs, _, _, hs => FeChan.takes_signal c xs (FeChan.take_signal hs c x.1)

theorem FeChan.sample_of_signal {g h : FeChan} (hs : g.signal = h.signal) (t : TickIn) (n : Nat) (fir : Int) :
    g.sample t n fir = h.sample t n fir := by
  simp only [FeChan.signal, Prod.mk.injEq] at hs
  simp only [FeChan.sample, hs.2.2.2]

/-- What the chain leaves of a channel, it leaves over every value it takes in. -/
theorem FeChan.takes_keep {β : Type} (q : FeChan → β) (hq : ∀ h c x, q (FeChan.take h c x) = q h) (c : Nat) :
    ∀ (xs : List (Int × Bool)) (h : FeChan), q (xs.foldl (fun h x => h.take c x.1) h) = q h
  | [], _ => rfl
  | x :: xs, h => (FeChan.takes_keep q hq c xs _).trans (hq h c x.1)

/-- R150: a channel that has been off since it was powered has twelve invalid samples to come. -/
theorem FeChan.begin_new (t : TickIn) (c n : Nat) : let h := ({} : FeChan).begin t c n
    h.rem = 12 ∧ h.low = false ∧ h.held = none := by
  simp [FeChan.begin, settleCount]

theorem settleCount_same {c : Nat} (h : cfgEn c = true) : settleCount (some c) c false = 0 := by
  simp [settleCount, h]

/-- R150: a channel in the high range whose settings stand has nothing to settle. -/
theorem FeChan.begin_same {h : FeChan} {t : TickIn} {c n : Nat} (hw : bit t.wrote n = false) (hc : h.cfg = some c)
    (he : cfgEn c = true) (hg : h.gain = some (cfgPga c)) (hr : h.rem = 0) (hl : h.low = false) : let g := h.begin t c n
    g.rem = 0 ∧ g.low = false ∧ g.signal = h.signal := by
  unfold FeChan.begin
  simp only [hw, hc, he, Bool.false_eq_true, if_false, if_true]
  split <;> simp [hc, hg, hr, hl, settleCount_same he, FeChan.signal]

@[simp] theorem FeChan.count_rem (h : FeChan) (k : Nat) (good spliced : Bool) : (h.count k good spliced).rem = h.rem := by
  unfold FeChan.count
  dsimp only
  split <;> rfl

/-! ### The word of a channel (R146–R154) -/

/-- From `d` to `e` of the registers only CH_STAT of channel `n` has changed; no event is lost. -/
structure Dev.Marks (n : Nat) (d e : Dev) : Prop where
  rd : ∀ a, a ≠ Reg.MET_FE_CH_STAT n → e.rd a = d.rd a
  fe : e.fe = d.fe
  grows : d.Grows e

namespace Dev.Marks

variable {n : Nat} {d e g : Dev}

theorem refl (d : Dev) : d.Marks n d := ⟨fun _ _ => rfl, rfl, .of_eq rfl⟩

theorem trans (h : d.Marks n e) (k : e.Marks n g) : d.Marks n g :=
  ⟨fun a ha => (k.rd a ha).trans (h.rd a ha), k.fe.trans h.fe, h.grows.trans k.grows⟩

theorem setF (f : Field) (v : Nat) (h : f.reg = Reg.MET_FE_CH_STAT n) : d.Marks n (d.setF f v) :=
  ⟨fun _ ha => Dev.rd_setF_ne d f v (h ▸ ha), rfl, .of_eq rfl⟩

theorem raise (k : Nat) : d.Marks n (d.raise k) := ⟨fun _ _ => rfl, rfl, .raise k⟩

theorem raiseIf (c : Bool) (k : Nat) : d.Marks n (d.raiseIf c k) := by
  cases c
  · exact refl d
  · exact raise k

theorem rangeChg (d : Dev) : d.Marks n (d.rangeChg n) := (setF (Fld.MET_FE_CH_STAT_RCHG_CNT n) _ rfl).trans (raise _)

end Dev.Marks

/-- R152: the overload flag of a channel, and its event where it was not set. -/
def Dev.markOvl (d : Dev) (n : Nat) (o : Bool) : Dev :=
  if o then (d.raiseIf (!d.on (Fld.MET_FE_CH_STAT_OVL n)) Ev.MET_FE_OVL).setF (Fld.MET_FE_CH_STAT_OVL n) 1 else d

theorem Dev.markOvl_marks (d : Dev) (n : Nat) (o : Bool) : d.Marks n (d.markOvl n o) := by
  unfold Dev.markOvl
  split
  · exact .trans (.raiseIf _ _) (.setF (Fld.MET_FE_CH_STAT_OVL n) _ rfl)
  · exact .refl d

/-- The word `w` of channel `n`, which is left as `h`. -/
def Dev.emitWord (d : Dev) (n : Nat) (h : FeChan) (w : Nat) : Dev :=
  (((d.wr (Reg.MET_FE_LAST n) w).setF (Fld.MET_FE_CH_STAT_SETTLE_LEFT n) h.rem).setB (Fld.MET_FE_CH_STAT_RNG n) h.low).setFeChan n h

section
variable (d : Dev) (t : TickIn) (n : Nat) (a : AdcIn) (ov : Bool) {c : Nat} (hc : (t.cfg[n]?).getD 0 = c)
include hc

/-- R148: a channel that is off emits no word. -/
theorem Dev.feWord_off (he : cfgEn c = false) : d.feWord t n a ov = d.emitWord n { cfg := some c } 0 := by
  unfold Dev.feWord
  simp only [hc, he, Bool.not_false, if_true]
  rfl

/-- R150, R151: a channel with samples left to settle emits an invalid word. -/
theorem Dev.feWord_settling (he : cfgEn c = true) (hr : ((d.feChan n).begin t c n).rem ≠ 0) :
    ∃ x h o, d.Marks n x ∧ ((d.feChan n).rem = 0 → Ev.MET_FE_SETTLE ∈ x.edges)
      ∧ h.rem = ((d.feChan n).begin t c n).rem - 1
      ∧ d.feWord t n a ov = x.emitWord n h (match ((d.feChan n).begin t c n).held with
          | some (v, r) => sampleWord v true o true r n
          | none => sampleWord 0 true o false ((d.feChan n).begin t c n).low n) := by
  unfold Dev.feWord
  simp only [hc, he, Bool.not_true, Bool.false_eq_true, if_false]
  have hrem : ∀ (xs : List (Int × Bool)) (h : FeChan), (xs.foldl (fun h x => h.take c x.1) h).rem = h.rem :=
    FeChan.takes_keep FeChan.rem (fun _ _ _ => rfl) c
  have hheld : ∀ (xs : List (Int × Bool)) (h : FeChan), (xs.foldl (fun h x => h.take c x.1) h).held = h.held :=
    FeChan.takes_keep FeChan.held (fun _ _ _ => rfl) c
  have hlow : ∀ (xs : List (Int × Bool)) (h : FeChan), (xs.foldl (fun h x => h.take c x.1) h).low = h.low :=
    FeChan.takes_keep FeChan.low (fun _ _ _ => rfl) c
  simp only [hrem, hheld, hlow, bne_iff_ne.2 hr, if_true, Bool.and_true]
  refine ⟨_, _, _, .trans (.raiseIf _ _) (Dev.markOvl_marks _ n _), fun h0 => (Dev.markOvl_marks _ n _).grows _ ?_, ?_, rfl⟩
  · simp [h0, Dev.raiseIf]
  · rw [FeChan.count_rem]

/-- R154: a channel with nothing left to settle emits the corrected value of its interpolated sample. -/
theorem Dev.feWord_valid (he : cfgEn c = true) (hr : ((d.feChan n).begin t c n).rem = 0) :
    let g := (d.feChan n).begin t c n
    let xs := a.x.map (adcValue (if g.low then cfgPgaLo c else cfgPga c))
    let vo := d.correctSample n ((xs.foldl (fun h x => h.take c x.1) g).sample t n a.fir) ((t.gc[n]?).getD 0) g.low
    ∃ x h, d.Marks n x ∧ h.rem = 0
      ∧ d.feWord t n a ov = x.emitWord n h (sampleWord vo.1 false ((ov || xs.any (·.2)) || vo.2) false g.low n) := by
  intro g xs vo
  subst hc
  generalize hw : d.feWord t n a ov = e
  unfold Dev.feWord at hw
  extract_lets c h₀ dOff g' xs' h s o₀ spliced d₁ mark w₀ h₁ vo' o w down good h₂ d₂ out h₃ d₃ at hw
  have hrem : h.rem = 0 := (FeChan.takes_keep FeChan.rem (fun _ _ _ => rfl) c xs g).trans hr
  have hlow : h.low = g.low := FeChan.takes_keep FeChan.low (fun _ _ _ => rfl) c xs g
  have hd₁ : d₁ = d := by simp only [d₁, hrem, bne_self_eq_false, Bool.and_false]; rfl
  have hvo : vo' = vo := by simp only [vo', hd₁, hlow]; rfl
  have hout : ∃ x k, d.Marks n x ∧ k.rem = 0 ∧ out = (k, w, x) := by
    have hx : d.Marks n d₂ := hd₁ ▸ Dev.markOvl_marks d₁ n o
    have hk : h₂.rem = 0 := (FeChan.count_rem _ _ _ _).trans hrem
    simp only [out, if_neg (show ¬ (h.rem != 0) = true by simp [hrem])]
    split
    · exact ⟨_, _, hx.trans (.rangeChg _), by exact hk, rfl⟩
    · exact ⟨_, _, hx, hk, rfl⟩
  obtain ⟨x, k, hm, hk, ho⟩ := hout
  rw [if_neg (show ¬ (!cfgEn c) = true by simp [c, he])] at hw
  refine ⟨x, k, hm, hk, ?_⟩
  rw [← hw, ← hlow, ← hvo]
  simp only [d₃, h₃, ho]
  rfl

/-- The form of every word. -/
theorem Dev.feWord_emits : ∃ x h w, d.Marks n x ∧ d.feWord t n a ov = x.emitWord n h w := by
  rcases he : cfgEn c with _ | _
  · exact ⟨d, _, _, .refl d, d.feWord_off t n a ov hc he⟩
  · by_cases hr : ((d.feChan n).begin t c n).rem = 0
    · obtain ⟨x, h, hm, -, e⟩ := d.feWord_valid t n a ov hc he hr
      exact ⟨x, h, _, hm, e⟩
    · obtain ⟨x, h, o, hm, -, -, e⟩ := d.feWord_settling t n a ov hc he hr
      exact ⟨x, h, _, hm, e⟩

end

end Sys2Proof.Machine
end

section
/-! SUPPORT. R146–R154: the words of a tick, channel after channel. -/

namespace Sys2Proof.Machine

variable (d : Dev) {n : Nat}

/-! ### What a word writes -/

theorem feLast_ne_stat (hn : n < 16) {m : Nat} : Reg.MET_FE_LAST m ≠ Reg.MET_FE_CH_STAT n := by
  simp only [Reg.MET_FE_LAST, Reg.MET_FE_CH_STAT]
  omega

theorem Dev.rd_emitWord (h : FeChan) (w : Nat) {a : Nat} (hs : a ≠ Reg.MET_FE_CH_STAT n) :
    (d.emitWord n h w).rd a = (d.wr (Reg.MET_FE_LAST n) w).rd a :=
  (Dev.rd_setF_ne _ (Fld.MET_FE_CH_STAT_RNG n) _ hs).trans (Dev.rd_setF_ne _ (Fld.MET_FE_CH_STAT_SETTLE_LEFT n) _ hs)

theorem Dev.emitWord_last (hn : n < 16) (h : FeChan) {w : Nat} (hw : w < 2 ^ 32) :
    (d.emitWord n h w).rd (Reg.MET_FE_LAST n) = w := by
  rw [d.rd_emitWord h w (feLast_ne_stat hn), Dev.rd_wr_same, Nat.mod_eq_of_lt hw]

theorem Dev.emitWord_left {h : FeChan} (hr : h.rem < 2 ^ 5) (w : Nat) :
    (d.emitWord n h w).f (Fld.MET_FE_CH_STAT_SETTLE_LEFT n) = h.rem := by
  refine (Dev.f_setF_disj _ (Fld.MET_FE_CH_STAT_RNG n) (Fld.MET_FE_CH_STAT_SETTLE_LEFT n) _ rfl (by simp [Fld.MET_FE_CH_STAT_RNG])
    (.inl (by simp [Fld.MET_FE_CH_STAT_RNG, Fld.MET_FE_CH_STAT_SETTLE_LEFT]))).trans ?_
  exact (Dev.f_setF_same _ (Fld.MET_FE_CH_STAT_SETTLE_LEFT n) _ (by simp [Fld.MET_FE_CH_STAT_SETTLE_LEFT])).trans
    (Nat.mod_eq_of_lt hr)

/-! ### The words of the other channels -/

/-- From `d` to `e` nothing of channel `n` has changed; the ticks whose words are to come stand, and no event is lost. -/
structure Dev.Beside (n : Nat) (d e : Dev) : Prop where
  last : e.rd (Reg.MET_FE_LAST n) = d.rd (Reg.MET_FE_LAST n)
  stat : e.rd (Reg.MET_FE_CH_STAT n) = d.rd (Reg.MET_FE_CH_STAT n)
  ofs : e.rd (Reg.MET_CAL_OFS n) = d.rd (Reg.MET_CAL_OFS n)
  chan : e.feChan n = d.feChan n
  ticks : e.fe.ticks = d.fe.ticks
  grows : d.Grows e

theorem Dev.Beside.refl : d.Beside n d := ⟨rfl, rfl, rfl, rfl, rfl, .of_eq rfl⟩

theorem Dev.Beside.trans {d e g : Dev} (h : d.Beside n e) (k : e.Beside n g) : d.Beside n g :=
  ⟨k.last.trans h.last, k.stat.trans h.stat, k.ofs.trans h.ofs, k.chan.trans h.chan, k.ticks.trans h.ticks,
    h.grows.trans k.grows⟩

/-- What the word of a channel leaves. -/
theorem Dev.feWord_frame (t : TickIn) (m : Nat) (a : AdcIn) (ov : Bool) :
    (∀ r, r ≠ Reg.MET_FE_LAST m → r ≠ Reg.MET_FE_CH_STAT m → (d.feWord t m a ov).rd r = d.rd r)
    ∧ (∀ k, k ≠ m → (d.feWord t m a ov).feChan k = d.feChan k)
    ∧ (d.feWord t m a ov).fe.ticks = d.fe.ticks ∧ d.Grows (d.feWord t m a ov) := by
  obtain ⟨x, h, w, hm, e⟩ := d.feWord_emits t m a ov rfl
  rw [e]
  refine ⟨fun r hl hs => ?_, fun k hk => ?_, ?_, hm.grows.trans (.of_eq rfl)⟩
  · rw [x.rd_emitWord h w hs, Dev.rd_wr_ne x w hl, hm.rd r hs]
  · exact (vGet_vSet_ne _ hk _ _).trans (congrArg (fun f : Fe => vGet f.chans k {}) hm.fe)
  · exact (congrArg Fe.ticks hm.fe :)

theorem Dev.feWord_beside (t : TickIn) {m : Nat} (a : AdcIn) (ov : Bool) (hn : n < 16) (hm : m < 16) (h : m ≠ n) :
    d.Beside n (d.feWord t m a ov) := by
  obtain ⟨hr, hc, ht, hg⟩ := d.feWord_frame t m a ov
  refine ⟨hr _ ?_ (feLast_ne_stat hm), hr _ (feLast_ne_stat hn).symm ?_, hr _ ?_ ?_, hc n h.symm, ht, hg⟩ <;>
    simp only [Reg.MET_FE_LAST, Reg.MET_FE_CH_STAT, Reg.MET_CAL_OFS] <;> omega

/-! ### Sixteen channels -/

/-- Steps in turn, seen from step `n`: what holds from before to after every other step holds before it and after it. -/
theorem forUpto_around {α : Type} {R : α → α → Prop} (hrefl : ∀ a, R a a) (htrans : ∀ {a b c}, R a b → R b c → R a c)
    {f : Nat → α → α} {n : Nat} (a : α) : ∀ N, (∀ m < N, m ≠ n → ∀ a, R a (f m a)) →
    (N ≤ n → R a (forUpto N f a)) ∧ (n < N → ∃ b, R a b ∧ R (f n b) (forUpto N f a)) := by
  intro N
  induction N with
  | zero => exact fun _ => ⟨fun _ => hrefl a, fun h => absurd h (Nat.not_lt_zero n)⟩
  | succ N ih =>
    intro h
    obtain ⟨hle, hlt⟩ := ih fun m hm => h m (Nat.lt_succ_of_lt hm)
    rw [forUpto_succ]
    refine ⟨fun hN => htrans (hle (by omega)) (h N (by omega) (by omega) _), fun hn => ?_⟩
    by_cases hN : N = n
    · subst hN
      exact ⟨_, hle (le_refl N), hrefl _⟩
    · obtain ⟨b, hab, hb⟩ := hlt (by omega)
      exact ⟨b, hab, htrans hb (h N (by omega) hN _)⟩

/-- R146, R159: the words of the oldest tick, where no publication is due. -/
theorem Dev.sampleWords_eq {t : TickIn} {ts : List TickIn} (s : List AdcIn) (ovl : Nat) (hm : d.domOn .met = true)
    (hq : d.qty.closed = []) (ht : d.fe.ticks = t :: ts) :
    d.sampleWords s ovl = (({ d with fe.ticks := ts } : Dev).feEmit t s ovl).qtyRow t := by
  have hp : d.publishAll = d := by simp [Dev.publishAll, hq, forUpto]
  unfold Dev.sampleWords
  simp only [hp, hm, ht]

/-- What SAMPLE_WORDS_EMIT leaves of channel `n` is what its own word leaves. -/
theorem Dev.sampleWords_channel {t : TickIn} {ts : List TickIn} (s : List AdcIn) (ovl : Nat) (hm : d.domOn .met = true)
    (hq : d.qty.closed = []) (ht : d.fe.ticks = t :: ts) (hn : n < 16) :
    ∃ b : Dev, b.feChan n = d.feChan n ∧ b.f (Fld.MET_CAL_OFS_OFS n) = d.f (Fld.MET_CAL_OFS_OFS n)
      ∧ let x := b.feWord t n ((s[n]?).getD ⟨[], 0⟩) (bit ovl n)
        let e := d.sampleWords s ovl
        e.rd (Reg.MET_FE_LAST n) = x.rd (Reg.MET_FE_LAST n)
          ∧ e.f (Fld.MET_FE_CH_STAT_SETTLE_LEFT n) = x.f (Fld.MET_FE_CH_STAT_SETTLE_LEFT n) ∧ x.Grows e
          ∧ e.fe.ticks = ts ∧ e.fe.last = (t.cyc, t.tick) := by
  rw [d.sampleWords_eq s ovl hm hq ht]
  generalize hd : ({ d with fe.ticks := ts } : Dev) = d₀
  have hr : ∀ a, d₀.rd a = d.rd a := fun a => by rw [← hd]; rfl
  obtain ⟨-, hlt⟩ := forUpto_around (R := Dev.Beside n) (fun a => .refl a) (fun h k => h.trans k) (n := n)
    (f := fun m d => d.feWord t m ((s[m]?).getD ⟨[], 0⟩) (bit ovl m)) d₀ 16 fun m hm hmn a => a.feWord_beside t _ _ hn hm hmn
  obtain ⟨b, hb, hg⟩ := hlt hn
  have hk : Dev.FeKeeps _ ((d₀.feEmit t s ovl).qtyRow t) := (Dev.storeWords_feKeeps _ _).trans (Dev.qtyRow_feKeeps _ t)
  have hl : isFeReg (Reg.MET_FE_LAST n) = true ∧ isFeReg (Reg.MET_FE_CH_STAT n) = true := by
    simp only [isFeReg_iff, Reg.MET_FE_LAST, Reg.MET_FE_CH_STAT]
    omega
  refine ⟨b, hb.chan.trans (by rw [← hd]; rfl), Dev.f_of_rd (hb.ofs.trans (hr _)), (hk.rd _ hl.1).trans hg.last,
    Dev.f_of_rd ((hk.rd _ hl.2).trans hg.stat), hg.grows.trans hk.grows, ?_, (congrArg Fe.last hk.fe :)⟩
  have hts : d₀.fe.ticks = ts := by rw [← hd]
  exact (congrArg Fe.ticks hk.fe :).trans (hg.ticks.trans (((b.feWord_frame t n _ _).2.2.1).trans (hb.ticks.trans hts)))

/-! ### SAMPLE_WORDS_EMIT -/

section
variable (t : TickIn) (a : AdcIn) (ov : Bool) {c : Nat} (hc : t.cfg[n]? = some c)
include hc

/-- R148: the word register of a channel that is off. -/
theorem Dev.feWord_silent (hn : n < 16) (he : cfgEn c = false) : (d.feWord t n a ov).rd (Reg.MET_FE_LAST n) = 0
    ∧ (d.feWord t n a ov).f (Fld.MET_FE_CH_STAT_SETTLE_LEFT n) = 0 := by
  rw [d.feWord_off t n a ov (by rw [hc]; rfl) he]
  exact ⟨d.emitWord_last hn _ (by decide), d.emitWord_left (Nat.two_pow_pos 5) _⟩

/-- R150, R151: the first word of a channel that is newly powered. -/
theorem Dev.feWord_new (hn : n < 16) (he : cfgEn c = true) (h0 : d.feChan n = {}) :
    let x := d.feWord t n a ov
    bit (x.rd (Reg.MET_FE_LAST n)) 7 = true ∧ bits (x.rd (Reg.MET_FE_LAST n)) 0 4 = n
      ∧ x.f (Fld.MET_FE_CH_STAT_SETTLE_LEFT n) = 11 ∧ Ev.MET_FE_SETTLE ∈ x.edges := by
  obtain ⟨hr, -, hh⟩ := FeChan.begin_new t c n
  rw [← h0] at hr hh
  obtain ⟨x, h, o, -, hs, hrem, e⟩ := d.feWord_settling t n a ov (by rw [hc]; rfl) he (by rw [hr]; decide)
  rw [hr] at hrem
  rw [hh] at e
  obtain ⟨hw, -, hnum, h7, -⟩ := sampleWord_fields 0 true o false ((d.feChan n).begin t c n).low hn
  rw [e]
  refine ⟨?_, ?_, (x.emitWord_left (by rw [hrem]; decide) _).trans hrem, hs (by rw [h0])⟩ <;> rw [x.emitWord_last hn h hw]
  · exact h7
  · exact hnum

/-- R154: the word of a channel whose settings stand, in the high range with nothing to settle. -/
theorem Dev.feWord_steady (hn : n < 16) (he : cfgEn c = true) (hw : bit t.wrote n = false) (hs : (d.feChan n).cfg = some c)
    (hg : (d.feChan n).gain = some (cfgPga c)) (hr : (d.feChan n).rem = 0) (hl : (d.feChan n).low = false) :
    let xs := a.x.map (adcValue (cfgPga c))
    let vo := d.correctSample n ((xs.foldl (fun h x => h.take c x.1) (d.feChan n)).sample t n a.fir) ((t.gc[n]?).getD 0) false
    let w := (d.feWord t n a ov).rd (Reg.MET_FE_LAST n)
    sgn 24 (bits w 8 24) = vo.1 ∧ bit w 7 = false ∧ bit w 6 = ((ov || xs.any (·.2)) || vo.2)
      ∧ bit w 5 = false ∧ bit w 4 = false ∧ bits w 0 4 = n := by
  obtain ⟨hrem, hlow, hsig⟩ := FeChan.begin_same hw hs he hg hr hl
  obtain ⟨x, h, -, -, e⟩ := d.feWord_valid t n a ov (by rw [hc]; rfl) he hrem
  simp only [hlow, Bool.false_eq_true, if_false, FeChan.sample_of_signal (FeChan.takes_signal c _ hsig)] at e
  intro xs vo w
  obtain ⟨hlt, hv, hnum, h7, h6, h5, h4⟩ := sampleWord_fields vo.1 false ((ov || xs.any (·.2)) || vo.2) false false hn
  have hword : w = sampleWord vo.1 false ((ov || xs.any (·.2)) || vo.2) false false n := by
    simp only [w, e]
    exact x.emitWord_last hn h hlt
  rw [hword]
  exact ⟨by rw [hv]; exact sgn_correctSample .., h7, h6, h5, h4, hnum⟩

end

/-- The correction of a sample in the high range (R154). -/
theorem Dev.correctSample_high (m : Nat) (s gc : Int) : d.correctSample m s gc false =
    let raw := roundDiv (s * (4194304 + gc)) 4194304 + sgn 24 (d.f (Fld.MET_CAL_OFS_OFS m))
    (max (-8388607) (min 8388607 raw), decide (raw < -8388607 ∨ 8388607 < raw)) := by
  simp [Dev.correctSample, clamp_eq]

/-- Settles O34: what the command leaves of a channel is what the channel's own word leaves (`Dev.sampleWords_channel`), and
that word is the one of a channel that is off, newly powered or steady. -/
theorem sampleWords : Obligations.SampleWords := by
  unfold Obligations.SampleWords
  intro s v ovl t ts n c hm hq ht hn hc
  refine effects_run (f := fun d => d.sampleWords v.toList ovl.toNat) rfl ?_
  obtain ⟨b, hchan, hofs, hlast, hleft, hgrows, hticks, hat⟩ :=
    (s.dev.answer .none).sampleWords_channel v.toList ovl.toNat hm hq ht hn
  change b.feChan n = s.dev.feChan n at hchan
  change b.f (Fld.MET_CAL_OFS_OFS n) = s.dev.f (Fld.MET_CAL_OFS_OFS n) at hofs
  refine ⟨hticks, hat, fun he => ?_, fun he h0 => ?_, fun he _ hw hs hg hr hl => ?_⟩
  · rw [hlast, hleft]
    exact b.feWord_silent t _ _ hc hn he
  · obtain ⟨h7, hnum, hrem, hev⟩ :=
      b.feWord_new t ((v.toList[n]?).getD ⟨[], 0⟩) (bit ovl.toNat n) hc hn he (hchan.trans h0)
    rw [hlast, hleft]
    exact ⟨h7, hnum, hrem, hgrows _ hev⟩
  · rw [← hchan] at hs hg hr hl ⊢
    rw [← hofs]
    obtain ⟨hv, h7, h6, h5, h4, hnum⟩ :=
      b.feWord_steady t ((v.toList[n]?).getD ⟨[], 0⟩) (bit ovl.toNat n) hc hn he hw hs hg hr hl
    rw [Dev.correctSample_high] at hv h6
    intro a xs smp raw w
    rw [show w = _ from hlast]
    refine ⟨hv, h7, ?_, h5, h4, hnum⟩
    rw [h6]
    simp only [Bool.or_eq_true, decide_eq_true_eq, or_assoc]
    rfl

end Sys2Proof.Machine
end

section
/-! SUPPORT. R137, R138, R150: writes of CH_CFG. -/

namespace Sys2Proof.Machine

variable (d : Dev)

/-- R137: the modes of the channels. -/
theorem modeAllowed_iff {n m : Nat} (hn : n < 16) : modeAllowed n m = true ↔
    (n ∈ [0, 1, 2, 7, 9, 11, 13] ∧ m = 0) ∨ (n ∈ [3, 4, 5, 6] ∧ 1 ≤ m ∧ m ≤ 3) ∨ (n ∈ [8, 10, 12, 14] ∧ 1 ≤ m ∧ m ≤ 4)
      ∨ (n = 15 ∧ m ≤ 4) := by
  interval_cases n <;> simp [modeAllowed]

/-- The fields of CH_CFG, where MODE's reset value is `m`. -/
def chCfgFields (m : Nat) : List FieldRow :=
  [⟨0, 1, .rw, 0, .no⟩, ⟨1, 3, .rwu, m, .no⟩, ⟨4, 3, .rwu, 0, .no⟩, ⟨8, 3, .rwu, 0, .no⟩, ⟨11, 1, .rwu, 0, .no⟩,
    ⟨12, 1, .rwu, 0, .no⟩, ⟨13, 1, .rwu, 1, .no⟩, ⟨16, 4, .rwu, 2, .no⟩, ⟨20, 4, .rwu, 0xc, .no⟩]

theorem chCfg_fields : ∀ n < 16, fieldsAt .metFe (0x40 + 4 * n) = chCfgFields (b2n !modeAllowed n 0) := by decide

theorem chCfg_place (n : Nat) : Reg.MET_FE_CH_CFG n = pageBase .metFe + (0x40 + 4 * n) := by
  simp only [Reg.MET_FE_CH_CFG, pageBase, Page.num]
  omega

theorem chCfg_nth : ∀ n < 16, nth (0x40 + 4 * n) 0x40 16 4 = some n := by decide

theorem bit_of_bits {x y k : Nat} (h : bits x k 1 = bits y k 1) : bit x k = bit y k :=
  congrArg (· == 1) h

theorem sumN_cons (x : Nat) (l : List Nat) : sumN (x :: l) = x + sumN l := by
  unfold sumN
  rw [List.foldl_cons, Nat.add_comm 0 x]
  exact List.foldl_assoc

theorem fieldsAfter_cons (f : FieldRow) (fs : List FieldRow) (old v : Nat) (lock legal unsealed : Bool) :
    fieldsAfter (f :: fs) old v lock legal unsealed
      = f.next old v lock legal unsealed * 2 ^ f.lo + fieldsAfter fs old v lock legal unsealed := sumN_cons _ _

theorem next_rw (lo w reset old v : Nat) (kept : Kept) (legal unsealed : Bool) :
    (⟨lo, w, .rw, reset, kept⟩ : FieldRow).next old v false legal unsealed = bits v lo w := rfl

theorem next_rwu (lo w reset old v : Nat) (kept : Kept) (lock legal : Bool) :
    (⟨lo, w, .rwu, reset, kept⟩ : FieldRow).next old v lock legal true = bits v lo w := rfl

/-- Where the two low fields of a word of CH_CFG stand. -/
theorem chCfgWord_low {x0 x1 x4 x8 x11 x12 x13 x16 x20 : Nat} (h0 : x0 < 2 ^ 1) (h1 : x1 < 2 ^ 3) (h4 : x4 < 2 ^ 3)
    (h8 : x8 < 2 ^ 3) (h11 : x11 < 2 ^ 1) (h12 : x12 < 2 ^ 1) (h13 : x13 < 2 ^ 1) (h16 : x16 < 2 ^ 4) (h20 : x20 < 2 ^ 4) :
    let w := x0 * 2 ^ 0 + (x1 * 2 ^ 1 + (x4 * 2 ^ 4 + (x8 * 2 ^ 8 + (x11 * 2 ^ 11 + (x12 * 2 ^ 12 + (x13 * 2 ^ 13
      + (x16 * 2 ^ 16 + (x20 * 2 ^ 20 + 0))))))))
    w < 2 ^ 32 ∧ bits w 1 3 = x1 ∧ bits w 0 1 = x0 := by
  unfold bits
  refine ⟨by omega, by omega, by omega⟩

/-- MODE and EN after a write that the lock and the seal leave free. -/
theorem Dev.afterWrite_chCfg (r : Requester) {n : Nat} (hn : n < 16) (v : Nat) (hl : d.locked .metFe (0x40 + 4 * n) = false)
    (hu : d.unsealed = true) : let w := d.afterWrite r .metFe (0x40 + 4 * n) v
    w < 2 ^ 32 ∧ bits w 1 3 = bits v 1 3 ∧ bits w 0 1 = bits v 0 1 := by
  unfold Dev.afterWrite
  rw [chCfg_fields n hn, hl, hu]
  unfold chCfgFields
  rw [fieldsAfter_cons, next_rw]
  iterate 8 rw [fieldsAfter_cons, next_rwu]
  exact chCfgWord_low (bits_lt ..) (bits_lt ..) (bits_lt ..) (bits_lt ..) (bits_lt ..) (bits_lt ..) (bits_lt ..) (bits_lt ..)
    (bits_lt ..)

theorem Dev.regWrite_chCfg (r : Requester) {n : Nat} (hn : n < 16) (v : Nat) :
    d.regWrite r .metFe (0x40 + 4 * n) v = d.chCfgSet n v (d.afterWrite r .metFe (0x40 + 4 * n) v) := by
  unfold Dev.regWrite Dev.pageWrite Dev.writeMetFe
  rw [if_neg (by omega)]
  simp only [chCfg_nth n hn]

/-- A requester that may write the page is on the legal side (R26). -/
theorem Dev.writable_legal {r : Requester} (h : d.writable r .metFe = true) : r.legal = true := by
  simp only [Dev.writable, Bool.and_eq_true, Bool.or_eq_true, bne_iff_ne] at h
  exact h.2.resolve_right fun hp => hp rfl

theorem Dev.hears_of_regs {d e : Dev} (h : e.regs = d.regs) (n : Nat) : e.hears n = d.hears n := by
  unfold Dev.hears
  split
  · rw [Dev.domOn_of_rd (Dev.rd_of_regs h _)]
  · rfl

/-- CFG_ERR is heard where the page is open. -/
theorem Dev.hears_cfgErr {r : Requester} (h : d.writable r .metFe = true) : d.hears Ev.MET_FE_CFG_ERR = true := by
  simp only [Dev.writable, Dev.opens, Dev.reaches, Bool.and_eq_true] at h
  have hp : eventPlace Ev.MET_FE_CFG_ERR = some (.metFe, 5) := by decide
  simp only [Dev.hears, hp, h.1.1.2.2, Bool.true_and, decide_eq_true_eq]
  decide

/-- Settles O35: a write that names a mode not allowed raises CFG_ERR and does nothing else; any other one sets the fields, and
the types of the outlets follow. -/
theorem modesNotAllowed : Obligations.ModesNotAllowed := by
  unfold Obligations.ModesNotAllowed
  intro s r n data hw m allowed
  have hallow : modeAllowed n.val m = true ↔ allowed := modeAllowed_iff n.isLt
  have hlegal := s.dev.writable_legal hw
  refine ⟨fun hna hc => ?_, fun ha hl hu => ?_⟩
  · have hset : (s.dev.answer .none).regWrite r .metFe (0x40 + 4 * n.val) data.toNat
        = (s.dev.answer .none).raise Ev.MET_FE_CFG_ERR := by
      rw [Dev.regWrite_chCfg _ r n.isLt]
      exact if_neg (mt hallow.1 hna)
    refine yields_write (p := .metFe) (0x40 + 4 * n.val) data.toNat rfl hw (chCfg_place n) (by omega) (by omega)
      (.inl hlegal) (by rw [hset]; exact hc) ?_
    rw [hset]
    intro e h he
    refine ⟨h.keeps, h.units, ?_⟩
    rw [he]
    have hcalm : (((s.dev.answer .none).raise Ev.MET_FE_CFG_ERR).answer .done).calm = true := by simpa using hc
    have hhear : (((s.dev.answer .none).raise Ev.MET_FE_CFG_ERR).answer .done).hears Ev.MET_FE_CFG_ERR = true :=
      (Dev.hears_of_regs rfl _).trans (s.dev.hears_cfgErr hw)
    exact Dev.finish_pends _ hcalm hhear (by simp)
  · refine effects_write (p := .metFe) (0x40 + 4 * n.val) data.toNat rfl hw (chCfg_place n) (by omega) (by omega)
      (.inl hlegal) ?_
    obtain ⟨hlt, hmode, hen⟩ := (s.dev.answer .none).afterWrite_chCfg r n.isLt data.toNat hl hu
    rw [Dev.regWrite_chCfg _ r n.isLt]
    generalize Dev.afterWrite _ _ _ _ _ = w at hlt hmode hen
    rw [show Dev.chCfgSet _ _ _ _ = ((s.dev.answer .none).chCfgWrite n w).typeChecks from if_pos (hallow.2 ha)]
    have hk := ((s.dev.answer .none).chCfgWrite n w).typeChecks_feKeeps.trans (.answer .done)
    have hrd : ((s.dev.answer .none).chCfgWrite n w).rd (Reg.MET_FE_CH_CFG n) = w :=
      (Dev.rd_wr_same _ _ _).trans (Nat.mod_eq_of_lt hlt)
    have hreg : isFeReg (Reg.MET_FE_CH_CFG n) = true := by
      simp only [isFeReg_iff, Reg.MET_FE_CH_CFG]
      omega
    refine ⟨(hk.f hreg).trans ?_, (hk.on hreg).trans ?_, ?_, fun h => hk.quiet _ (by decide) h⟩
    · rw [Dev.f, show (Fld.MET_FE_CH_CFG_MODE n).reg = Reg.MET_FE_CH_CFG n from rfl, hrd]
      exact hmode
    · exact (Dev.on_bit _ _ _).trans (by rw [hrd, bit_of_bits hen])
    · rw [hk.fe]
      exact bit_setBits_one _ _

end Sys2Proof.Machine
end

section
/-! SUPPORT. R143, R156–R158: a channel goes back to the high range; pulse inputs. -/

namespace Sys2Proof.Machine

variable (d : Dev) {n : Nat}

/-! ### RANGE_UP (R143) -/

theorem satInc_lt (w k : Nat) : satInc w k < 2 ^ w := by
  have := Nat.two_pow_pos w
  unfold satInc
  split <;> omega

theorem Dev.rangeUp_eq {c : Nat} (hc : (d.feChan n).cfg = some c) (he : cfgEn c = true) (hr : cfgRanging c = true)
    (hl : (d.feChan n).low = true) (hcl : (d.feChan n).closed = true) (hrun : cfgRup c ≤ (d.feChan n).run) :
    d.rangeUp n = ((d.setFeChan n { d.feChan n with low := false, run := 0 }).rangeChg n).setF (Fld.MET_FE_CH_STAT_RNG n) 0 := by
  unfold Dev.rangeUp
  simp only [hc, he, hr, hl, hcl, hrun, decide_true, Bool.and_self, if_true]

/-! ### The level of a pulse input (R156, R157) -/

/-- CNT of input `n` after a write that comes with the level, or none. -/
def Dev.cntBase (n : Nat) (wrote : Option WordWrite) : Nat :=
  match wrote with
  | some w => if d.writable w.req .metFe = true ∧ bit (d.rd (Reg.PG_LOCK .metFe)) 0 = false then w.data.toNat
              else d.rd (Reg.MET_FE_CNT n)
  | none => d.rd (Reg.MET_FE_CNT n)

theorem cnt_fields : ∀ n < 4, fieldsAt .metFe (0x204 + 8 * n) = [⟨0, 32, .rw, 0, .aon⟩] := by decide

theorem cnt_nth : ∀ n < 4, nth (0x204 + 8 * n) 0x40 16 4 = none := by decide

theorem cnt_place (n : Nat) : Reg.MET_FE_CNT n = pageBase .metFe + (0x204 + 8 * n) := by
  simp only [Reg.MET_FE_CNT, pageBase, Page.num]
  omega

theorem Dev.regWrite_cnt (r : Requester) (hn : n < 4) (v : Word) : d.regWrite r .metFe (0x204 + 8 * n) v.toNat =
    d.wr (Reg.MET_FE_CNT n) (if bit (d.rd (Reg.PG_LOCK .metFe)) 0 = false then v.toNat else d.rd (Reg.MET_FE_CNT n)) := by
  have hword : ∀ x < 2 ^ 32, bits x 0 32 = x := fun x hx => by
    unfold bits
    omega
  have hnew : d.afterWrite r .metFe (0x204 + 8 * n) v.toNat =
      if bit (d.rd (Reg.PG_LOCK .metFe)) 0 = false then v.toNat else d.rd (Reg.MET_FE_CNT n) := by
    unfold Dev.afterWrite fieldsAfter Dev.locked
    rw [cnt_fields n hn, ← cnt_place]
    simp only [List.map_cons, List.map_nil, FieldRow.next, sumN, List.foldl_cons, List.foldl_nil, hword _ v.isLt,
      hword _ (d.rd_lt _), show decide (0x40 ≤ 0x204 + 8 * n) = true from decide_eq_true (by omega), Bool.true_and]
    cases bit (d.rd (Reg.PG_LOCK .metFe)) 0 <;> simp
  unfold Dev.regWrite Dev.pageWrite Dev.writeMetFe
  rw [if_neg (by omega), hnew, cnt_place]
  simp only [cnt_nth n hn]

theorem Dev.FeKeeps.rewrite (a : Nat) : (d.wr a (d.rd a)).FeKeeps d :=
  ⟨fun b _ => by
    rw [Dev.rd_wr]
    split
    · rename_i h
      rw [h, Nat.mod_eq_of_lt (d.rd_lt a)]
    · rfl, rfl, rfl, fun _ _ => id, .of_eq rfl⟩

/-- The device in which the level is judged: a write of CNT in the same period has been performed or not (R158). -/
def Dev.cntWritten (n : Nat) (wrote : Option WordWrite) : Dev :=
  match wrote with
  | some w => d.cmdWrite w.req (Reg.MET_FE_CNT n) w.data.toNat .word
  | none => d

theorem Dev.cntWritten_keeps (hn : n < 4) (wrote : Option WordWrite) :
    (d.wr (Reg.MET_FE_CNT n) (d.cntBase n wrote)).FeKeeps (d.cntWritten n wrote) := by
  cases wrote with
  | none => exact .rewrite d _
  | some w =>
    unfold Dev.cntBase Dev.cntWritten
    dsimp only
    rcases hw : d.writable w.req .metFe with _ | _
    · rw [if_neg (by simp)]
      exact (Dev.FeKeeps.rewrite d _).trans
        (d.cmdWrite_unwritable (0x204 + 8 * n) _ hw (cnt_place n) (by omega) (by omega))
    · rw [d.cmdWrite_open (0x204 + 8 * n) _ hw (cnt_place n) (by omega) (by omega) (.inl (d.writable_legal hw)),
        d.regWrite_cnt _ hn]
      simp only [true_and]
      exact .answer _

/-! ### A wake request loses no event (R367, R368) -/

theorem Dev.Grows.wr (a v : Nat) : d.Grows (d.wr a v) := .of_eq rfl

theorem Dev.Grows.watch (w : Watch) : d.Grows { d with watch := w } := .of_eq rfl

theorem Dev.uptimeNow_grows : d.Grows d.uptimeNow.2 := .of_eq rfl

theorem Dev.recordWake_grows (cs : List Nat) (c : Nat) : d.Grows (d.recordWake cs c) := by
  unfold Dev.recordWake
  exact .trans (.trans (.trans (.trans (.trans (.trans (.wr _ _ _) (.wr _ _ _)) (.wr _ _ _)) (.wr _ _ _))
    (Dev.uptimeNow_grows _)) (.wr _ _ _)) (.pwr _)

theorem Dev.joinWake_grows (cs : List Nat) : d.Grows (d.joinWake cs) := .trans (.wr _ _ _) (.setF _ _)

theorem Dev.leaveIdle_grows : d.Grows d.leaveIdle := .trans (.setF Fld.PWR_STATE_CUR _) (.raise _)

theorem Dev.idleOver_grows : d.Grows d.idleOver := by
  unfold Dev.idleOver
  split
  · exact d.leaveIdle_grows
  · exact .of_eq rfl

theorem Dev.wakeAct_grows (cs : List Nat) : d.Grows (d.wakeAct cs) := by
  have wakes : ∀ c, d.Grows (d.recordWake cs c).startWake := fun c => (d.recordWake_grows cs c).trans (Dev.startWake_grows _)
  unfold Dev.wakeAct
  split
  · split
    · exact (d.recordWake_grows cs _).trans (.pwr _)
    · exact ((((d.recordWake_grows cs _).trans (.pwr _)).trans (Dev.abortEntry_grows _)).trans (Dev.idleOver_grows _)).trans
        (.raise _)
  · dsimp only
    split
    · exact .of_eq rfl
    · exact .of_eq rfl
    · exact (((d.recordWake_grows cs _).trans (.pwr _)).trans (Dev.leaveIdle_grows _)).trans (.raise _)
    · exact wakes _
    · exact wakes _
    · exact (d.recordWake_grows cs _).trans (.pwr _)
    · split
      · exact (d.recordWake_grows cs _).trans (.watch _ _)
      · exact wakes _

theorem Dev.wakeRequest_grows (cs : List Nat) : d.Grows (d.wakeRequest cs) := by
  unfold Dev.wakeRequest
  dsimp only
  split
  · exact .of_eq rfl
  · split
    · exact d.wakeAct_grows _
    · have h : d.Grows d.wakePeriod.2 := by
        unfold Dev.wakePeriod
        split
        · exact .of_eq rfl
        · exact d.uptimeNow_grows
      split <;> rename_i hp <;> rw [hp] at h
      · exact h.trans (Dev.joinWake_grows _ _)
      · exact h

/-! ### One count (R158) -/

/-- The count of input `n` without the wake request that it may make. -/
def Dev.cntStamped (n : Nat) : Dev :=
  let v := (d.rd (Reg.MET_FE_CNT n) + 1) % 2 ^ 32
  let x := ((d.wr (Reg.MET_FE_CNT n) v).raise (Ev.MET_FE_CNT_EDGE n)).raiseIf (v == 0) (Ev.MET_FE_CNT_WRAP n)
  if d.mae.running then x.wr (Reg.MET_FE_CNT_AT n) (d.mae.tick * 256 + d.mae.cyc.toNat % 65536 * 65536)
  else x.setF (Fld.MET_FE_CNT_AT_NOTIME n) 1

theorem Dev.cntUp_wakes : (d.cntStamped n).After (d.cntUp n) ∧ (d.cntStamped n).Grows (d.cntUp n) := by
  have h : d.cntUp n = if bit ((d.cntStamped n).f Fld.ROOSTER_SRC_EN_CNT_MASK) n then (d.cntStamped n).wakeRequest [5]
      else d.cntStamped n := by
    unfold Dev.cntUp Dev.cntStamped
    simp only [Dev.raiseIf_mae, Dev.raise_mae, Dev.wr_mae]
  rw [h]
  split
  · exact ⟨Dev.wakeRequest_after _ _, Dev.wakeRequest_grows _ _⟩
  · exact ⟨.refl _, .of_eq rfl⟩

theorem cntRegs_follow : ∀ n < 4, follows (Reg.MET_FE_CNT n) = false ∧ follows (Reg.MET_FE_CNT_CFG n) = false
    ∧ follows (Reg.MET_FE_CNT_AT n) = false := by decide

theorem cntAt_ne (hn : n < 4) : Reg.MET_FE_CNT n ≠ Reg.MET_FE_CNT_AT n ∧ Reg.MET_FE_CNT_CFG n ≠ Reg.MET_FE_CNT_AT n
    ∧ Reg.MET_FE_CNT_CFG n ≠ Reg.MET_FE_CNT n := by
  simp only [Reg.MET_FE_CNT, Reg.MET_FE_CNT_AT, Reg.MET_FE_CNT_CFG]
  omega

theorem Dev.cntStamped_rd {a : Nat} (h : a ≠ Reg.MET_FE_CNT_AT n) :
    (d.cntStamped n).rd a = (d.wr (Reg.MET_FE_CNT n) ((d.rd (Reg.MET_FE_CNT n) + 1) % 2 ^ 32)).rd a := by
  unfold Dev.cntStamped
  dsimp only
  split
  · rw [Dev.rd_wr_ne _ _ h, Dev.rd_raiseIf, Dev.rd_raise]
  · rw [Dev.rd_setF_ne _ _ _ h, Dev.rd_raiseIf, Dev.rd_raise]

theorem Dev.cntStamped_edges : (d.cntStamped n).edges =
    (d.edges ++ [Ev.MET_FE_CNT_EDGE n]) ++ if (d.rd (Reg.MET_FE_CNT n) + 1) % 2 ^ 32 == 0 then [Ev.MET_FE_CNT_WRAP n] else [] := by
  unfold Dev.cntStamped
  dsimp only
  split <;> exact Dev.raiseIf_edges _ _ _

/-- The stamp of a count is the mains time (R158). -/
theorem Dev.cntStamped_time (h : d.mae.running = true) : (d.cntStamped n).f (Fld.MET_FE_CNT_AT_TICK n) = d.mae.tick
    ∧ (d.cntStamped n).f (Fld.MET_FE_CNT_AT_CYC n) = d.mae.cyc.toNat % 65536
    ∧ (d.cntStamped n).f (Fld.MET_FE_CNT_AT_NOTIME n) = 0 := by
  have ht := tick_lt d.mae
  unfold Dev.cntStamped
  simp only [h, if_true, Dev.f, Fld.MET_FE_CNT_AT_TICK, Fld.MET_FE_CNT_AT_CYC, Fld.MET_FE_CNT_AT_NOTIME, Dev.rd_wr_same, bits]
  refine ⟨by omega, by omega, by omega⟩

theorem Dev.cntStamped_noTime (h : d.mae.running = false) : (d.cntStamped n).f (Fld.MET_FE_CNT_AT_NOTIME n) = 1 := by
  unfold Dev.cntStamped
  simp only [h, Bool.false_eq_true, if_false]
  exact Dev.f_setF_same _ (Fld.MET_FE_CNT_AT_NOTIME n) 1 (by simp [Fld.MET_FE_CNT_AT_NOTIME])

/-- What one count of input `n` leaves. -/
structure Dev.Counted (n : Nat) (d e : Dev) : Prop where
  cnt : e.rd (Reg.MET_FE_CNT n) = (d.rd (Reg.MET_FE_CNT n) + 1) % 2 ^ 32
  cfg : e.rd (Reg.MET_FE_CNT_CFG n) = d.rd (Reg.MET_FE_CNT_CFG n)
  edge : Ev.MET_FE_CNT_EDGE n ∈ e.edges
  wrap : (d.rd (Reg.MET_FE_CNT n) + 1) % 2 ^ 32 = 0 → Ev.MET_FE_CNT_WRAP n ∈ e.edges
  time : d.mae.running = true → e.f (Fld.MET_FE_CNT_AT_TICK n) = d.mae.tick
    ∧ e.f (Fld.MET_FE_CNT_AT_CYC n) = d.mae.cyc.toNat % 65536 ∧ e.f (Fld.MET_FE_CNT_AT_NOTIME n) = 0
  noTime : d.mae.running = false → e.f (Fld.MET_FE_CNT_AT_NOTIME n) = 1

theorem Dev.cntUp_counted (hn : n < 4) : d.Counted n (d.cntUp n) := by
  obtain ⟨hafter, hgrows⟩ := d.cntUp_wakes (n := n)
  obtain ⟨hfc, hfg, hfa⟩ := cntRegs_follow n hn
  obtain ⟨hc, hg, hgc⟩ := cntAt_ne hn
  have hat : ∀ g : Field, g.reg = Reg.MET_FE_CNT_AT n → (d.cntUp n).f g = (d.cntStamped n).f g :=
    fun g hr => hafter.f (by rw [hr]; exact hfa)
  refine ⟨?_, ?_, hgrows _ ?_, fun h0 => hgrows _ ?_, fun h => ?_, fun h => ?_⟩
  · rw [hafter.rd hfc, d.cntStamped_rd hc, Dev.rd_wr_same, Nat.mod_mod]
  · rw [hafter.rd hfg, d.cntStamped_rd hg, Dev.rd_wr_ne _ _ hgc]
  · rw [d.cntStamped_edges]
    simp
  · rw [d.cntStamped_edges, h0]
    simp
  · obtain ⟨ht, hy, hno⟩ := d.cntStamped_time (n := n) h
    exact ⟨(hat _ rfl).trans ht, (hat _ rfl).trans hy, (hat _ rfl).trans hno⟩
  · exact (hat _ rfl).trans (d.cntStamped_noTime h)

/-! ### CNT_COUNT (R157) -/

/-- The level of input `n` as accepted. -/
def Dev.levelled (n : Nat) : Dev := d.setB (Fld.MET_FE_CNT_CFG_LEVEL n) (vGet d.fe.pins n false)

/-- R157: a level that is new is accepted, and counted where EN is set and EDGE matches. -/
theorem Dev.cntAccept_new (h : d.on (Fld.MET_FE_CNT_CFG_LEVEL n) ≠ vGet d.fe.pins n false) : d.cntAccept n =
    if d.on (Fld.MET_FE_CNT_CFG_EN n) && (d.f (Fld.MET_FE_CNT_CFG_EDGE n) == 2
        || vGet d.fe.pins n false != (d.f (Fld.MET_FE_CNT_CFG_EDGE n) == 1))
    then (d.levelled n).cntUp n else d.levelled n := by
  have hen : (d.levelled n).on (Fld.MET_FE_CNT_CFG_EN n) = d.on (Fld.MET_FE_CNT_CFG_EN n) := by
    rw [Dev.on, Dev.on, Dev.levelled, Dev.setB, Dev.f_setF_disj _ (Fld.MET_FE_CNT_CFG_LEVEL n) (Fld.MET_FE_CNT_CFG_EN n) _ rfl
      (by simp [Fld.MET_FE_CNT_CFG_LEVEL]) (.inl (by simp [Fld.MET_FE_CNT_CFG_LEVEL, Fld.MET_FE_CNT_CFG_EN]))]
  have hedge : (d.levelled n).f (Fld.MET_FE_CNT_CFG_EDGE n) = d.f (Fld.MET_FE_CNT_CFG_EDGE n) := by
    rw [Dev.levelled, Dev.setB, Dev.f_setF_disj _ (Fld.MET_FE_CNT_CFG_LEVEL n) (Fld.MET_FE_CNT_CFG_EDGE n) _ rfl
      (by simp [Fld.MET_FE_CNT_CFG_LEVEL]) (.inl (by simp [Fld.MET_FE_CNT_CFG_LEVEL, Fld.MET_FE_CNT_CFG_EDGE]))]
  unfold Dev.cntAccept
  rw [← hen, ← hedge]
  exact if_neg (by simpa using h)

theorem Dev.cntAccept_same (h : d.on (Fld.MET_FE_CNT_CFG_LEVEL n) = vGet d.fe.pins n false) : d.cntAccept n = d := by
  unfold Dev.cntAccept
  exact if_pos (by simpa using h)

theorem Dev.levelled_level : (d.levelled n).on (Fld.MET_FE_CNT_CFG_LEVEL n) = vGet d.fe.pins n false := by
  rw [Dev.on, Dev.levelled, Dev.setB, Dev.f_setF_same _ _ _ (by simp [Fld.MET_FE_CNT_CFG_LEVEL])]
  cases vGet d.fe.pins n false <;> rfl

theorem Dev.levelled_cnt (hn : n < 4) : (d.levelled n).rd (Reg.MET_FE_CNT n) = d.rd (Reg.MET_FE_CNT n) :=
  Dev.rd_setF_ne d (Fld.MET_FE_CNT_CFG_LEVEL n) _ (cntAt_ne hn).2.2.symm

/-- R157, R158: a level that is new and matches is counted. -/
theorem Dev.cntAccept_counts (hn : n < 4) (h : d.on (Fld.MET_FE_CNT_CFG_LEVEL n) ≠ vGet d.fe.pins n false)
    (hen : d.on (Fld.MET_FE_CNT_CFG_EN n) = true)
    (he : d.f (Fld.MET_FE_CNT_CFG_EDGE n) = 2 ∨ (d.f (Fld.MET_FE_CNT_CFG_EDGE n) = 1 ∧ vGet d.fe.pins n false = false)
      ∨ (d.f (Fld.MET_FE_CNT_CFG_EDGE n) ≠ 1 ∧ d.f (Fld.MET_FE_CNT_CFG_EDGE n) ≠ 2 ∧ vGet d.fe.pins n false = true)) :
    (d.levelled n).Counted n (d.cntAccept n) ∧ (d.cntAccept n).on (Fld.MET_FE_CNT_CFG_LEVEL n) = vGet d.fe.pins n false := by
  have hm : (d.f (Fld.MET_FE_CNT_CFG_EDGE n) == 2 || vGet d.fe.pins n false != (d.f (Fld.MET_FE_CNT_CFG_EDGE n) == 1)) = true := by
    rcases he with he | ⟨he, hl⟩ | ⟨h1, -, hl⟩
    · simp [he]
    · simp [he, hl]
    · simp [h1, hl]
  rw [d.cntAccept_new h, if_pos (by rw [hen, hm]; rfl)]
  have hc := (d.levelled n).cntUp_counted hn
  exact ⟨hc, (Dev.on_of_rd hc.cfg).trans d.levelled_level⟩

/-- R157: a level that is new and does not match is accepted only. -/
theorem Dev.cntAccept_uncounted (h : d.on (Fld.MET_FE_CNT_CFG_LEVEL n) ≠ vGet d.fe.pins n false)
    (he : d.on (Fld.MET_FE_CNT_CFG_EN n) = false
      ∨ (d.f (Fld.MET_FE_CNT_CFG_EDGE n) = 1 ∧ vGet d.fe.pins n false = true)
      ∨ (d.f (Fld.MET_FE_CNT_CFG_EDGE n) ≠ 1 ∧ d.f (Fld.MET_FE_CNT_CFG_EDGE n) ≠ 2 ∧ vGet d.fe.pins n false = false)) :
    d.cntAccept n = d.levelled n := by
  rw [d.cntAccept_new h]
  refine if_neg ?_
  rcases he with he | ⟨he, hl⟩ | ⟨h1, h2, hl⟩
  · simp [he]
  · simp [he, hl]
  · simp [h1, h2, hl]

/-! ### The commands -/

theorem cntCount_effects {s : State} {n : Fin 4} {wrote : Option WordWrite} {P : Dev → Prop}
    (h : P (((s.dev.answer .none).cntWritten n.val wrote).cntAccept n.val)) : Effects (.cntCount n wrote) s P :=
  effects_run (f := fun d => (d.cntWritten n.val wrote).cntAccept n.val) (by cases wrote <;> rfl) h

/-- What CNT_COUNT finds where the write of the same period has come to pass. -/
theorem Dev.cntWritten_finds (hn : n < 4) (wrote : Option WordWrite) : let x := d.cntWritten n wrote
    x.rd (Reg.MET_FE_CNT n) = d.cntBase n wrote ∧ x.rd (Reg.MET_FE_CNT_CFG n) = d.rd (Reg.MET_FE_CNT_CFG n)
      ∧ x.fe = d.fe ∧ x.mae = d.mae ∧ (Ev.MET_FE_CNT_EDGE n ∈ x.edges → Ev.MET_FE_CNT_EDGE n ∈ d.edges) := by
  have hk := d.cntWritten_keeps hn wrote
  have hlt : d.cntBase n wrote < 2 ^ 32 := by
    unfold Dev.cntBase
    split
    · split
      · exact BitVec.isLt _
      · exact d.rd_lt _
    · exact d.rd_lt _
  have hreg : isFeReg (Reg.MET_FE_CNT n) = true ∧ isFeReg (Reg.MET_FE_CNT_CFG n) = true := by
    simp only [isFeReg_iff, Reg.MET_FE_CNT, Reg.MET_FE_CNT_CFG]
    omega
  have hev : isFeEvent (Ev.MET_FE_CNT_EDGE n) = true := by
    simp only [isFeEvent_iff, Ev.MET_FE_CNT_EDGE]
    omega
  exact ⟨(hk.rd _ hreg.1).trans ((Dev.rd_wr_same _ _ _).trans (Nat.mod_eq_of_lt hlt)),
    (hk.rd _ hreg.2).trans (Dev.rd_wr_ne _ _ (cntAt_ne hn).2.2), hk.fe, hk.mae, hk.quiet _ hev⟩

/-- What RANGE_UP leaves (R143). -/
theorem Dev.rangeUp_facts (hn : n < 16) (h : FeChan) :
    let e := ((d.setFeChan n h).rangeChg n).setF (Fld.MET_FE_CH_STAT_RNG n) 0
    e.feChan n = h ∧ e.f (Fld.MET_FE_CH_STAT_RNG n) = 0
      ∧ e.f (Fld.MET_FE_CH_STAT_RCHG_CNT n) = satInc 16 (d.f (Fld.MET_FE_CH_STAT_RCHG_CNT n))
      ∧ e.edges = d.edges ++ [Ev.MET_FE_RANGE_CHG]
      ∧ (∀ m, m ≠ n → e.feChan m = d.feChan m) ∧ ∀ a, a ≠ Reg.MET_FE_CH_STAT n → e.rd a = d.rd a := by
  refine ⟨vGet_vSet_same _ hn _ _, ?_, ?_, rfl, fun m hm => vGet_vSet_ne _ hm _ _, fun a ha => ?_⟩
  · exact Dev.f_setF_same _ (Fld.MET_FE_CH_STAT_RNG n) 0 (by simp [Fld.MET_FE_CH_STAT_RNG])
  · refine (Dev.f_setF_disj _ (Fld.MET_FE_CH_STAT_RNG n) (Fld.MET_FE_CH_STAT_RCHG_CNT n) _ rfl
      (by simp [Fld.MET_FE_CH_STAT_RNG]) (.inr (by simp [Fld.MET_FE_CH_STAT_RNG, Fld.MET_FE_CH_STAT_RCHG_CNT]))).trans ?_
    exact (Dev.f_setF_same _ (Fld.MET_FE_CH_STAT_RCHG_CNT n) _ (by simp [Fld.MET_FE_CH_STAT_RCHG_CNT])).trans
      (Nat.mod_eq_of_lt (satInc_lt 16 _))
  · exact (Dev.rd_setF_ne _ (Fld.MET_FE_CH_STAT_RNG n) 0 ha).trans
      (Dev.rd_setF_ne (d.setFeChan n h) (Fld.MET_FE_CH_STAT_RCHG_CNT n) _ ha)

/-- Settles O36: RANGE_UP writes the channel and its CH_STAT; a level that is accepted counts on what a write of the same period
has left of CNT. -/
theorem rangeUpAndPulseInputs : Obligations.RangeUpAndPulseInputs := by
  unfold Obligations.RangeUpAndPulseInputs
  refine ⟨fun s n c hc he hr hl hcl hrun => effects_run (f := fun d => d.rangeUp n.val) rfl ?_,
    fun s n level hc => yields_run (f := fun d => d.cntChange n.val level) rfl hc fun e h _ => ?_, fun s n wrote => ?_⟩
  · rw [(s.dev.answer .none).rangeUp_eq hc he hr hl hcl hrun]
    obtain ⟨hchan, hrest⟩ := (s.dev.answer .none).rangeUp_facts n.isLt
      { (s.dev.answer .none).feChan n with low := false, run := 0 }
    exact ⟨by rw [hchan], hrest⟩
  · have hfe : e.fe = { s.dev.fe with pins := vSet s.dev.fe.pins n.val level } := congrArg Dev.fe h.units
    exact ⟨hfe, by rw [hfe]; exact vGet_vSet_same _ n.isLt _ _, h.keeps⟩
  · intro lvl edge base
    have hbase : (s.dev.answer .none).cntBase n.val wrote = base := by cases wrote <;> rfl
    obtain ⟨hcnt, hcfg, hfe, hmae, hquiet⟩ := (s.dev.answer .none).cntWritten_finds n.isLt wrote
    rw [hbase] at hcnt
    have hnone : wrote = none → (s.dev.answer .none).cntWritten n.val wrote = s.dev.answer .none := fun h => by rw [h]; rfl
    generalize hx : (s.dev.answer .none).cntWritten n.val wrote = x at hcnt hcfg hfe hmae hquiet hnone
    have hlvl : vGet x.fe.pins n.val false = lvl := by rw [hfe]; rfl
    have hen : x.on (Fld.MET_FE_CNT_CFG_EN n.val) = s.dev.on (Fld.MET_FE_CNT_CFG_EN n.val) := Dev.on_of_rd hcfg
    have hlev : x.on (Fld.MET_FE_CNT_CFG_LEVEL n.val) = s.dev.on (Fld.MET_FE_CNT_CFG_LEVEL n.val) := Dev.on_of_rd hcfg
    have hedge : x.f (Fld.MET_FE_CNT_CFG_EDGE n.val) = edge := Dev.f_of_rd hcfg
    rw [← hlvl, ← hlev, ← hen, ← hedge, ← hcnt]
    refine ⟨fun hs => cntCount_effects ?_, fun hs he hm => cntCount_effects ?_, fun hs hm => cntCount_effects ?_⟩ <;> rw [hx]
    · rw [x.cntAccept_same hs]
      exact ⟨rfl, hnone, hquiet⟩
    · obtain ⟨hc, hl⟩ := x.cntAccept_counts n.isLt hs he hm
      have hn := x.levelled_cnt n.isLt
      have hm' : (x.levelled n.val).mae = s.dev.mae := hmae
      refine ⟨hc.cnt.trans (by rw [hn]), hl, hc.edge, fun h0 => hc.wrap (by rw [hn]; exact h0), fun h => ?_, fun h => ?_⟩
      · rw [← hm']
        exact hc.time (by rw [hm']; exact h)
      · exact hc.noTime (by rw [hm']; exact h)
    · rw [x.cntAccept_uncounted hs hm]
      exact ⟨x.levelled_cnt n.isLt, x.levelled_level, fun h => (congrArg Dev.edges (hnone h) :), hquiet⟩

end Sys2Proof.Machine
end
